-- ==== Sys2Proof/Machine/Operands.lean ====
section
/-! DEFINITION. The operand types of the commands: who asks, which register, which queue, and the
descriptions a command carries because the manual leaves their form to the toolchain (image header,
tile of a task). Unit numbers are `Fin` of the count 01 R12 gives. -/

namespace Sys2Proof

/-- Where an LMP command was submitted: a mailbox, or the safety mailbox of a Lantern (12 R416, R431). -/
inductive CmdSrc where
  | mbx (m : Fin 64)
  | sm (l : Fin 2)
  deriving DecidableEq, Repr

/-- The Spill Queues of 07 R276. -/
inductive QueueId where
  | evq
  | ingress (port : Fin 16)
  | plan (e : Fin 2)
  | stream (part : Fin 16) (i : Nat)
  deriving DecidableEq, Repr

/-- The number of a queue: the Event Queue 0, ingress 1 to 16, planning results 17 and 18, streams from 32. -/
def QueueId.key : QueueId → Nat
  | .evq => 0
  | .ingress p => 1 + p.val
  | .plan e => 17 + e.val
  | .stream p i => 32 + p.val + 16 * i

/-- The errors in a word or line as its decoder meets it: none; one bit of an SRAM word or any error within one byte of a DRAM line,
which it corrects; two bits of a word or an error within two or three bytes of a line, which it detects (07 R238, R249; log 107). `ctrl` is
an error of the access itself: the parity of the control fields of its transfer fails (09 R307). -/
inductive EccCond where
  | clean
  | single
  | bad
  | ctrl
  deriving DecidableEq, Repr

/-- A read burst's link error: none, one bit, which link ECC corrects, or one that it cannot correct (07 R266). -/
inductive LinkErr where
  | none
  | single
  | multi
  deriving DecidableEq, Repr

/-- An event at Planning Engine `e` at which candidates are checked (05 R196, R197): `otherDiffers` says that the other engine's
checker answers differently on one of them. -/
structure EngineEvent where
  e : Fin 2
  otherDiffers : Bool := false
  deriving DecidableEq, Repr

/-- A reduction's source (08 R280): the Spire that runs its task and the addresses of the partials, in the order of their numbers. -/
structure DetSource where
  sp : Fin 64
  das : List Nat
  deriving DecidableEq, Repr

/-- Whether Lantern A and Lantern B receive a DIE_IDENT word from their peer (01 R29). -/
structure LanternsHear where
  a : Bool
  b : Bool
  deriving DecidableEq, Repr

/-- Status of a host-window read completion (01 R523). -/
inductive ReadStatus where
  | ok
  | poisoned
  | unsupported
  | aborted
  deriving DecidableEq, Repr

/-- Who issues a memory access (01 R523, 07 R237, R242). A DMA, gather, sort or walk access acts for the
task of a Spire. -/
inductive Requester where
  | spire (s : Fin 64)
  | dma (d : Fin 16) (ch : Fin 4) (s : Fin 64)
  | gather (d : Fin 16) (s : Fin 64)
  | sorter (d : Fin 16) (s : Fin 64)
  | walker (t : Fin 4) (s : Fin 64)
  | engine (e : Fin 2)
  | ingress (side : Fin 2)
  | cupola (side : Fin 2)
  | lantern (l : Fin 2)
  | host (ep : Fin 2) (part : Fin 16)
  deriving DecidableEq, Repr

/-- A register that REGISTER_WRITE reaches: an offset of BAR0 or BAR4 through an endpoint, a register of a
Spill Queue's block (07 R272), or a word of a sequence table entry (04 R114). -/
inductive RegTarget where
  | bar0 (ep : Fin 2) (off : Nat) (wide : Bool)
  | bar4 (ep : Fin 2) (off : Nat)
  | sq (q : QueueId) (off : Nat)
  | seqEntry (slot : Fin 4096) (word : Fin 4)
  | other (da : Nat)
  deriving DecidableEq, Repr

/-- A read of some bytes, a write of bytes, or a write whose packet is poisoned (12 R406). -/
inductive Access where
  | read (n : Nat)
  | write (data : List Byte)
  | poisoned
  deriving DecidableEq, Repr

/-- How a spill or refill access of a queue's ring ends (07 R274, R275). -/
inductive SpillEnd where
  | ok
  | decodeFault
  | dmaFault
  | linkDown
  deriving DecidableEq, Repr

/-- Element formats, in the order of the FORMAT codes of 03 R84. -/
inductive Fmt where
  | int8 | int4 | e4m3 | e5m2 | mxE4m3 | mxE5m2 | mxInt8 | mxE2m3 | mxE3m2 | mxFp4 | bf16 | fp16 | fp32 | int32
  deriving DecidableEq, Repr

/-- Requantisation of one output channel (02 R63, R64, R524): `scale` holds FP32 bits. -/
structure Quant where
  bias : Int := 0
  mult : Nat := 1
  shift : Nat := 0
  zero : Int := 0
  scale : W32 := 0x3F800000#32
  deriving DecidableEq, Repr

/-- One tile of a matrix task (02 R45 to R64): rows of A and columns of B lie at a base and a pitch in bytes,
MX scales one byte per block beside them, and `k0` is the global K index of the first position. -/
structure MatTile where
  aFmt : Fmt
  bFmt : Fmt
  m : Nat
  n : Nat
  k : Nat
  k0 : Nat := 0
  a : Nat
  aPitch : Nat
  aScale : Nat := 0
  aScalePitch : Nat := 0
  b : Nat
  bPitch : Nat
  bScale : Nat := 0
  bScalePitch : Nat := 0
  sparse : Bool := false
  metaDa : Nat := 0
  metaPitch : Nat := 0
  cin : Option Nat := none
  cinPitch : Nat := 0
  out : Nat
  outPitch : Nat
  outScale : Nat := 0
  outScalePitch : Nat := 0
  outFmt : Fmt
  quant : List Quant := []
  tensor : Nat := 0
  idx0 : Nat := 0
  idxPitch : Nat := 0
  deriving DecidableEq, Repr

/-- One tile of a sliding-window task (03 R84 to R95): the two TENSOR_DESC and the WIN_DESC, the output
positions and channels of the tile, and the weight columns in the K order of 03 R92 or R93. -/
structure WinTile where
  inDesc : List W64
  outDesc : List W64
  winDesc : List W64
  pos0 : Nat
  npos : Nat
  oc0 : Nat
  noc : Nat
  w : Nat := 0
  wPitch : Nat := 0
  wFmt : Fmt := .int8
  wScale : Nat := 0
  wScalePitch : Nat := 0
  sparse : Bool := false
  metaDa : Nat := 0
  metaPitch : Nat := 0
  inRing : Nat := 0
  outRing : Nat := 0
  cin : Option Nat := none
  quant : List Quant := []
  tensor : Nat := 0
  deriving DecidableEq, Repr

/-- The vector functions of 02 R71. -/
inductive VecFn where
  | exp | log | recip | rsqrt | tanh | gelu
  deriving DecidableEq, Repr

/-- A piece of vector-unit work (02 R70 to R74, 04 R152 R153, 08 R288). Addresses are of FP32 words unless a
format is named. -/
inductive VecOp where
  | map (f : VecFn) (src dst n : Nat)
  | fma (a b c dst n : Nat)
  | sum (src dst n : Nat)
  | softmax (src dst n : Nat) (stats : Option Nat)
  | layerNorm (src dst n gamma beta : Nat) (recipN eps : W32)
  | rmsNorm (src dst n gamma : Nat) (recipN eps : W32)
  | convert (src : Nat) (srcFmt : Fmt) (srcScale : Nat) (dst : Nat) (dstFmt : Fmt) (dstScale n tensor idx0 : Nat)
    (quant : List Quant)
  | uniform (dst n tensor idx0 : Nat)
  | keep (dst n tensor idx0 : Nat) (threshold : W32)
  | backward (score stats dO out dp : Nat) (dst n width : Nat)
  deriving DecidableEq, Repr

/-- What a tile computes. `compare` is the compare task of 09 R334, `signature` the signature task of R333. -/
inductive TileOp where
  | mat (t : MatTile)
  | win (t : WinTile)
  | vec (v : VecOp)
  | compare (x y n : Nat) (absTol relTol : W32) (dst : Nat)
  | signature (ranges : List (Nat × Nat)) (dst : Nat)
  deriving DecidableEq, Repr

/-- Faults of the package's hardware during a tile: errors added to exact block sums (row, column, block,
error), a duplicate, residue or address-generator mismatch (02 R76, R77, 09 R308), an uncorrectable word of
the Spire Store (02 R79). The empty value is a fault-free tile. -/
structure TileFaults where
  errs : List (Nat × Nat × Nat × Int) := []
  dup : Bool := false
  storeUe : Bool := false
  deriving DecidableEq, Repr

/-- A band of output rows b0 to b1 − 1 of a consumer stripe and one producer stripe of its source (03 R98): the producer's row token,
the consumer's WIN_DESC, the source's rows, and the producer's rows r0 to r1 − 1. -/
structure Band where
  dome : Fin 16
  tok : Fin 64
  win : List W64
  h : Nat
  b0 : Nat
  b1 : Nat
  r0 : Nat
  r1 : Nat
  deriving DecidableEq, Repr

/-- What a task names before it may start, or waits for at a yield point (06 R216, R220): the end of a task of the same launch, a
scoreboard counter, row token or ring read token (03 R101) of a Dome reaching a target, the rows a band needs (03 R98), or the
append counter of a sequence exceeding a position (04 R126). -/
inductive WaitRef where
  | task (i : Nat)
  | ctr (dome : Fin 16) (c : Fin 64) (target : Nat)
  | token (dome : Fin 16) (t : Fin 64) (target : Nat)
  | read (dome : Fin 16) (t : Fin 64) (target : Nat)
  | band (b : Band)
  | append (slot : Fin 4096) (pos : Nat)
  deriving DecidableEq, Repr

/-- A row ring as its consumer stripe declares it (03 R101): R_ring, the consumer's WIN_DESC, source rows and bands (b0, b1), the
producer's band height and row token. -/
structure RingDecl where
  rows : Nat
  win : List W64
  h : Nat
  bands : List (Nat × Nat)
  height : Nat
  tok : Fin 16 × Fin 64
  deriving DecidableEq, Repr

/-- One task of an image: WCET in µs (06 R224), ARITH_CTRL (02 R67), the waits of 06 R216, the counters and
row tokens it advances (marked FAILED under R227; r_s and r_{s+1} of a token, 03 R97), its ring read tokens with their first lo (03
R101), the live ranges of each yield point (R220: offset and length in units of 64 bytes), the streams it produces or consumes, the
row ring it consumes from, and the descriptors of its sliding-window work (03 R87: input, output, window). -/
structure TaskDecl where
  wcetUs : Nat := 1
  arith : Nat := 0
  backward : Bool := false
  waits : List WaitRef := []
  counters : List (Fin 16 × Fin 64) := []
  tokens : List (Fin 16 × Fin 64 × Nat × Nat) := []
  reads : List (Fin 16 × Fin 64 × Nat) := []
  yields : List (List (Nat × Nat)) := []
  streams : List Nat := []
  ring : Option RingDecl := none
  wins : List (List W64 × List W64 × List W64) := []
  shadow : Bool := false
  deriving DecidableEq, Repr

/-- What firmware learns from an Omsor image's header (13 R442): the manual leaves the format to the toolchain.
`malformed` carries the byte offset of the first malformed item; `srcFails` says a host-window read of the
image delivered no data. -/
structure ImageFacts where
  malformed : Option Nat := none
  srcFails : Bool := false
  siliconRev : Nat := 1
  dynamicShape : Bool := false
  arrival : Bool := false
  atomics : Bool := false
  golden : Option (Nat × Nat × W64) := none
  seed : Nat := 0
  tokenBudget : Nat := 65536
  prefillChunk : Nat := 65536
  maxLive : Nat := 0
  workList : Nat := 0
  tasks : List TaskDecl := []
  graphs : List (Nat × List Nat) := []
  maxOut : List Nat := []
  mirrorSet : List (Nat × Nat) := []
  deriving DecidableEq, Repr

/-- A CSI-2 packet as it arrives on a port (11 R378, R379). `header` is what the header ECC finds. -/
structure CsiPkt where
  dt : Nat
  data : List Byte := []
  header : EccCond := .clean
  crcOk : Bool := true
  ingressDrop : Bool := false
  deriving DecidableEq, Repr

/-- What a delta carries (10 R361): 4 KiB granules of memory, sequence-table entries (slot and the words of 04 R114), Page
Directory entries (PPN and word of 04 R137), the step counter and the plan requests queued (their PLAN_DESC words). -/
structure Delta where
  granules : List (Nat × List Byte) := []
  seqs : List (Nat × List Nat) := []
  pages : List (Nat × Nat) := []
  counter : Nat := 0
  plans : List (List Nat) := []
  deriving DecidableEq, Repr

/-- A message of the Twin Link (10 R353). TIME: heartbeats and timestamps, Lantern decisions, section roots. CONTROL:
forwarded commands and their answers, launch-log entries, PUBLISHED marks, cut steps. MIRROR: deltas and the initial copy,
whose last piece names the step value it is complete up to (R363). -/
inductive TwinMsg where
  | time
  | packageDecision
  | takeoverRequest (part : Fin 16)
  | roots (frame : Nat) (roots : List Nat)
  | signatures (part : Fin 16) (step : Nat) (sigs : List Nat)
  | auth (nonce sig : List Byte)
  | command (op : Nat) (part : Nat) (payload : List Byte)
  | commandAck (op : Nat)
  | launchAt (part : Fin 16) (mbx : Fin 64) (step : Nat) (payload : List Byte)
  | launchAnswer (part : Fin 16) (step : Nat) (status detail : Nat)
  | launchLog (part : Fin 16) (mbx : Fin 64) (op step : Nat) (launch : List Byte)
  | logAck (part : Fin 16) (step : Nat)
  | published (part : Fin 16) (step : Nat)
  | mirrorAck (part : Fin 16) (cut : Nat)
  | delta (part : Fin 16) (step : Nat) (d : Delta)
  | copy (part : Fin 16) (d : Delta) (upTo : Option Nat)
  | nonce (port vc : Fin 16) (n : Nat)
  | idle
  deriving DecidableEq, Repr

/-- A received flit (10 R352): whether its CRC-64 holds, its sequence numbers and, for CONTROL, the message
sequence number of 10 R353. -/
structure Flit where
  crcOk : Bool := true
  cls : Fin 4 := 0
  seq : Nat := 0
  ack : Nat := 0
  msgSeq : Nat := 0
  msg : TwinMsg := .idle
  deriving DecidableEq, Repr

/-- A switched power domain (15 R484). -/
inductive PowerDomain where
  | spireLogic (s : Fin 64)
  | spireStore (s : Fin 64)
  | dome (d : Fin 16)
  | sramBank (b : Fin 16)
  | towerBase (t : Fin 4)
  | ioDie (side : Fin 2) (part : Fin 4)
  | planEngine (e : Fin 2)
  | csiPhy (side : Fin 2)
  deriving DecidableEq, Repr

/-- A rail a supply monitor watches (09 R310, 16 R513). -/
inductive Rail where
  | spire (t : Fin 4)
  | spireIsland (s : Fin 64)
  | base
  | io
  | lantern (l : Fin 2)
  | phy
  | gpio
  | dram
  deriving DecidableEq, Repr

/-- The interface PHYs of an I/O die's side: PCIe, Twin Link, CSI-2, and UCIe, the last of any die (01 R33). -/
inductive PhyKind where
  | pcie
  | twin
  | csi
  | ucie
  deriving DecidableEq, Repr

/-- A clocked island whose clock is monitored (01 R33, 09 R310). -/
inductive Island where
  | spire (s : Fin 64)
  | dome (d : Fin 16)
  | towerBase (t : Fin 4)
  | ioFabric (side : Fin 2)
  | lpddr (ch : Fin 64)
  | cupola (side : Fin 2)
  | lantern (l : Fin 2)
  | phy (side : Fin 2) (kind : PhyKind)
  deriving DecidableEq, Repr

/-- A unit that runs as two compared copies (09 R308), or any configured unit by its source unit number, the parity of a configuration
register of which fails (R309). -/
inductive DupUnit where
  | addrGen (s : Fin 64)
  | domeSched (d : Fin 16)
  | towerSched (t : Fin 4)
  | batchBuilder (side : Fin 2)
  | cupola (side : Fin 2)
  | lantern (l : Fin 2)
  | pairTester (e : Fin 2)
  | nodePool (e : Fin 2)
  | other (src : Nat)
  deriving DecidableEq, Repr

/-- A Tower Link edge (01 R19): Tower t to its clockwise neighbour, or an I/O die to the Tower of its port
Q0 or Q1. -/
inductive Edge where
  | cw (t : Fin 4)
  | io (side : Fin 2) (q : Fin 2)
  deriving DecidableEq, Repr

/-- What a Lantern decides on (09 R313). -/
inductive Report where
  | masked
  | task
  | unitLoss (src : Nat)
  | partition (p : Fin 16)
  | tower (t : Fin 4)
  | package
  deriving DecidableEq, Repr

/-- A unit held in a test window (09 R339). -/
inductive TestUnit where
  | spire (s : Fin 64)
  | dome (d : Fin 16)
  | gather (d : Fin 16)
  | sorter (d : Fin 16)
  | engine (e : Fin 2)
  | csiPort (p : Fin 16)
  | cupola (side : Fin 2)
  | towerMonitor (t : Fin 4)
  deriving DecidableEq, Repr

/-- The atomic operations of 08 R282, and the FP32 addition of R281. -/
inductive AtomicOp where
  | addI32 | minI32 | maxI32 | minF32 | maxF32 | addF32
  deriving DecidableEq, Repr

/-- What a Lantern watches (09 R318). -/
inductive HbSource where
  | towerMonitor (t : Fin 4)
  | cupola (side : Fin 2)
  deriving DecidableEq, Repr

/-- The common command codes a target port supports (12 R430). -/
inductive Ccc where
  | entdaa (addr : Nat)
  | setdasa (static addr : Nat)
  | rstdaa
  | enec (events : Nat)
  | disec (events : Nat)
  | getpid
  | getbcr
  | getdcr
  | getstatus
  | getmwl
  | getmrl
  deriving DecidableEq, Repr

/-- The Dome a Spire belongs to (01 R13). -/
def domeOf (s : Fin 64) : Fin 16 := ⟨s.val / 4, by omega⟩

/-- The Tower a Dome belongs to (01 R13). -/
def towerOf (d : Fin 16) : Fin 4 := ⟨d.val / 4, by omega⟩

/-- The Tower a Spire belongs to (01 R13). -/
def towerOfSpire (s : Fin 64) : Fin 4 := towerOf (domeOf s)

end Sys2Proof
end

