-- ==== Sys2Proof/Syntax.lean ====
section
/-! DEFINITION. The commands of the block: one constructor per row of spec/opcode_table.json, in its order.
A firmware command names the mailbox `m` (or the safety mailbox) it was submitted in, and its payload is in the
State; an event carries what the outside world brings to it (a time `dt` in ns since the previous command, a
reading, a fault of the hardware). -/

namespace Sys2Proof

/-- The commands of the table. -/
inductive Instr where
  /-- HELLO (R439). -/
  | hello (m : Fin 64)
  /-- CAPS_GET (R439). -/
  | capsGet (m : Fin 64)
  /-- MBX_ASSIGN (R422). -/
  | mbxAssign (m : Fin 64)
  /-- PARTITION_CREATE (R202). -/
  | partitionCreate (m : Fin 64)
  /-- PARTITION_DESTROY (R206). -/
  | partitionDestroy (m : Fin 64)
  /-- PARTITION_RESET (R206). -/
  | partitionReset (m : Fin 64)
  /-- PARTITION_SET_SHARE (R214). -/
  | partitionSetShare (m : Fin 64)
  /-- IMAGE_LOAD (R442). -/
  | imageLoad (m : Fin 64) (img : ImageFacts)
  /-- IMAGE_UNLOAD (R443). -/
  | imageUnload (m : Fin 64)
  /-- LAUNCH (R444). -/
  | launch (m : Fin 64)
  /-- LAUNCH_AT (R298). -/
  | launchAt (m : Fin 64)
  /-- TASK_ABORT (R228). -/
  | taskAbort (m : Fin 64)
  /-- SEQ_OPEN (R447). -/
  | seqOpen (m : Fin 64)
  /-- SEQ_CLOSE (R142). -/
  | seqClose (m : Fin 64)
  /-- SEQ_FORK (R140). -/
  | seqFork (m : Fin 64)
  /-- PAGE_TABLE_EDIT (R135). -/
  | pageTableEdit (m : Fin 64)
  /-- SEQ_SWAP_POLICY (R145). -/
  | seqSwapPolicy (m : Fin 64)
  /-- SEQ_SWAP_WATERMARKS (R144). -/
  | seqSwapWatermarks (m : Fin 64)
  /-- STREAM_BIND (R380). -/
  | streamBind (m : Fin 64) (nonce : Nat)
  /-- STREAM_UNBIND (R381). -/
  | streamUnbind (m : Fin 64)
  /-- DISPLAY_BIND (R396). -/
  | displayBind (m : Fin 64)
  /-- WORLD_UPDATE (R165). -/
  | worldUpdate (m : Fin 64)
  /-- PLAN_REQUEST (R176). -/
  | planRequest (m : Fin 64)
  /-- PLAN_CANCEL (R177). -/
  | planCancel (m : Fin 64)
  /-- DET_MODE (R277). -/
  | detMode (m : Fin 64)
  /-- MAJOR_FRAME_US (R207). -/
  | majorFrameUs (m : Fin 64)
  /-- RH_T1 (R261). -/
  | rhT1 (m : Fin 64)
  /-- RH_T2 (R261). -/
  | rhT2 (m : Fin 64)
  /-- DUAL (R331). -/
  | dual (m : Fin 64)
  /-- SELFTEST_ROTATION (R342). -/
  | selftestRotation (m : Fin 64)
  /-- TOWER_RESET (R462). -/
  | towerReset (m : Fin 64)
  /-- WARM_RESET (R451). -/
  | warmReset (m : Fin 64)
  /-- ERRORS_READ (R452). -/
  | errorsRead (src : CmdSrc)
  /-- ERRORS_CLEAR (R347). -/
  | errorsClear (src : CmdSrc)
  /-- SELFTEST_STATUS (R453). -/
  | selftestStatus (src : CmdSrc)
  /-- TWIN_PAIR (R354). -/
  | twinPair (m : Fin 64) (nonce : List Byte)
  /-- TWIN_ROLE (R357). -/
  | twinRole (m : Fin 64) (diff : List Nat) (det : Bool)
  /-- STAND_DOWN (R454). -/
  | standDown (m : Fin 64)
  /-- TWIN_HANDOVER (R370). -/
  | twinHandover (m : Fin 64)
  /-- CONFIG_ROOT_GET (R455). -/
  | configRootGet (src : CmdSrc)
  /-- ATTEST (R456). -/
  | attest (src : CmdSrc)
  /-- LIFECYCLE_ADVANCE (R480). -/
  | lifecycleAdvance (m : Fin 64)
  /-- TIME_SYNC_STEP (R295). -/
  | timeSyncStep (m : Fin 64)
  /-- TIME_SYNC_SLEW (R295). -/
  | timeSyncSlew (m : Fin 64)
  /-- SYNC_SET (R294). -/
  | syncSet (m : Fin 64)
  /-- RESOURCE_CLAIM (R402). -/
  | resourceClaim (m : Fin 64)
  /-- RESOURCE_RELEASE (R402). -/
  | resourceRelease (m : Fin 64)
  /-- ACCOUNTING_READ (R459). -/
  | accountingRead (m : Fin 64)
  /-- THERMAL_POLICY (R507). -/
  | thermalPolicy (m : Fin 64)
  /-- FW_STAGE (R461). -/
  | fwStage (m : Fin 64) (ok : Bool)
  /-- FW_ACTIVATE (R461). -/
  | fwActivate (m : Fin 64)
  /-- MBX_STATE_FILLING (R417). -/
  | mbxStateFilling (m : Fin 64) (ep : Fin 2)
  /-- MBX_STATE_FREE (R417). -/
  | mbxStateFree (m : Fin 64) (ep : Fin 2)
  /-- MBX_GO (R417). -/
  | mbxGo (m : Fin 64) (ep : Fin 2)
  /-- REGISTER_WRITE (R9). -/
  | registerWrite (tgt : RegTarget) (v : W64)
  /-- SQ_PUSH (R271). -/
  | sqPush (q : QueueId) (payload : BitVec 62) (poison : Bool)
  /-- SQ_STALLED_PUSH_ACCEPT (R271). -/
  | sqStalledPushAccept (q : QueueId)
  /-- SQ_POP (R270). -/
  | sqPop (q : QueueId) (wide : Bool) (flip : W64)
  /-- SQ_REFILL_DONE (R270). -/
  | sqRefillDone (q : QueueId) (poison : List Nat)
  /-- SQ_SPILL (R268). -/
  | sqSpill (q : QueueId) (toHead : Bool) (ending : SpillEnd)
  /-- SQ_DROPPED_READ (R272). -/
  | sqDroppedRead (q : QueueId)
  /-- SQ_CTRL_WRITE (R273). -/
  | sqCtrlWrite (q : QueueId) (v : W64)
  /-- SQ_CONFIG_WRITE (R273). -/
  | sqConfigWrite (q : QueueId) (isSize : Bool) (v : W64)
  /-- EVQ_IRQ_WRITE (R425). -/
  | evqIrqWrite (ep : Fin 2) (v : W64)
  /-- EVQ_HOLDOFF_EXPIRY (R425). -/
  | evqHoldoffExpiry
  /-- WIN_CTRL_WRITE (R414). -/
  | winCtrlWrite (ep : Fin 2) (w : Fin 16) (v : W64)
  /-- BAR2_ACCESS (R415). -/
  | bar2Access (ep : Fin 2) (off : Nat) (acc : Access) (conds : List EccCond)
  /-- PCIE_LINK_DOWN (R407). -/
  | pcieLinkDown (ep : Fin 2)
  /-- PCIE_LINK_UP (R274). -/
  | pcieLinkUp (ep : Fin 2)
  /-- PERST (R520). -/
  | perst (ep : Fin 2) (low : Bool)
  /-- FUNCTION_LEVEL_RESET (R406). -/
  | functionLevelReset (ep : Fin 2)
  /-- HOST_READ_COMPLETION (R523). -/
  | hostReadCompletion (ep : Fin 2) (req : Requester) (da : Nat) (st : ReadStatus) (data : List Byte)
  /-- HOST_READ_TIMEOUT (R523). -/
  | hostReadTimeout (ep : Fin 2) (req : Requester) (da : Nat)
  /-- CTC_LOW_READ (R293). -/
  | ctcLowRead (ep : Fin 2)
  /-- SYNC_IN_EDGE (R294). -/
  | syncInEdge (dt : Nat)
  /-- SYNC_MISSED (R294). -/
  | syncMissed
  /-- HOLDOVER (R294). -/
  | holdover
  /-- TWIN_TIME_EXCHANGE (R296). -/
  | twinTimeExchange (offsetPs : Int) (missing : Bool)
  /-- TWIN_VALID_LOSS (R297). -/
  | twinValidLoss
  /-- LAUNCH_AT_START (R298). -/
  | launchAtStart (job : Nat)
  /-- MAJOR_FRAME_START (R207). -/
  | majorFrameStart
  /-- WINDOW_START (R212). -/
  | windowStart (p : Fin 16)
  /-- SLACK_START (R213). -/
  | slackStart
  /-- RECLAIM_LEAD (R211). -/
  | reclaimLead (p : Fin 16)
  /-- GOLDEN_TILE_SLOT (R329). -/
  | goldenTileSlot (p : Fin 16)
  /-- GOLDEN_TILE_SIGNATURE (R330). -/
  | goldenTileSignature (sp : Fin 64) (sig : W64)
  /-- GOLDEN_TILE_SLOT_END (R329). -/
  | goldenTileSlotEnd (p : Fin 16)
  /-- BUDGET_EXHAUSTED (R209). -/
  | budgetExhausted (sp : Fin 64)
  /-- TASK_READY (R216). -/
  | taskReady (job : Nat) (idx : Nat)
  /-- TASK_DISPATCH (R217). -/
  | taskDispatch (sp : Fin 64)
  /-- YIELD_POINT (R221). -/
  | yieldPoint (sp : Fin 64) (y : Nat) (ctx : List Byte) (w : List WaitRef) (dt : Nat)
  /-- SAVE_DONE (R221). -/
  | saveDone (sp : Fin 64) (dt : Nat)
  /-- YIELD_WAIT_TIMEOUT (R221). -/
  | yieldWaitTimeout (sp : Fin 64)
  /-- TASK_END (R217). -/
  | taskEnd (sp : Fin 64) (dt : Nat)
  /-- TASK_OVERRUN (R225). -/
  | taskOverrun (sp : Fin 64)
  /-- OVERRUN_ABORT (R225). -/
  | overrunAbort (sp : Fin 64)
  /-- TILE_COMPLETE (R75). -/
  | tileComplete (sp : Fin 64) (op : TileOp) (faults : TileFaults) (dt : Nat)
  /-- TILE_RETRY_DONE (R78). -/
  | tileRetryDone (sp : Fin 64) (faults : TileFaults) (dt : Nat)
  /-- TASK_FAILOVER (R80). -/
  | taskFailover (sp : Fin 64)
  /-- SPIRE_FLL_RELOCK (R37). -/
  | spireFllRelock (sp : Fin 64)
  /-- ROW_TOKEN_ADVANCE (R97). -/
  | rowTokenAdvance (dome : Fin 16) (t : Fin 64) (b1 : Nat)
  /-- TOKEN_SHADOW_UPDATE (R99). -/
  | tokenShadowUpdate (dome : Fin 16) (src : Fin 16) (t : Fin 64) (v : Nat)
  /-- TOKEN_WAIT_DONE (R98). -/
  | tokenWaitDone (sp : Fin 64)
  /-- RING_READ_TOKEN_ADVANCE (R101). -/
  | ringReadTokenAdvance (dome : Fin 16) (t : Fin 64) (lo : Option Nat) (hi : Nat)
  /-- SORT_REQUEST (R108). -/
  | sortRequest (sp : Fin 64) (da : Nat)
  /-- SORT_START (R103). -/
  | sortStart (dome : Fin 16)
  /-- SORT_DONE (R109). -/
  | sortDone (dome : Fin 16) (mismatch : Bool)
  /-- SORT_REPEAT_DONE (R109). -/
  | sortRepeatDone (dome : Fin 16) (mismatch : Bool)
  /-- GATHER_REQUEST (R121). -/
  | gatherRequest (sp : Fin 64) (desc : List W64) (wf : Fmt) (tensor : Nat)
  /-- GATHER_TILE_WRITTEN (R525). -/
  | gatherTileWritten (dome : Fin 16) (mismatch : Nat)
  /-- GATHER_TILE_RELEASE (R525). -/
  | gatherTileRelease (sp : Fin 64)
  /-- APPEND_WRITE (R125). -/
  | appendWrite (sp : Fin 64) (handle : Nat) (layer : Nat) (pos : Nat) (data : List Byte)
  /-- APPEND_COUNTER_ADVANCE (R126). -/
  | appendCounterAdvance (slot : Fin 4096) (pos : Nat)
  /-- PAGE_WALK_DONE (R128). -/
  | pageWalkDone (dome : Fin 16) (slot : Fin 4096) (vpn : Nat) (parity : Bool)
  /-- TLB_INVALIDATION_ACK (R136). -/
  | tlbInvalidationAck (unit : Fin 20) (slot : Fin 4096)
  /-- STEP_BUILD (R229). -/
  | stepBuild (p : Fin 16) (image : Nat) (phase : Fin 4)
  /-- COPY_ON_WRITE_DONE (R141). -/
  | copyOnWriteDone (slot : Fin 4096)
  /-- STEP_COMPLETE (R113). -/
  | stepComplete (job : Nat)
  /-- SWAP_OUT_COPY_DONE (R148). -/
  | swapOutCopyDone (slot : Fin 4096)
  /-- SWAP_IN_COPY_DONE (R149). -/
  | swapInCopyDone (slot : Fin 4096)
  /-- PLAN_SEARCH_START (R178). -/
  | planSearchStart (v : EngineEvent)
  /-- PROPOSER_BATCH_SEND (R184). -/
  | proposerBatchSend (e : Fin 2)
  /-- PROPOSER_COMPLETE (R183). -/
  | proposerComplete (e : Fin 2) (fault : Bool)
  /-- CANDIDATE_CHECK_DONE (R174). -/
  | candidateCheckDone (e : Fin 2) (otherDiffers : Bool)
  /-- PLAN_DEADLINE (R186). -/
  | planDeadline (e : Fin 2)
  /-- PATH_RECHECK_DONE (R189). -/
  | pathRecheckDone (v : EngineEvent)
  /-- PUBLISH_ROUND (R190). -/
  | publishRound (v : EngineEvent)
  /-- PUBLISH_LOCKED (R190). -/
  | publishLocked (v : EngineEvent)
  /-- RESULT_PUBLISHED (R194). -/
  | resultPublished (e : Fin 2)
  /-- WORLD_UPDATE_APPLY (R165). -/
  | worldUpdateApply (e : Fin 2)
  /-- MEMORY_READ (R238). -/
  | memoryRead (req : Requester) (da : Nat) (n : Nat) (conds : List EccCond)
  /-- MEMORY_WRITE (R239). -/
  | memoryWrite (req : Requester) (da : Nat) (data : List Byte) (conds : List EccCond)
  /-- SRAM_SCRUB (R240). -/
  | sramScrub (bank : Nat) (conds : List EccCond)
  /-- BANK_POWER_UP (R241). -/
  | bankPowerUp (bank : Fin 16)
  /-- DMA_DESCRIPTOR (R245). -/
  | dmaDescriptor (dome : Fin 16) (ch : Fin 4) (words : List W64) (sp : Fin 64)
  /-- DMA_COMPLETE (R246). -/
  | dmaComplete (dome : Fin 16) (ch : Fin 4)
  /-- DRAM_REQUEST_ISSUE (R253). -/
  | dramRequestIssue (ch : Fin 64) (cond : EccCond) (link : LinkErr)
  /-- REFRESH_INTERVAL (R256). -/
  | refreshInterval (ch : Fin 64)
  /-- FORCED_REFAB (R257). -/
  | forcedRefab (ch : Fin 64)
  /-- MR4_READ (R256). -/
  | mr4Read (ch : Fin 64) (rate : Fin 4)
  /-- LINK_ECC_COUNT_READ (R266). -/
  | linkEccCountRead (ch : Fin 64) (n : Nat)
  /-- RH_WINDOW_START (R258). -/
  | rhWindowStart
  /-- CREDIT_REFILL (R263). -/
  | creditRefill
  /-- DRAM_PATROL_SCRUB (R267). -/
  | dramPatrolScrub (ch : Fin 64) (cond : EccCond)
  /-- DET_REDUCTION (R280). -/
  | detReduction (src : DetSource) (out : Nat) (n : Nat)
  /-- ARRIVAL_ORDER_ADD (R281). -/
  | arrivalOrderAdd (sp : Fin 64) (da : Nat) (v : W32)
  /-- ATOMIC_OP (R282). -/
  | atomicOp (req : Requester) (op : AtomicOp) (da : Nat) (v : W32)
  /-- SUPPLY_EXCURSION (R310). -/
  | supplyExcursion (rail : Rail)
  /-- CLOCK_MONITOR_WINDOW (R310). -/
  | clockMonitorWindow (isl : Island) (count : Nat)
  /-- TOWER_MONITOR_HEARTBEAT (R318). -/
  | towerMonitorHeartbeat (t : Fin 4) (l : Fin 2) (ok : Bool)
  /-- CUPOLA_HEARTBEAT (R318). -/
  | cupolaHeartbeat (side : Fin 2) (l : Fin 2) (ok : Bool)
  /-- HB_LOST (R318). -/
  | hbLost (src : HbSource) (l : Fin 2)
  /-- CROSS_WATCH_SEND (R319). -/
  | crossWatchSend (l : Fin 2)
  /-- CROSS_WATCH_FRAME (R320). -/
  | crossWatchFrame (l : Fin 2) (ok : Bool) (level : Fin 6)
  /-- PEER_SILENT (R319). -/
  | peerSilent (l : Fin 2)
  /-- LANTERN_DECISION (R320). -/
  | lanternDecision (l : Fin 2) (rep : Report)
  /-- LOCKSTEP_MISMATCH (R308). -/
  | lockstepMismatch (unit : DupUnit) (cfgParity : Bool)
  /-- CUPOLA_TAKEOVER (R321). -/
  | cupolaTakeover
  /-- DUAL_SIGNATURE (R335). -/
  | dualSignature (job : Nat) (shadow : Bool) (sigs : List Nat)
  /-- DUAL_ARBITRATION (R337). -/
  | dualArbitration (p : Fin 16) (bad : List Nat)
  /-- SELFTEST_SLOT (R338). -/
  | selftestSlot (fails : List Nat)
  /-- CONFIG_AUDIT (R376). -/
  | configAudit (l : Fin 2) (leafOk : Bool) (rootOk : Bool)
  /-- TWIN_ROOT_COMPARE (R377). -/
  | twinRootCompare (port : Fin 2) (frame : Nat) (roots : List Nat) (diff : List Nat)
  /-- TOWER_LINK_CRC_RETRY (R21). -/
  | towerLinkCrcRetry (e : Edge)
  /-- LANE_FAILURE (R22). -/
  | laneFailure (e : Edge) (mdl : Fin 4) (repaired : Bool)
  /-- TWIN_FLIT_RECEIVE (R352). -/
  | twinFlitReceive (port : Fin 2) (f : Flit)
  /-- TWIN_IDLE_FLIT (R352). -/
  | twinIdleFlit (port : Fin 2)
  /-- TWIN_PORT_DOWN (R353). -/
  | twinPortDown (port : Fin 2) (split : Bool)
  /-- PAIRING_AUTH (R355). -/
  | pairingAuth (nonce : List Byte) (sig : List Byte) (vmin : Nat) (vmax : Nat)
  /-- TWIN_PAIR_TIMEOUT (R454). -/
  | twinPairTimeout
  /-- LAUNCH_LOG_ACK (R359). -/
  | launchLogAck (p : Fin 16) (step : Nat)
  /-- LAUNCH_LOG_TIMEOUT (R359). -/
  | launchLogTimeout (p : Fin 16)
  /-- SHARED_CONFIG_APPLY (R360). -/
  | sharedConfigApply (imgs : List ImageFacts)
  /-- MIRROR_ACK (R362). -/
  | mirrorAck (p : Fin 16) (cut : Nat)
  /-- PUBLISHED_MARK (R364). -/
  | publishedMark (p : Fin 16) (step : Nat)
  /-- TAKEOVER (R366). -/
  | takeover (mask : BitVec 16)
  /-- TAKEOVER_RERUN_DONE (R366). -/
  | takeoverRerunDone (job : Nat)
  /-- TWIN_LAUNCH_AT_FORWARD (R299). -/
  | twinLaunchAtForward (m : Fin 64) (p : Fin 16) (step : Nat) (payload : List Byte) (late : Bool)
  /-- TWIN_LAUNCH_AT_TIMEOUT (R299). -/
  | twinLaunchAtTimeout (m : Fin 64)
  /-- DUAL_COMPARE_SIGNATURES (R358). -/
  | dualCompareSignatures (job : Nat) (sigs : Option (List Nat))
  /-- CSI_FRAME_START (R382). -/
  | csiFrameStart (port : Fin 16) (vc : Fin 16) (n : Nat)
  /-- CSI_PACKET (R379). -/
  | csiPacket (port : Fin 16) (vc : Fin 16) (pkt : CsiPkt) (nonce : Nat)
  /-- RESPONSE_VERIFIED (R392). -/
  | responseVerified (port : Fin 16) (vc : Fin 16)
  /-- REAUTH_CHALLENGE (R391). -/
  | reauthChallenge (port : Fin 16) (vc : Fin 16) (nonce : Nat)
  /-- CHALLENGE_NONCE_RECEIVE (R395). -/
  | challengeNonceReceive (port : Fin 16) (vc : Fin 16) (nonce : Nat)
  /-- CSI_FRAME_END (R385). -/
  | csiFrameEnd (port : Fin 16) (vc : Fin 16)
  /-- STREAM_SILENT (R386). -/
  | streamSilent (port : Fin 16) (vc : Fin 16)
  /-- DISPLAY_FRAME_START (R400). -/
  | displayFrameStart (port : Fin 4)
  /-- DISPLAY_LINE_SEND (R399). -/
  | displayLineSend (port : Fin 4) (late : List (Nat × Nat))
  /-- LAYER_DISABLED (R399). -/
  | layerDisabled (port : Fin 4) (layer : Fin 4)
  /-- LOOPBACK_TEST_DONE (R401). -/
  | loopbackTestDone (fails : List Nat)
  /-- I3C_HANDOFF_ACCEPTED (R404). -/
  | i3cHandoffAccepted (ok : Bool)
  /-- CAM_SB_BULK_EXPIRY (R404). -/
  | camSbBulkExpiry
  /-- I3C_ROLE_RETURN (R404). -/
  | i3cRoleReturn (nonces : List Nat)
  /-- I3C_ROLE_REQUEST_RETRY (R404). -/
  | i3cRoleRequestRetry
  /-- I3C_PRIVATE_WRITE (R431). -/
  | i3cPrivateWrite (l : Fin 2) (recovery : Bool) (data : List Byte)
  /-- I3C_PRIVATE_READ (R431). -/
  | i3cPrivateRead (l : Fin 2) (recovery : Bool) (n : Nat)
  /-- I3C_CCC (R430). -/
  | i3cCcc (l : Fin 2) (code : Ccc)
  /-- RCV_DATA (R476). -/
  | rcvData (l : Fin 2) (b : Byte)
  /-- RCV_GO (R476). -/
  | rcvGo (l : Fin 2)
  /-- RECOVERY_VERIFY_DONE (R476). -/
  | recoveryVerifyDone
  /-- POWER_ON (R514). -/
  | powerOn
  /-- POWER_LOSS (R516). -/
  | powerLoss
  /-- RESET_IN_N_PULSE (R520). -/
  | resetInNPulse (ns : Nat)
  /-- DELAYED_WARM_RESET (R462). -/
  | delayedWarmReset
  /-- PKG_IDENT_CHECK (R29). -/
  | pkgIdentCheck (words : List Nat) (hears : LanternsHear)
  /-- TOWER_RESET_DONE (R463). -/
  | towerResetDone (t : Fin 4) (words : List Nat) (hears : LanternsHear) (fails : List Nat)
  /-- DRAM_WIPE_DONE (R465). -/
  | dramWipeDone
  /-- BOOT_GO (R473). -/
  | bootGo (ep : Fin 2)
  /-- IMAGE_FETCH_DONE (R472). -/
  | imageFetchDone (ok : Bool)
  /-- NO_IMAGE (R469). -/
  | noImage
  /-- FETCH_TIMEOUT (R469). -/
  | fetchTimeout
  /-- LANTERN_SECTION_CHECK (R467). -/
  | lanternSectionCheck (l : Fin 2) (ok : Bool)
  /-- UNIT_INIT_DONE (R341). -/
  | unitInitDone (fails : List Nat)
  /-- LMP_READY (R465). -/
  | lmpReady
  /-- ENTROPY_HEALTH_FAIL (R479). -/
  | entropyHealthFail (side : Fin 2)
  /-- SENSOR_READ (R490). -/
  | sensorRead (spot : Fin 36) (a : Option Int) (b : Option Int)
  /-- SENSOR_FAULT_PERSIST (R491). -/
  | sensorFaultPersist (spot : Fin 36)
  /-- THERMAL_CEILING_UPDATE (R492). -/
  | thermalCeilingUpdate (t : Fin 4)
  /-- BASE_DIE_OVERHEAT (R493). -/
  | baseDieOverheat (t : Fin 4)
  /-- THERMAL_TRIP (R494). -/
  | thermalTrip (t : Fin 4) (spot : Fin 8)
  /-- AVS_VOLTAGE_CONFIRMED (R487). -/
  | avsVoltageConfirmed (t : Fin 4) (mv : Nat)
  /-- AVS_CURRENT_READ (R487). -/
  | avsCurrentRead (t : Fin 4) (ma : Nat)
  /-- REGULATOR_NO_ANSWER (R487). -/
  | regulatorNoAnswer (t : Fin 4)
  /-- HUB_SAMPLE_READ (R497). -/
  | hubSampleRead (ok : Bool) (words : List Byte) (pmeas : Nat)
  /-- HUB_SILENT (R497). -/
  | hubSilent
  /-- HEAT_BALANCE_WINDOW (R498). -/
  | heatBalanceWindow (pMeas : Nat)
  /-- TOWERS_OFF (R504). -/
  | towersOff
  /-- LIFE (R505). -/
  | life
  /-- POWER_DOMAIN_SWITCH (R485). -/
  | powerDomainSwitch (dom : PowerDomain) (on : Bool)
  /-- PARTITION_ZEROING_DONE (R206). -/
  | partitionZeroingDone (p : Fin 16)
  /-- LANT_HB_TOGGLE (R322). -/
  | lantHbToggle (l : Fin 2)
  /-- FRAME_MARK_END (R521). -/
  | frameMarkEnd
  /-- REFERENCE_CLOCK_LOSS (R313). -/
  | referenceClockLoss
  /-- D3HOT (R407). -/
  | d3hot (ep : Fin 2) (on : Bool)
  /-- HOT_JOIN (R430). -/
  | hotJoin (side : Fin 2)
  /-- TEST_WINDOW (R339). -/
  | testWindow (unit : TestUnit) (opens : Bool)
  deriving DecidableEq, Repr

end Sys2Proof
end

