-- ==== Sys2Proof/Config.lean ====
section
/-! DEFINITION. What the manual leaves to an implementation or outside itself: constants and functions without a
body, so that no proof can see their values. -/

namespace Sys2Proof

/-- A value the manual leaves open: the n-th one drawn in a run (log 4). -/
opaque Config.freeValue : Nat → W64

/-- The result bits of the vector functions of 02 R71 on the inputs whose result R71 only bounds: function number
(exp, log, reciprocal, reciprocal square root, tanh, GELU from 0) and FP32 input. -/
opaque Config.vecResult : Nat → W32 → W32

/-- DESIGN_REV of each die (01 R28). -/
opaque Config.dieRev : Nat → Nat

/-- tREFI in ns at a refresh rate that MR4 reports (07 R256), which the manual leaves to JEDEC. -/
opaque Config.tRefi : Nat → Nat

/-- Where firmware finds a unit's registers in unit control space (01 R40; 04 R114; 07 R272; 08 R293): the sequence table, the CTC
registers of an I/O die, the register block of a Spill Queue. The manual gives no offsets. -/
opaque Config.seqTableDa : Nat
opaque Config.ctcDa : Nat → Nat
opaque Config.spillQueueDa : Nat → Nat

/-- The bytes a FULL sort leaves in its scratch (03 R102), by operation and place, which the manual leaves open. -/
opaque Config.scratchByte : Nat → Nat → Byte

/-- Twice the cycles of a PHY's clock in 5 µs at the frequency its standard sets (01 R33), by I/O die and kind: the standards are outside
the manual. -/
opaque Config.phyCycles : Nat → Nat → Nat

/-- The RAA count at which the LPDDR5X devices require an RFM (07 R262): the manual leaves it to JEDEC. -/
opaque Config.raaLimit : Nat

/-- The checker's verdict that a pose and a primitive touch (05 R170, R171), where the manual's bounds do not decide it: the
toolchain's reference model is outside the manual. The argument lists every value the verdict may depend on. -/
opaque Config.touch : List Nat → Bool

/-- DEV_ID0.PKG_REV and DEV_ID0.SILICON_REV (12 R410), 8 bits each. -/
opaque Config.pkgRev : BitVec 8
opaque Config.siliconRev : BitVec 8

/-- The registers that hold a unit's configuration of a section (10 R373, R374), each with its offset, when the section's
settings are these: the manual lists no register of a unit's configuration. Empty where the unit holds none. -/
opaque Config.cfgRegs : Nat → Nat → List Nat → List (Nat × Nat)

/-- What a Lantern's target port answers to GETPID, GETBCR, GETDCR, GETSTATUS, GETMWL and GETMRL (12 R430), by Lantern and by
the command's place in this list: the manual gives no value. -/
opaque Config.i3cReg : Nat → Nat → Nat

/-- The fused voltage of a Tower's clock step in µV (15 R486), and a Spire's highest fused step (R495). -/
opaque Config.vFuse : Nat → Nat → Nat
opaque Config.fusedStep : Nat → Nat

/-- Zwifort's public keys in the ROMs (14 R480): manufacturing, provisioning, return. -/
opaque Config.zwifortKey : Nat → List Byte

end Sys2Proof
end

