-- ==== Sys2Proof/Machine/Table.lean ====
section
/-! DEFINITION. Tables of values by number, in one canonical form: keys strictly rising, no entry that holds what
an unlisted key reads as. Every table of State, and memory itself, is held so, so that equal contents are equal
data. -/

namespace Sys2Proof.Machine

/-- A table: what each listed number holds. -/
abbrev Tab (α : Type) := List (Nat × α)

/-- What a number holds; `d` where it is not listed. -/
def tget {α : Type} (d : α) : Tab α → Nat → α
  | [], _ => d
  | (k, v) :: t, i => if i = k then v else if i < k then d else tget d t i

/-- The table with one number's value replaced, in canonical form. -/
def tput {α : Type} [DecidableEq α] (d : α) : Tab α → Nat → α → Tab α
  | [], i, x => if x = d then [] else [(i, x)]
  | (k, v) :: t, i, x =>
    if i < k then (if x = d then (k, v) :: t else (i, x) :: (k, v) :: t)
    else if i = k then (if x = d then t else (i, x) :: t)
    else (k, v) :: tput d t i x

/-- Change one number's value. -/
def tmod {α : Type} [DecidableEq α] (d : α) (t : Tab α) (i : Nat) (f : α → α) : Tab α := tput d t i (f (tget d t i))

/-- Change every listed value. -/
def tabMap {α : Type} [DecidableEq α] (d : α) (f : α → α) (t : Tab α) : Tab α :=
  (t.map fun x => (x.1, f x.2)).filter fun x => decide (x.2 ≠ d)

/-- The canonical form: keys above `lo`, strictly rising, no entry equal to `d`. -/
def tabWfFrom {α : Type} [DecidableEq α] (d : α) : Nat → Tab α → Bool
  | _, [] => true
  | lo, (k, v) :: t => decide (lo ≤ k) && decide (v ≠ d) && tabWfFrom d (k + 1) t

/-- The canonical form of a table. -/
def tabWf {α : Type} [DecidableEq α] (d : α) (t : Tab α) : Bool := tabWfFrom d 0 t

/-- The least number below `n` that meets `p`. -/
def findLow (p : Nat → Bool) : Nat → Nat → Option Nat
  | 0, _ => none
  | n + 1, i => if p i then some i else findLow p n (i + 1)

/-- The numbers below `n` that meet `p`, rising. -/
def filterLow (p : Nat → Bool) (n : Nat) : List Nat := (List.range n).filter p

/-- What an unlisted address of memory reads as (14 R464: wiped; log 3). -/
def memDefault : Byte := 0

/-- One byte of memory. -/
def memByte (m : List Host.Cell) (a : Nat) : Byte := tget memDefault m a

/-- Store one byte. -/
def memSet (m : List Host.Cell) (a : Nat) (b : Byte) : List Host.Cell := tput memDefault m a b

/-- `n` bytes from an address. -/
def memBytes (m : List Host.Cell) (a n : Nat) : List Byte := (List.range n).map fun i => memByte m (a + i)

/-- Store bytes at an address. -/
def memStore (m : List Host.Cell) (a : Nat) : List Byte → List Host.Cell
  | [] => m
  | b :: t => memStore (memSet m a b) (a + 1) t

/-- Make every byte of a range read zero (14 R464). -/
def memZero (m : List Host.Cell) (a n : Nat) : List Host.Cell := m.filter fun c => decide (c.1 < a) || decide (a + n ≤ c.1)

/-- A little-endian number of `n` bytes in memory (00 R8). -/
def memNat (m : List Host.Cell) (a n : Nat) : Nat := leNat (memBytes m a n)

/-- The canonical form of memory. -/
def Memory.wf (m : List Host.Cell) : Bool := tabWf memDefault m

end Sys2Proof.Machine
end

