-- ==== Sys2Proof/Machine/State.lean ====
section
/-! DEFINITION. The state of the block: everything the manual gives the package, as plain data. -/

namespace Sys2Proof.Machine

/-- Why a command ends the machine. No meaning of this model raises one: an access to an address that does not
exist is refused by the unit and recorded (01 R39), and the block goes on. -/
inductive Fault where
  /-- Raised by no command. Safe. -/
  | none
  deriving DecidableEq, Repr

/-- Why a command has no meaning. -/
inductive Refusal where
  /-- Raised by the dispatch for a command not modelled yet. Safe: the run stops. -/
  | notModelled (mnemonic : String)
  deriving DecidableEq, Repr

/-- The Chip Time Counter and its discipline (08 R292 to R297). `elapsed` counts ns since the release of the last
power-on or warm reset and no step moves it. `frac` holds the part of a ns, in 10⁻⁹ ns, that the rate has gathered, `slew`
what is left of a slew in the same unit, `base` the rate that holds when no slew runs, `slewed` that a TIME_SYNC slew was
made. `lastEdge` is the elapsed time of the last SYNC_IN edge; PERIOD 0 stands for none set. -/
structure Clock where
  ctc : Nat := 0
  elapsed : Nat := 0
  frac : Int := 0
  rate : Int := 0
  base : Int := 0
  slew : Int := 0
  slewed : Bool := false
  syncFar : Bool := false
  syncMissed : Bool := false
  twinValid : Bool := false
  syncLocked : Bool := false
  holdover : Bool := false
  syncLatch : Nat := 0
  syncErr : Int := 0
  twinOffset : Int := 0
  periodMs : Nat := 0
  offsetNs : Nat := 0
  goodEdges : Nat := 0
  lastEdge : Option Nat := none
  goodExch : Nat := 0
  missExch : Nat := 0
  align : Bool := false
  latch : Tab (Option Nat) := []
  deriving DecidableEq, Repr, Inhabited

/-- A sticky error record (09 R344, R345). SOURCE is its number in the table. -/
structure Rec where
  sticky : W64 := 0
  gen : Nat := 0
  level : Nat := 0
  count : Nat := 0
  firstCtc : Nat := 0
  lastCtc : Nat := 0
  firstBit : Nat := 0
  firstDetail : Nat := 0
  firstAddr : Nat := 0
  lastBit : Nat := 0
  lastDetail : Nat := 0
  lastAddr : Nat := 0
  tagPartition : Nat := 0
  tagSource : Nat := 0
  masked : Nat := 0
  seq : Nat := 0
  deriving DecidableEq, Repr, Inhabited

/-- The record files of the dies, the Lanterns' mirrors and the record sequence number (09 R346, R348). -/
structure Records where
  file : Tab Rec := []
  mirrorA : Tab Rec := []
  mirrorB : Tab Rec := []
  seq : Nat := 0
  deriving DecidableEq, Repr, Inhabited

/-- A Spill Queue (07 R268 to R276). Words are held as R269 holds them, parity in bit 63; a head word also says whether its
backing read was poisoned. `mid` is what the backing
ring holds, `spilled` how many words have entered it. `stalled` are the words of producers that wait, `popWait` the pops that wait for a refill, `via` the endpoint of a
ring in host memory (R274). -/
structure SpillQ where
  enable : Bool := false
  drop : Bool := false
  base : Nat := 0
  size : Nat := 0
  overflow : Bool := false
  parity : Bool := false
  spillPoison : Bool := false
  spillFault : Bool := false
  cfgReject : Bool := false
  dropped : Nat := 0
  head : List (W64 × Bool) := []
  mid : List W64 := []
  spilled : Nat := 0
  tail : List W64 := []
  stalled : List W64 := []
  popWait : Nat := 0
  linkLost : Bool := false
  lost : Nat := 0
  via : Nat := 0
  deriving DecidableEq, Repr, Inhabited

/-- EVQ_IRQ and the Event Queue's interrupt (12 R423, R425). `holdoffAt` is when a running holdoff ends. -/
structure EvqIrq where
  armed : Bool := true
  holdoffUs : Nat := 0
  threshold : Nat := 1
  ep : Nat := 0
  holdoffAt : Option Nat := none
  deriving DecidableEq, Repr, Inhabited

/-- What a BUSY mailbox waits for (13 R438). -/
inductive Wait where
  | seqClose (slot : Nat)
  | fork (parent child : Nat)
  | edit (slot : Nat)
  | editLate (slot : Nat)
  | streamBind (key : Nat)
  | streamUnbind (key : Nat)
  | displayBind (port : Nat)
  | zero (p : Nat)
  | pair
  | handover (mask : Nat)
  | launchLog (p step : Nat) (out : List Byte)
  | launchTwin (p step : Nat)
  | shared
  | towerReset (t : Nat)
  | i3cHandoff
  | world (epoch : Nat)
  deriving DecidableEq, Repr

/-- A mailbox (12 R416). `hdr` is MBX_HDR, `status` MBX_STATUS, `goEp` the endpoint GO came through, `version` the
negotiated version. Mailbox 0 reads PARTITION 0. `weight` and `vt` are the client's of 06 R217. -/
structure Mailbox where
  gen : Nat := 0
  partition : Nat := 0xFF
  ignored : Bool := false
  st : Nat := 0
  hdr : W64 := 0
  status : W64 := 0
  payload : List Host.Cell := []
  goEp : Nat := 0
  version : Option Nat := none
  wait : Option Wait := none
  weight : Nat := 1
  vt : Nat := 0
  deriving DecidableEq, Repr, Inhabited

/-- A PCIe endpoint (12 R406, R407, R413): link, power state, BAR2 windows, the MSI-X table and pending bits. -/
structure Endpoint where
  linkUp : Bool := false
  d3hot : Bool := false
  perst : Bool := false
  winBase : Tab Nat := []
  winCtrl : Tab W64 := []
  reject : BitVec 16 := 0
  msix : List Host.Cell := []
  deriving DecidableEq, Repr, Inhabited

/-- A fault record of a safety mailbox (12 R431). -/
structure FaultRec where
  seq : Nat
  source : Nat
  bit : Nat
  detail : Nat
  level : Nat
  ctc : Nat
  deriving DecidableEq, Repr, Inhabited

/-- A Lantern's I3C target port and safety mailbox (12 R430, R431). `cmd` holds bytes 0x60 to 0x7F. -/
structure I3cTarget where
  offset : Nat := 0
  dynAddr : Option Nat := none
  events : Nat := 1
  cmd : List Host.Cell := []
  rspHdr : W64 := 0
  rsp : List Byte := []
  faults : List FaultRec := []
  ctcLatch : Nat := 0
  ibis : Nat := 0
  lastIbi : Nat := 0
  deriving DecidableEq, Repr, Inhabited

/-- What the last read the block answered gave: its bytes, whether poisoned, whether it was refused. -/
structure ReadOut where
  data : List Byte := []
  poison : Bool := false
  refused : Bool := false
  deriving DecidableEq, Repr, Inhabited

/-- The host's side of the block: mailboxes and the one last taken (12 R419), endpoints, the interrupts sent (newest
first: endpoint, vector), the safety mailboxes, and the last answer to a read. -/
structure HostSide where
  mbx : Tab Mailbox := []
  last : Nat := 63
  eps : Tab Endpoint := []
  irq : EvqIrq := {}
  msixSent : List (Nat × Nat) := []
  sm : Tab I3cTarget := []
  ctlTargets : Tab Nat := []
  read : ReadOut := {}
  deriving DecidableEq, Repr, Inhabited

/-- A run of a task: its job, its number there, and which of its runs; a failover or a rerun begins the next (02 R81, 04 R113). -/
abbrev TaskId := Nat × Nat × Nat

/-- A die on the Tower Link: a Tower's base die, or an I/O die (0 West, 1 East) (01 R18). -/
inductive Die where
  | tower (t : Nat) | io (side : Nat)
  deriving DecidableEq, Repr

/-- On whose behalf an access is made: the requester tag's partition and source unit (07 R258), the die it leaves from (01 R20), the
task it acts for, the client whose record takes its bytes (06 R232), and whether poisoned data ends in a memory fault (07 R242). -/
structure Origin where
  part : Nat := 0
  source : Nat := 0
  die : Die := .tower 0
  task : Option TaskId := none
  client : Option Nat := none
  faults : Bool := true
  deriving DecidableEq, Repr

/-- A line request at a DRAM channel controller (07 R253): channel data address and device address of the line, whether it writes
and only a part of the line, who asks, when it was made, and its place in the order of arrival (R254). -/
structure DramReq where
  line : Nat := 0
  write : Bool := false
  partial_ : Bool := false
  by_ : Origin := {}
  at_ : Nat := 0
  da : Nat := 0
  no : Nat := 0
  deriving DecidableEq, Repr

/-- A DRAM channel controller (07 R253 to R267). `rwait` and `wwait` are requests for which the queue had no room, `arr` numbers
arrivals, `rows` holds the open row of a bank plus 1, `owed` the banks still owed a REFpb in the round, `refAt` the start of the
next tREFI, `hot` a bank's hot-row table in entry order, `credit` buckets in 1/256 line, `checks` the check cache by check line
(newest first), `lastThrottled` who last throttled a bank and when (R260), `rrNext` the partition whose turn it is out of credit (R263), `dark` the uncorrectable lines that no device address names now. -/
structure Chan where
  rq : List DramReq := []
  wq : List DramReq := []
  rwait : List DramReq := []
  wwait : List DramReq := []
  arr : Nat := 0
  drain : Bool := false
  refAt : Nat := 0
  dark : List Nat := []
  rows : Tab Nat := []
  debt : Nat := 0
  owed : BitVec 16 := 0xFFFF
  rate : Nat := 0
  hot : Tab (List (Nat × Nat)) := []
  raa : Tab Nat := []
  throttled : List (Nat × Nat × Nat) := []
  lastThrottled : List (Nat × Nat × Nat × Nat) := []
  credit : Tab Nat := []
  rrNext : Nat := 0
  linkReads : Nat := 0
  linkWrites : Nat := 0
  scrub : Nat := 0
  checks : List Nat := []
  rfms : Nat := 0
  reads : Nat := 0
  deriving DecidableEq, Repr, Inhabited

/-- A DMA descriptor with the Spire, partition and task that issued it (07 R244, R245). -/
structure DmaJob where
  ws : List W64 := []
  sp : Nat := 0
  part : Nat := 0
  task : Option TaskId := none
  deriving DecidableEq, Repr, Inhabited

/-- A DMA channel of a Dome (07 R244 to R246; 01 R15): descriptors waiting, the one running, the Spire of the Dome the channel was
last granted to. -/
structure Dma where
  queue : List DmaJob := []
  running : Option DmaJob := none
  last : Nat := 3
  deriving DecidableEq, Repr, Inhabited

/-- Memory: the bytes of the device address space that read other than 0, the words and lines that are
uncorrectable (by DA / 8), Tower SRAM banks without power, scrubber places, the DRAM layout of 01 R43, channels, DMA channels (key 4 * dome + channel), Tower Link egress buckets (07 R265), the row thresholds in
force and next (07 R261), when the next row-disturbance window starts and when this one began, when credits fill next,
DRAM pages marked for retirement (04 R143), and the 4 KiB
granules written since they were last sent to the twin partner (10 R361). -/
structure MemSys where
  bytes : List Host.Cell := []
  bad : Tab Bool := []
  bankOff : Tab Bool := []
  scrub : Tab Nat := []
  local_ : Tab Nat := []
  chans : Tab Chan := []
  dma : Tab Dma := []
  egress : Tab (Tab Nat) := []
  t1 : Nat := 2000
  t2 : Nat := 4000
  nextT1 : Nat := 2000
  nextT2 : Nat := 4000
  rhNext : Nat := 0
  rhBegan : Nat := 0
  creditAt : Nat := 0
  retire : Tab Bool := []
  dirty : Tab Bool := []
  deriving DecidableEq, Repr, Inhabited

/-- An accounting record (06 R233): counters, histogram buckets and the CTC of the last clear. -/
structure Acct where
  engine : Nat := 0
  dram : Nat := 0
  waitSum : Nat := 0
  waitMax : Nat := 0
  preempts : Nat := 0
  launches : Nat := 0
  overruns : Nat := 0
  failed : Nat := 0
  hist : Tab Nat := []
  since : Nat := 0
  deriving DecidableEq, Repr, Inhabited

/-- A partition's DUAL configuration and its disagreements (09 R331, R336): frames (by number) with one, and whether an
arbitration is due (R337). -/
structure DualCfg where
  mode : Nat := 0
  shadow : BitVec 16 := 0
  flag : Bool := false
  k : Nat := 2
  n : Nat := 16
  frames : List Nat := []
  arb : Bool := false
  deriving DecidableEq, Repr, Inhabited

/-- A loaded image: where it lies, its measurement and what its header declares (13 R442). -/
structure Image where
  dest : Nat
  bytes : Nat
  meas : List Byte
  facts : ImageFacts
  deriving DecidableEq, Repr

/-- A partition's Golden Tile (09 R328): image, task, GT_US and expected signature. -/
structure Golden where
  image : Nat
  task : Nat
  gtUs : Nat
  sig : W64
  deriving DecidableEq, Repr

/-- A partition (06 R201 to R206). `causes` are the causes that hold it SUSPENDED (R205): bit 0 Survival, 1 power
throttling, 2 standby copy, 3 STAND_DOWN, 4 handover. `ending` is 0 while it runs, 3 RESETTING, 4 DESTROYING. `ceil`
is the clock ceiling of power throttling (15 R500), `twin` its mirrored state (10 R359). -/
structure Partition where
  live : Bool := false
  cls : Nat := 0
  priv : Bool := false
  strict : Bool := false
  dmaList : Bool := false
  report : Bool := false
  role : Nat := 0
  domes : BitVec 16 := 0
  budgetUs : Nat := 0
  nextBudget : Option Nat := none
  share : Nat := 1
  storeMib : Nat := 0
  storeOff : Nat := 0
  credit : Nat := 0
  seqQuota : Nat := 0
  maxLaunches : Nat := 1
  regions : List (Nat × Nat) := []
  kvDa : Nat := 0
  kvBytes : Nat := 0
  swapDa : Nat := 0
  swapBytes : Nat := 0
  saveDa : Nat := 0
  saveBytes : Nat := 768
  saveSlots : Nat := 1
  lowWm : Nat := 0
  highWm : Nat := 0
  degraded : Bool := false
  causes : BitVec 8 := 0
  ending : Nat := 0
  step : Nat := 0
  vt : Nat := 0
  images : Tab (Option Image) := []
  golden : Option Golden := none
  dual : DualCfg := {}
  slots : Tab Bool := []
  throttlePosted : Bool := false
  acct : Acct := {}
  ceil : Nat := 16
  protect : Bool := false
  swapUsed : Tab Bool := []
  deriving DecidableEq, Repr, Inhabited

/-- How far a task is: what R216, R221 and R226 tell apart. -/
inductive TaskPhase where
  | waiting | ready | running | saving | saved | failover | done | failed
  deriving DecidableEq, Repr, Inhabited

/-- A task of a job (06 R216, R222 to R225). `charge` is charged time in 1/16 ns at 1 GHz, `since` the
elapsed time it is charged up to, `readyAt` of its becoming ready, `waitSince` when
a wait at a yield point began, `tiles` the tiles written in this run and `counted` those whose elements are counted (so that a rerun counts none twice, 02 R69). `index` is its
number within the image, `run` counts its runs, `band` is the row its bands have reached in this run (03 R97), `lent` the charge it ran up on borrowed Spires, `lentWcet` that its WCET
was charged to the partition (R213). -/
structure TaskSt where
  decl : TaskDecl := {}
  phase : TaskPhase := .waiting
  spire : Nat := 0
  started : Bool := false
  slot : Nat := 0
  charge : Nat := 0
  retry : Nat := 0
  overran : Bool := false
  readyAt : Nat := 0
  yield_ : Nat := 0
  ctx : List Byte := []
  arith : W32 := 0
  waitSince : Option Nat := none
  tiles : Nat := 0
  counted : Nat := 0
  since : Nat := 0
  yWaits : List WaitRef := []
  borrowed : Bool := false
  index : Nat := 0
  run : Nat := 0
  band : Nat := 0
  lent : Nat := 0
  lentWcet : Bool := false
  deriving DecidableEq, Repr, Inhabited

/-- What a job is: a launch, a step launch that waits for its tokens, a step the Batch Builder built, or a proposer
run of a Planning Engine (05 R184). -/
inductive JobKind where
  | launch | stepLaunch | step | proposer
  deriving DecidableEq, Repr, Inhabited

/-- A sequence's wanted tokens of a step launch (06 R528), or its part in a step (R231). -/
structure Want where
  handle : Nat
  tokens : Nat
  l0 : Nat := 0
  row : Nat := 0
  deriving DecidableEq, Repr, Inhabited

/-- A job. `cause` is set once (06 R226, codes of 13 R445). `wants` are the tokens of a step launch still wanted, or
the entries of a step. `phase` is a step's, `shares` the tokens it serves of each step launch (06 R232). DUAL: signatures of the two instances and which are compared. -/
structure Job where
  live : Bool := false
  kind : JobKind := .launch
  part : Nat := 0
  mbx : Nat := 0
  tag : Nat := 0
  gen : Nat := 0
  image : Nat := 0
  entry : Nat := 0
  phase : Nat := 0
  step : Nat := 0
  explicit : Bool := false
  startAt : Option Nat := none
  twin : Bool := false
  argsDa : Nat := 0
  complDa : Nat := 0
  cause : Option Nat := none
  faultSource : Nat := 0
  faultBit : Nat := 0
  readyAt : Option Nat := none
  endAt : Nat := 0
  engine : Nat := 0
  arith : W32 := 0
  withheld : Bool := false
  dualFlag : Bool := false
  republished : Bool := false
  tasks : List TaskSt := []
  wants : List Want := []
  epoch : Nat := 0
  dual : Nat := 0
  sigsP : Option (List Nat) := none
  sigsS : Option (List Nat) := none
  compared : Bool := false
  shadowFailed : Bool := false
  payload : List Byte := []
  e : Nat := 0
  shares : List (Nat × Nat) := []
  deriving DecidableEq, Repr, Inhabited

/-- Why a Spire's task is to be pre-empted (06 R221). -/
inductive Preempt where
  | reclaim | window | owner | windowEnd | budget | suspended | yieldWait | golden
  deriving DecidableEq, Repr

/-- A tile awaiting its recomputation, and the charge of its task when it was held (02 R78; 06 R222). -/
structure HeldTile where
  op : TileOp
  charge : Nat := 0
  deriving DecidableEq, Repr

/-- A Spire: service, clock (n of n / 16 GHz, 01 R33) and the clock to relock to, what it runs, what it served last,
time used in the frame (06 R209), holds of Golden Tile slots, the tile to recompute, masked mismatches (02 R79), and an
address generator mismatch that the next tile meets (09 R308). -/
structure Spire where
  quarantined : Bool := false
  clk : Nat := 16
  want : Nat := 16
  keep : Bool := false
  stopped : Bool := false
  job : Option (Nat × Nat) := none
  lastPart : Nat := 0xFF
  used : Nat := 0
  throttled : Bool := false
  preempt : Option Preempt := none
  held : Option Nat := none
  goldenRun : Bool := false
  retry : Option HeldTile := none
  masked : List Nat := []
  mismatch : Bool := false
  test : Bool := false
  deriving DecidableEq, Repr, Inhabited

/-- The frame and its windows (06 R207 to R213): F in µs, number and start of the frame,
when the next starts, the window owner, whether
slack runs, the windows of the frame (partition, start, end in ns from the frame start), golden slots open, Golden Tile mismatches of the slot by
partition (09 R330). -/
structure Frame where
  fUs : Nat := 10000
  no : Nat := 0
  start : Nat := 0
  next : Nat := 0
  owner : Option Nat := none
  slack : Bool := true
  windows : List (Nat × Nat × Nat) := []
  golden : List Nat := []
  goldenBad : Tab Nat := []
  deriving DecidableEq, Repr, Inhabited

/-- Scheduling: partitions, jobs by number, tag generations (key 65536 * mailbox + tag), clients' accounting, the
system partition's record, Spires, the frame, scoreboard counters (64 per Dome, key 64 * dome + c; value and a FAILED
mark), row tokens, their shadows and ring read tokens (03 R96), with FAILED marks. -/
structure Sched where
  parts : Tab Partition := []
  jobs : Tab Job := []
  nextJob : Nat := 0
  tagGen : Tab Nat := []
  clients : Tab Acct := []
  system : Acct := {}
  spires : Tab Spire := []
  frame : Frame := {}
  ctrs : Tab Nat := []
  ctrFailed : Tab Bool := []
  tokens : Tab Nat := []
  tokFailed : Tab Bool := []
  shadows : Tab Nat := []
  reads : Tab Nat := []
  readFailed : Tab Bool := []
  leftOut : List (Nat × Nat × Nat × Nat) := []
  deriving DecidableEq, Repr, Inhabited

/-- A Lantern (09 R317 to R323): PACKAGE decision, fault pin, heartbeat pin, its watch of heartbeats (missing in a
row; key 0 to 3 Tower Monitors, 4 and 5 Cupolas), cross-watch sequence number, missing frames, its reaction level,
whether its peer is judged lost (R319), the heartbeats heard and the last frame it sent (sequence number, level,
heartbeats heard). -/
structure Lantern where
  out : Bool := false
  package : Bool := false
  pinLow : Bool := true
  hbLevel : Bool := false
  toggling : Bool := false
  miss : Tab Nat := []
  cwSeq : Nat := 0
  cwMiss : Nat := 0
  peerLost : Bool := false
  level : Nat := 0
  heard : List Nat := []
  cwOut : Option (Nat × Nat × List Nat) := none
  deriving DecidableEq, Repr, Inhabited

/-- The rotating self-test (09 R338 to R342): next slot, rotation, results by slot of this rotation and of the last
complete one (0 not run, 1 pass, 2 fail, 3 skipped), and open test windows (unit numbers). -/
structure SelfTest where
  enabled : Bool := true
  everDisabled : Bool := false
  slot : Nat := 0
  rotation : Nat := 0
  now : Tab Nat := []
  last : Option (Nat × Nat × Tab Nat) := none
  loopback : Nat := 0
  windows : List TestUnit := []
  deriving DecidableEq, Repr, Inhabited

/-- What is in service (09 R312 to R314, R321): Lanterns, Cupolas and the active one, Batch Builders and the active
one, Towers quarantined, Dome Schedulers, KV Gather Units and Score Sorters out of service, Tower Link modules left
per edge as modules lost, DET_MODE, self-test, straps (01 R23) and their last sample, and whether the identity check
has released the resets (R30), and when planning engines last disagreed (05 R197). -/
structure Safety where
  lanterns : Tab Lantern := []
  active : Nat := 0
  cupolaOut : Tab Bool := []
  takeover : Bool := false
  bbActive : Nat := 0
  bbOut : Tab Bool := []
  towerQ : Tab Bool := []
  domeOut : Tab Bool := []
  kvOut : Tab Bool := []
  sorterOut : Tab Bool := []
  engineOut : Tab Bool := []
  portOut : Tab Bool := []
  modulesLost : Tab Nat := []
  lanesBad : Tab Nat := []
  det : Bool := false
  test : SelfTest := {}
  prevStraps : List Nat := []
  identOk : Bool := false
  audit : Tab Nat := []
  peDis : List Nat := []
  deriving DecidableEq, Repr, Inhabited

/-- OTP (14 R477): UID, grade, identity seed, life-cycle code (13 R455) and transition count, anti-rollback counter,
firmware key measurements with their revocation fuses, OEM root measurement. The values of `v_fuse` (15 R486) are a Config
function. -/
structure Otp where
  uid : Nat := 0
  grade : Nat := 0
  graded : Bool := true
  seed : List Byte := List.replicate 32 0
  lc : Nat := 3
  count : Nat := 3
  rollback : Nat := 0
  fwKey : List (List Byte) := []
  revoked : BitVec 4 := 0
  oemRoot : List Byte := []
  deriving DecidableEq, Repr, Inhabited

/-- What the header of a firmware image says (14 R470), with the measurements of R471. -/
structure FwImage where
  version : Nat := 0
  rollback : Nat := 0
  twinMin : Nat := 0
  twinMax : Nat := 0
  cupola : List Byte := []
  lantern : List Byte := []
  meas : List Byte := []
  deriving DecidableEq, Repr, Inhabited

/-- BOOT_STATUS (12 R411), the boot registers (14 R468) and the boot's progress (R462 to R476). `powered` is false after
power removal. `goEp` is the endpoint of BOOT_CTRL.GO, `slot` the slot being tried (2
recovery), `tried` the slots tried, `fw` the image that runs or loads, `lantFw` the firmware each Lantern runs (none: its
ROM), `staging` the staging record (slot, measurement, active). `delayed` is a warm
reset to come (cause, not before; 14 R462, 13 R451). `rcv` is the recovery transfer (14 R476): claimant, lengths, offsets,
data, state and the code of a refusal. `lcTo` is the life-cycle code a pending LIFECYCLE_ADVANCE writes (R481), `reports` the
attestation reports by nonce (13 R456). -/
structure BootStatus where
  powered : Bool := true
  timeUs : Nat := 0
  err : Nat := 0
  cause : Nat := 0
  recovery : Bool := false
  lmpReady : Bool := false
  stage : Nat := 0
  waitSince : Nat := 0
  wiped : Bool := false
  lanternsUp : Tab Bool := []
  addrA : Nat := 0
  addrB : Nat := 0
  lenA : Nat := 0
  lenB : Nat := 0
  prefer : Bool := false
  goEp : Option Nat := none
  slot : Nat := 3
  tried : List Nat := []
  booted : Nat := 3
  oemReg : List Host.Cell := []
  oemKey : Option (List Byte) := none
  fw : Option FwImage := none
  lantFw : Tab (Option (List Byte)) := []
  staging : Option (Nat × List Byte × Bool) := none
  delayed : Option (Nat × Nat) := none
  lcTo : Option Nat := none
  rcvBy : Option Nat := none
  rcvLen : Tab Nat := []
  rcvOff : Tab Nat := []
  rcvOem : Tab (List Host.Cell) := []
  rcvData : List Byte := []
  rcvState : Nat := 0
  rcvErr : Nat := 0
  reports : List (List Byte × List Byte) := []
  entropyBad : Tab Bool := []
  deriving DecidableEq, Repr, Inhabited

/-- A Twin Link port (10 R351 to R353): down, next sequence number expected, highest own sequence number acknowledged, the
time of the last good flit; the number of the next flit it sends, flits that wait, and the buffer of those sent and not acknowledged, each
oldest first. -/
structure TwinPort where
  down : Bool := false
  rxNext : Nat := 0
  acked : Nat := 0
  lastGood : Nat := 0
  txNext : Nat := 0
  out : List Flit := []
  replay : List Flit := []
  deriving DecidableEq, Repr, Inhabited

/-- A launch-log entry (10 R359, R364): step value, the launch's command, and whether its PUBLISHED mark has come. -/
structure LogEntry where
  step : Nat
  op : Nat
  payload : List Byte
  mbx : Nat := 0
  marked : Bool := false
  deriving DecidableEq, Repr, Inhabited

/-- What the pair holds of a mirrored partition (10 R359 to R366): TWIN_READY, the launch log, deltas received and not yet
applied (step, granules), the cut step, the steps that have ended here beyond the cut with the frame they ended in, whether the initial copy is complete, the jobs of
a takeover's rerun (job, whether its completion is discarded), a lag already reported, and whether the last
cross-twin comparison of its sections passed (R363, R377). -/
structure TwinPart where
  ready : Bool := false
  log : List LogEntry := []
  deltas : List (Nat × Delta) := []
  cut : Option Nat := none
  ends : List (Nat × Nat) := []
  copied : Bool := false
  rerun : List (Nat × Bool) := []
  lagPosted : Bool := false
  cfgOk : Bool := true
  deriving DecidableEq, Repr, Inhabited

/-- A command on a shared section that waits for the common frame start (10 R360): opcode, partition, payload, mailbox (none
for one forwarded by the partner), when the partner acknowledged it. -/
structure SharedCmd where
  op : Nat
  part : Nat
  payload : List Byte
  mbx : Option Nat := none
  ackAt : Option Nat := none
  deriving DecidableEq, Repr, Inhabited

/-- The twin pair (10): state 0 UNPAIRED, 1 PAIRED, 2 PARTNER_LOST; role 0 PRIMARY, 1 SECONDARY; mode 0
HOT_STANDBY, 1 SPLIT, 2 DUAL_COMPARE; the pairing record presented, which of its keys is this member's, and the version
agreed; the ports; CONTROL messages held for order and the number of the next one sent (R353); partitions; commands waiting for a common frame start; a handover in
progress (mask, swap roles, frame it was asked in) and the partitions whose launches it refuses; messages sent (newest
first); `pairBy` when TWIN_PAIR gives up. `pub` are the mirrored partitions this member publishes
(R357), `due` those its Lanterns are to take over on the partner's word (R365), `handIn` a handover to this member. -/
structure TwinCore where
  st : Nat := 0
  role : Nat := 0
  mode : Nat := 0
  mirror : BitVec 16 := 0
  home : BitVec 16 := 0
  record : Option (List Byte) := none
  member : Nat := 0
  nonce : List Byte := []
  version : Nat := 0
  pairBy : Nat := 0
  ports : Tab TwinPort := []
  ctlNext : Nat := 0
  txCtl : Nat := 0
  ctlHeld : List (Nat × TwinMsg) := []
  parts : Tab TwinPart := []
  shared : List SharedCmd := []
  pub : BitVec 16 := 0
  due : BitVec 16 := 0
  hand : Option (BitVec 16 × Bool × Nat) := none
  handIn : Option (BitVec 16 × Bool) := none
  refuse : BitVec 16 := 0
  split : Bool := false
  sent : List TwinMsg := []
  deriving DecidableEq, Repr, Inhabited

/-- A sort request (03 R108): the Spire, the address of its SORT_DESC, and the run of a task that asked. -/
structure SortReq where
  sp : Nat := 0
  da : Nat := 0
  task : TaskId := (0, 0, 0)
  deriving DecidableEq, Repr, Inhabited

/-- A Dome's Score Sorter (03 R108, R109): pending requests, stalled ones, the operation in
hand with its descriptor, and whether it is being repeated. -/
structure Sorter where
  queue : List SortReq := []
  stalled : List SortReq := []
  cur : Option (SortReq × List W64) := none
  again : Bool := false
  deriving DecidableEq, Repr, Inhabited

/-- What follows once a slot's invalidation has been acknowledged (04 R134, R136, R141, R142, R148, R149). -/
inductive After where
  | none | edits | boundary | unstall | close | swapOut | swapIn
  deriving DecidableEq, Repr, Inhabited

/-- A sequence table entry (04 R114, its fields in R114's order) with what the Batch Builder holds of it: the copy
snapshotted at step start, the tokens at step start and appended by the step (R121), the append counter and the layers
acknowledged by position (R126), what is left of a reservation (R145), units yet to acknowledge an invalidation and what
follows, DRAM and host pages to release then, copies in progress (VPN, source, destination), tokens a stalled sequence
needs, a close that waits for a swap, forks forwarded by the twin partner, a RESIDENT build waiting for LIMBO pages, and edits (VPN,
entry) accepted while the inactive copy is in use, which follow once it is not (R135). -/
structure Seq where
  st : Nat := 0
  gen : Nat := 0
  part : Nat := 0
  image : Nat := 0
  phase : Nat := 0
  policy : Nat := 0
  active : Nat := 0
  pending : Bool := false
  lfmt : Nat := 0
  nl : Nat := 0
  dc64 : Nat := 0
  tpp : Nat := 0
  length : Nat := 0
  maxLen : Nat := 0
  ptBase : Nat := 0
  share : Nat := 0
  ptLen : Nat := 1
  lastEpoch : Nat := 0
  snap : Nat := 0
  l0 : Nat := 0
  a : Nat := 0
  appended : Nat := 0
  layers : Tab (List Nat) := []
  reserve : Nat := 0
  inval : BitVec 20 := 0
  after : After := .none
  removed : List Nat := []
  hostFree : List Nat := []
  copies : List (Nat × Nat × Nat) := []
  need : Nat := 0
  closing : Bool := false
  forks : Nat := 0
  late : List (Nat × Nat) := []
  deriving DecidableEq, Repr, Inhabited

/-- A Page Directory entry (04 R137): state 0 FREE, 1 ALLOC, 2 LIMBO, 3 RETIRED. OWNER follows from the pools. -/
structure PageEnt where
  refcnt : Nat := 0
  st : Nat := 0
  freedAt : Nat := 0
  deriving DecidableEq, Repr, Inhabited

/-- A step being built (04 R133, R134; 06 R229, R230): its group, step value, the sequences admitted with their tokens, and
those whose boundary has still to be processed. -/
structure Build where
  part : Nat
  image : Nat
  phase : Nat
  step : Nat
  explicit : Bool
  entry : Nat
  admits : List (Nat × Nat)
  rest : List Nat
  deriving DecidableEq, Repr, Inhabited

/-- A gather in hand at a KV Gather Unit (04 R120): requesting Spire, descriptor, weight format and tensor of an
expansion, the next tile to deliver, tiles released, what REL_CTR counts from, and the run of a task that asked. -/
structure Gather where
  sp : Nat
  desc : List W64
  wf : Fmt
  tensor : Nat
  tile : Nat := 0
  rel : Nat := 0
  rel0 : Int := 0
  task : TaskId := (0, 0, 0)
  deriving DecidableEq, Repr

/-- Attention memory (04): the sequence table by slot, the last step epoch issued, the Page Directory by PPN, builds in
progress, gathers by Dome, micro-TLBs by Dome and the Page Walkers' TLBs by 64 * Tower + set (slot, VPN, PPN; most
recently used first), and the times at which a Tower's KV Gather Unit masked mismatches. -/
structure SeqSys where
  seqs : Tab Seq := []
  epoch : Nat := 0
  pages : Tab PageEnt := []
  builds : List Build := []
  gathers : Tab (List Gather) := []
  micro : Tab (List (Nat × Nat × Nat)) := []
  tlb : Tab (List (Nat × Nat × Nat)) := []
  masked : Tab (List Nat) := []
  deriving DecidableEq, Repr, Inhabited


/-- An edit of a WORLD_UPDATE list (05 R164); `bad` is a malformed one. -/
inductive Edit where
  | add (ws : List W64)
  | replace (gen idx : Nat) (ws : List W64)
  | remove (gen idx : Nat)
  | meshDefine (id : Nat) (tris : List (List W64))
  | meshDelete (id : Nat)
  | clearAll
  | setParams (horizon cell : Nat)
  | bad
  deriving DecidableEq, Repr

/-- A version of a primitive (05 R159, R167): its record and segments, the epoch it holds from, and for a prior version the
epoch it held until. -/
structure Prim where
  ws : List W64
  since : Nat
  until_ : Nat := 0
  deriving DecidableEq, Repr

/-- A primitive slot (05 R162, R167). -/
structure PrimSlot where
  gen : Nat := 0
  cur : Option Prim := none
  prior : Option Prim := none
  deriving DecidableEq, Repr, Inhabited

/-- A copy of the world (05 R155, R162 to R167): slots, meshes, HORIZON_MS, CELL_LOG2, epoch, the change log (epoch,
handle; newest first) and the latest epoch of an entry overwritten or marked. -/
structure World where
  slots : Tab PrimSlot := []
  meshes : Tab (List (List W64)) := []
  horizon : Nat := 10000
  cell : Nat := 12
  epoch : Nat := 0
  log : List (Nat × Nat) := []
  cover : Nat := 0
  deriving DecidableEq, Repr, Inhabited

/-- A plan request accepted (05 R176): ID, generation, mailbox, partition and its PLAN_DESC. -/
structure PlanReq where
  id : Nat := 0
  gen : Nat := 0
  mbx : Nat := 0
  part : Nat := 0
  desc : List W64 := []
  deriving DecidableEq, Repr, Inhabited

/-- A search node (05 R179, R181): pose and proposer state are four words each, `edge` the poses of its edge. -/
structure Node where
  parent : Nat := 0
  depth : Nat := 0
  g : Nat := 0
  h : Nat := 0
  goal : Bool := false
  pose : List W64 := []
  st : List W64 := []
  edge : List (List W64) := []
  deriving DecidableEq, Repr, Inhabited

/-- A batch sent to the proposer: buffer, batch number, nodes, its job (05 R181, R183). -/
structure Batch where
  buf : Nat
  no : Nat
  nodes : List Nat
  job : Nat
  deriving DecidableEq, Repr

/-- How far a request is (05 R177, R189, R190, R194): `written` has its record written, `queued` its event in the engine's result
Spill Queue. -/
inductive PlanPhase where
  | search | recheckSmooth | recheckPlain | round | locked | written | queued
  deriving DecidableEq, Repr, Inhabited

/-- The request an engine runs (05 R178 to R194): start epoch, whether the minimum-risk trajectory was free at it, node
pool, heap (key, node), the batch being filled, batches out, children to check (parent, slot words), counters of the
record, what ends the search, the path in hand with its verdict epoch and publication rounds, status, cause and flags. -/
structure Search where
  req : PlanReq := {}
  e0 : Nat := 0
  mrtFree : Bool := false
  nodes : List Node := []
  heap : List (Nat × Nat) := []
  batch : List Nat := []
  out : List Batch := []
  batchNo : Nat := 0
  kids : List (Nat × List W64) := []
  expansions : Nat := 0
  dropped : Nat := 0
  invalid : Nat := 0
  rejected : Nat := 0
  peFault : Bool := false
  churn : Bool := false
  parity : Bool := false
  phase : PlanPhase := .search
  goal : Nat := 0
  path : List (List W64) := []
  v : Nat := 0
  rounds : Nat := 0
  status : Nat := 0
  cause : Nat := 0
  fallback : Bool := false
  mustFull : Bool := false
  flags : Nat := 0
  smoothFlags : Nat := 0
  pubFlags : Nat := 0
  mrtFlags : Nat := 0
  deriving DecidableEq, Repr, Inhabited

/-- A Planning Engine (05 R155, R156): its world, updates accepted and not yet applied, the request it runs and those that
wait. -/
structure Engine where
  world : World := {}
  updates : List (List Edit) := []
  cur : Option Search := none
  queue : List PlanReq := []
  deriving DecidableEq, Repr, Inhabited

/-- The Planning Engines, and the generations of plan request IDs (06 R235). -/
structure PlanSys where
  eng : Tab Engine := []
  gens : Tab Nat := []
  deriving DecidableEq, Repr, Inhabited


/-- A held claim (11 R402, R403): resource (the codes of 13 R458; 0x20 CSI_RX_SLOT, 0x21 CSI_TX, 0x22 DMA3_LIST, 0x23
DMA3_SWAP), instance, holding mailbox and partition, value, and when it ends by itself. -/
structure Claim where
  res : Nat
  inst : Nat
  mbx : Nat
  part : Nat
  value : Nat := 0
  until_ : Option Nat := none
  deriving DecidableEq, Repr

/-- The parameters of a STREAM_BIND or DISPLAY_BIND as its payload gives them (13 R448, R449), with the binding's mailbox
and partition. -/
structure Binding where
  pl : List Byte
  mbx : Nat
  part : Nat
  deriving DecidableEq, Repr, Inhabited

/-- A receive frame in progress (11 R382 to R390): its buffer (`none` when dropped), CSI-2 frame number, CTC at its start,
Test Pattern Lines, Identity Block, stored and image lines so far, FRAME_COUNT, whether it has failed, whether a Test Pattern
Line or Identity Block was bad, and whether it may answer the challenge outstanding. -/
structure RxFrame where
  buf : Option Nat := none
  no : Nat := 0
  start : Nat := 0
  tpls : Nat := 0
  ident : Bool := false
  emb : Nat := 0
  lines : Nat := 0
  fc : Option Nat := none
  gap : Bool := false
  failed : Bool := false
  tplBad : Bool := false
  openLine : Bool := false
  answers : Bool := false
  deriving DecidableEq, Repr, Inhabited

/-- What a filled buffer is kept for (11 R382): the launch it feeds, that launch's step value, its FRAME_COUNT. A standby's
buffer has no launch, and a step value once the publisher's launch is logged (10 R359, R362). -/
structure FrameUse where
  job : Option Nat := none
  step : Option Nat := none
  fc : Nat := 0
  deriving DecidableEq, Repr, Inhabited

/-- A receive slot (11 R380 to R394). `next` is a rebind that waits, until `waitUntil` at most. `trust` takes the codes of R383;
`snap` is the verified snapshot (MODULE_ID, KEY, LIFE), `ident` the identity last seen, `life` and `calHash` those last seen;
`nonce` the challenge outstanding, with the frames left that may answer it, `spare` the nonce for the challenge of a rebind;
`verify` a response to verify with its frame's FRAME_COUNT; `bufs` the buffers in use, `last` the one last filled. -/
structure Stream where
  bind : Option Binding := none
  next : Option Binding := none
  unbind : Bool := false
  waitUntil : Nat := 0
  trust : Nat := 0
  snap : Option (List Byte × List Byte × List Nat) := none
  ident : Option (List Byte × List Byte) := none
  life : List Nat := []
  calHash : List Byte := []
  expired : Bool := false
  nonce : Option (List Byte) := none
  spare : Nat := 0
  left : Nat := 0
  verify : Option (List Byte × Nat) := none
  reauthAt : Option Nat := none
  prevFc : Option Nat := none
  first : Bool := true
  silent : Bool := false
  lastStart : Nat := 0
  dropped : Nat := 0
  bufs : Tab (Option FrameUse) := []
  last : Option Nat := none
  frame : Option RxFrame := none
  corrected : Nat := 0
  discarded : Nat := 0
  deriving DecidableEq, Repr, Inhabited

/-- A transmit port (11 R396 to R400): its binding, a change that waits and the time from which it may take effect, the
number of frames started since the bind, index k of the next frame, the CRC so far of the frame in
progress, next image line, UNDERRUN of this frame, layers disabled, and what was sent: the lines before the image, and the last image line. -/
structure Display where
  bind : Option Binding := none
  next : Option Binding := none
  nextAt : Nat := 0
  frames : Nat := 0
  k : Nat := 0
  crc : Nat := 0
  line : Nat := 0
  under : Bool := false
  disabled : BitVec 4 := 0
  header : List (List Byte) := []
  sent : List Byte := []
  deriving DecidableEq, Repr, Inhabited

/-- Cameras and displays (11): slots by 16 * port + VC, lanes and rate of a bound port, transmit ports, and the East
I3C controller role (0 here, 1 handing off, 2 away, 3 asked back) with the claim that took it. -/
structure CamSys where
  streams : Tab Stream := []
  ports : Tab Display := []
  portOff : Tab Bool := []
  role : Nat := 0
  roleClaim : Option Claim := none
  retryAt : Nat := 0
  deriving DecidableEq, Repr, Inhabited



/-- A hot spot (15 R489 to R491): governing temperature in units of 0.25 °C, its two sensors' last readings, since when its
condition lasts, whether it was reported. -/
structure HotSpot where
  gov : Int := 0
  cond : Bool := false
  since : Nat := 0
  reported : Bool := false
  deriving DecidableEq, Repr, Inhabited

/-- A Tower's heat and supply (15 R486 to R495): thermal ceiling and the one last reported, pause of its Spires, since when T_b
is at 105 °C or above, since when it is cool enough to rise, when it last rose, the cap of R491, the clock step whose
voltage was last requested and the highest the last confirmed voltage supports, a regulator that does not answer, the rail
current in mA, and when the ceiling is set next. -/
structure TowerHeat where
  ceil : Nat := 16
  told : Nat := 16
  paused : Bool := false
  hotSince : Option Nat := none
  coolSince : Option Nat := none
  raisedAt : Nat := 0
  cap : Nat := 16
  reqStep : Nat := 16
  okStep : Nat := 16
  lostReg : Bool := false
  ma : Nat := 0
  at_ : Nat := 1000000
  deriving DecidableEq, Repr, Inhabited

/-- Coolant and power (15 R496 to R507): last SEQ, last valid T_IN in 1/64 °C and its time, T_OUT, accepted samples of the last
second and at least the last 10 (time, FLOW in mL/min where it is valid; newest first), the time of the last with a valid FLOW, when the hub is read next, the policy in
force and the one accepted, allowed power and the one last reported, consecutive failing and passing windows, the current
balance window (sum of FLOW times temperature difference, samples, every sample counts, its end), q_eff capped, since when P_meas is
below P_allow − 10 W, Survival (decision time, cause), whether its 5 s check is done. -/
structure Coolant where
  seqNo : Option Nat := none
  tIn : Int := 5440
  tInAt : Option Nat := none
  tOut : Option Int := none
  flows : List (Nat × Option Nat) := []
  flowAt : Nat := 0
  at_ : Nat := 10000000
  qNom : Nat := 2000
  newNom : Nat := 2000
  protect : BitVec 16 := 0
  newProtect : BitVec 16 := 0
  handover : Bool := true
  allow : Nat := 390
  told : Nat := 390
  failing : Nat := 0
  passing : Nat := 0
  winSum : Int := 0
  winN : Nat := 0
  winOk : Bool := true
  winAt : Nat := 5000000000
  capped : Bool := false
  lowSince : Option Nat := none
  survival : Option (Nat × Nat) := none
  checked : Bool := false
  deriving DecidableEq, Repr, Inhabited

/-- Life counters (15 R505): ns of operation, and per band of the hottest compute hot spot, up to the elapsed time `at_`;
thermal cycles with the minimum they count from, a rise of 40 °C that is not yet complete and its highest point; Survival
entries, thermal trips, and the LIFE events posted for full hours. -/
structure Life where
  ns : Nat := 0
  bands : Tab Nat := []
  cycles : Nat := 0
  low : Option Int := none
  rising : Bool := false
  high : Int := 0
  survivals : Nat := 0
  trips : Nat := 0
  at_ : Nat := 0
  hours : Nat := 0
  deriving DecidableEq, Repr, Inhabited

/-- Heat, supply, coolant, life, power domains switched off (by number, 15 R484), and I/O dies whose Planning Engine runs at
half rate (R491). -/
structure Thermal where
  spots : Tab HotSpot := []
  towers : Tab TowerHeat := []
  cool : Coolant := {}
  life : Life := {}
  domainOff : Tab Bool := []
  halfRate : Tab Bool := []
  towersOff : Bool := false
  deriving DecidableEq, Repr, Inhabited


/-- The state of the block. `pending` holds the commands that wait, first in, first out. `free` is the model's own
counter for values the manual leaves open (log 4); nothing of the hardware is in it. `cfgEpoch` is the configuration epoch
(10 R375), `frameMark` the FRAME_MARK output (16 R521). -/
structure State where
  clk : Clock := {}
  recs : Records := {}
  queues : Tab SpillQ := []
  host : HostSide := {}
  mem : MemSys := {}
  sch : Sched := {}
  saf : Safety := {}
  bs : BootStatus := {}
  tw : TwinCore := {}
  sorters : Tab Sorter := []
  seq : SeqSys := {}
  plan : PlanSys := {}
  claims : List Claim := []
  cam : CamSys := {}
  otp : Otp := {}
  heat : Thermal := {}
  cfgEpoch : Nat := 0
  frameMark : Bool := false
  free : Nat := 0
  pending : List Instr := []
  deriving DecidableEq, Repr, Inhabited

/-- The Event Queue before the boot enables it: its ring's reset place and size, FULL_POLICY DROP (12 R423, R424; 06 R527; 14
R465 step 10). -/
def resetQueues : Tab SpillQ := [(0, { drop := true, base := 0x100F000000, size := 4096 })]

/-- The block right after the release of power-on reset (14 R462): the identity check has not run, so the Towers,
Cupolas and endpoints are still held (01 R30) and the mailboxes are closed. -/
def State.reset : State := { queues := resetQueues }

end Sys2Proof.Machine
end

