-- ==== Sys2Proof/Machine/Ops.lean ====
section
/-! DEFINITION. The operations every family shares: parts of the State by number, time, source units, error records
and the events they post, the Event Queue and interrupts. -/

namespace Sys2Proof.Machine

/-! ### Parts by number -/

/-- Mailbox `m`. -/
def State.mbx (s : State) (m : Nat) : Mailbox := tget {} s.host.mbx m

/-- Change mailbox `m`. -/
def State.modMbx (s : State) (m : Nat) (f : Mailbox → Mailbox) : State :=
  { s with host := { s.host with mbx := tmod {} s.host.mbx m f } }

/-- Endpoint `e` (0 West, 1 East). -/
def State.ep (s : State) (e : Nat) : Endpoint := tget {} s.host.eps e

/-- Change endpoint `e`. -/
def State.modEp (s : State) (e : Nat) (f : Endpoint → Endpoint) : State :=
  { s with host := { s.host with eps := tmod {} s.host.eps e f } }

/-- An endpoint issues requests: its link is up and it is not in D3hot (12 R407). -/
def State.epSends (s : State) (e : Nat) : Bool := (s.ep e).linkUp && !(s.ep e).d3hot

/-- The safety mailbox of Lantern `l`. -/
def State.sm (s : State) (l : Nat) : I3cTarget := tget {} s.host.sm l

/-- Change the safety mailbox of Lantern `l`. -/
def State.modSm (s : State) (l : Nat) (f : I3cTarget → I3cTarget) : State :=
  { s with host := { s.host with sm := tmod {} s.host.sm l f } }

/-- Spill Queue by number. -/
def State.q (s : State) (k : Nat) : SpillQ := tget {} s.queues k

/-- Replace a Spill Queue. -/
def State.setQ (s : State) (k : Nat) (v : SpillQ) : State := { s with queues := tput {} s.queues k v }

/-- Partition `p`. -/
def State.part (s : State) (p : Nat) : Partition := tget {} s.sch.parts p

/-- Change partition `p`. -/
def State.modPart (s : State) (p : Nat) (f : Partition → Partition) : State :=
  { s with sch := { s.sch with parts := tmod {} s.sch.parts p f } }

/-- Job `j`. -/
def State.job (s : State) (j : Nat) : Job := tget {} s.sch.jobs j

/-- Change job `j`. -/
def State.modJob (s : State) (j : Nat) (f : Job → Job) : State :=
  { s with sch := { s.sch with jobs := tmod {} s.sch.jobs j f } }

/-- Spire `i`. -/
def State.spire (s : State) (i : Nat) : Spire := tget {} s.sch.spires i

/-- Change Spire `i`. -/
def State.modSpire (s : State) (i : Nat) (f : Spire → Spire) : State :=
  { s with sch := { s.sch with spires := tmod {} s.sch.spires i f } }

/-- Lantern `l` (0 A, 1 B). -/
def State.lantern (s : State) (l : Nat) : Lantern := tget {} s.saf.lanterns l

/-- Change Lantern `l`. -/
def State.modLantern (s : State) (l : Nat) (f : Lantern → Lantern) : State :=
  { s with saf := { s.saf with lanterns := tmod {} s.saf.lanterns l f } }

/-- Channel controller `c`. -/
def State.chan (s : State) (c : Nat) : Chan := tget {} s.mem.chans c

/-- Change channel controller `c`. -/
def State.modChan (s : State) (c : Nat) (f : Chan → Chan) : State :=
  { s with mem := { s.mem with chans := tmod {} s.mem.chans c f } }

/-- The error record of a source unit, as its die's record file holds it. -/
def State.errRec (s : State) (src : Nat) : Rec := tget {} s.recs.file src

/-- A test window of a unit is open (09 R339). -/
def State.testing (s : State) (u : TestUnit) : Bool := decide (u ∈ s.saf.test.windows)

/-- The active Cupola serves the mailboxes: the boot has opened them, no takeover is under way, it is in service, and no test window
holds it (09 R321, R339; 12 R421). -/
def State.cupolaServes (s : State) : Bool :=
  s.bs.lmpReady && !s.saf.takeover && !tget false s.saf.cupolaOut s.saf.active && !s.testing (.cupola (Fin.ofNat 2 s.saf.active))

/-! ### Source units (09 R343) -/

/-- Dome `d`. -/
def srcDome (d : Nat) : Nat := 0x40 + d

/-- Unit `u` of Tower `t`'s base die. -/
def srcTower (t u : Nat) : Nat := 0x80 + 0x20 * t + u

/-- Unit `u` of an I/O die. -/
def srcIo (side u : Nat) : Nat := 0x100 + 0x20 * side + u

/-- The number is one of 09 R343's table. -/
def srcUsed (n : Nat) : Bool :=
  decide (n < 0x50) ||
    (decide (0x80 ≤ n) && decide (n < 0x100) && decide (n % 0x20 ≤ 0x1A)) ||
    (decide (0x100 ≤ n) && decide (n < 0x140) &&
      (decide (n % 0x20 ≤ 0x0C) || (decide (0x10 ≤ n % 0x20) && decide (n % 0x20 ≤ 0x19))))

/-- The channel controller of global channel `c` (16 per Tower). -/
def srcChan (c : Nat) : Nat := srcTower (c / 16) (4 + c % 16)

/-- The mailboxes and Event Queue unit of the active Cupola's die. -/
def State.srcMbx (s : State) : Nat := srcIo s.saf.active 9

/-- The Lantern that posts: A, or B while A is out of service (09 R349). -/
def State.poster (s : State) : Nat := if (s.lantern 0).out then 1 else 0

/-! ### Time -/

/-- The ns until a slew in progress has used up its offset. -/
def Clock.slewNs (c : Clock) : Nat := if c.slew = 0 then 0 else ceilDiv c.slew.natAbs (max 1 c.rate.natAbs)

/-- The CTC after `dt` ns at a rate, with `extra` more in 10⁻⁹ ns (08 R292). -/
def Clock.count (c : Clock) (dt : Nat) (extra : Int) : Clock :=
  let acc := c.frac + extra
  { c with
    elapsed := c.elapsed + dt
    frac := acc % 1000000000
    ctc := (Int.toNat (c.ctc + dt + acc / 1000000000)) % 2 ^ 64 }

/-- Elapse `dt` ns: the CTC counts with its rate (08 R292), a slew in progress uses up its offset and then the base rate
holds again (R295). -/
def Clock.elapse (c : Clock) (dt : Nat) : Clock :=
  if c.slew = 0 then c.count dt (dt * c.rate)
  else if dt < c.slewNs then { c.count dt (dt * c.rate) with slew := c.slew - dt * c.rate }
  else { c.count dt (c.slew + (dt - c.slewNs : Nat) * c.base) with slew := 0, rate := c.base }

/-- Elapse `dt` ns. -/
def State.elapse (s : State) (dt : Nat) : State := { s with clk := s.clk.elapse dt }

/-- The ns until the CTC reads `t` at the present rate. -/
def Clock.nsTo (c : Clock) (t : Nat) : Nat :=
  ceilDiv (Int.toNat (((t : Int) - c.ctc) * 1000000000 - c.frac)) (Int.toNat (1000000000 + c.rate))

/-- Elapse until the CTC has reached `t`, at once if it has. -/
def Clock.elapseTo (c : Clock) (t : Nat) : Clock :=
  if t ≤ c.ctc then c
  else if c.slew = 0 ∨ c.nsTo t ≤ c.slewNs then c.elapse (c.nsTo t)
  else
    let c := c.elapse c.slewNs
    c.elapse (c.nsTo t)

/-- Elapse until the CTC has reached `t`. -/
def State.elapseTo (s : State) (t : Nat) : State := { s with clk := s.clk.elapseTo t }

/-- A value the manual leaves open, `w` bits wide, and the state that has drawn it (log 4). -/
def State.draw (s : State) (w : Nat) : Nat × State :=
  ((Config.freeValue s.free).toNat % 2 ^ w, { s with free := s.free + 1 })

/-! ### Interrupts -/

/-- The endpoint that carries a message meant for `e`: the other one while `e` cannot send (12 R407, R420). -/
def State.route (s : State) (e : Nat) : Nat :=
  if (s.ep e).linkUp && !(s.ep e).d3hot then e
  else if (s.ep (1 - e)).linkUp && !(s.ep (1 - e)).d3hot then 1 - e else e

/-- Send an MSI-X vector meant for endpoint `e`. -/
def State.msix (s : State) (e v : Nat) : State :=
  { s with host := { s.host with msixSent := (s.route e, v) :: s.host.msixSent } }

/-! ### Spill Queues (07 R268 to R271) -/

/-- The exclusive-or of the low `n` bits. -/
def parityOf (v : Nat) : Nat → Bool
  | 0 => false
  | n + 1 => Bool.xor (v.testBit n) (parityOf v n)

/-- A word as a queue holds it: parity of bits [62:0] in bit 63 (07 R269). -/
def sqWord (payload : Nat) (poison : Bool) : W64 :=
  let low := payload % 2 ^ 62 + (if poison then 2 ^ 62 else 0)
  BitVec.ofNat 64 (low + if parityOf low 63 then 2 ^ 63 else 0)

/-- Words held (SQ_COUNT, 07 R272). -/
def SpillQ.count (q : SpillQ) : Nat := q.head.length + q.mid.length + q.tail.length

/-- Room left (07 R268). -/
def SpillQ.room (q : SpillQ) : Nat := if q.linkLost then 0 else q.size + 32 - q.count

/-- Words pass from tail to head directly while the middle is empty (07 R268). -/
def SpillQ.settle (q : SpillQ) : SpillQ :=
  if q.mid.isEmpty then
    let n := 16 - q.head.length
    { q with head := q.head ++ (q.tail.take n).map (fun w => (w, false)), tail := q.tail.drop n }
  else q

/-- Spill a run of up to 8 words from the tail, as many as the ring has places for (07, opening of "Spill Queues"). -/
def SpillQ.spillRun (q : SpillQ) : SpillQ :=
  let n := min (min 8 q.tail.length) (q.size - q.mid.length)
  { q with mid := q.mid ++ q.tail.take n, tail := q.tail.drop n, spilled := q.spilled + n }

/-- Fill the head from the ring. -/
def SpillQ.fillHead (q : SpillQ) : SpillQ :=
  let n := 16 - q.head.length
  { q with head := q.head ++ (q.mid.take n).map (fun w => (w, false)), mid := q.mid.drop n }

/-- Accept one word, the queue having room; a full tail spills a run first, for which a full ring first fills the head (07 R268; log
6). -/
def SpillQ.accept (q : SpillQ) (w : W64) : SpillQ :=
  let q := q.settle
  let q := if q.tail.length < 16 then q else if q.mid.length + 8 ≤ q.size then q.spillRun else q.fillHead.spillRun
  ({ q with tail := q.tail ++ [w] }).settle

/-- Accept several words in order. -/
def SpillQ.acceptAll (q : SpillQ) : List W64 → SpillQ
  | [] => q
  | w :: t => (q.accept w).acceptAll t

/-! ### The Event Queue (12 R423 to R429) -/

/-- An event word (12 R427), without parity. -/
def eventWord (cls src code payload : Nat) : Nat :=
  (cls % 64) * 2 ^ 56 + (src % 2 ^ 16) * 2 ^ 40 + (code % 256) * 2 ^ 32 + payload % 2 ^ 32

/-- The extension words of a group: class 0x3E, index from 1 (12 R427, log 5). -/
def extWords (ext : List Nat) : List Nat :=
  (List.range ext.length).zipWith (fun i x => 0x3E * 2 ^ 56 + (i + 1) % 256 * 2 ^ 48 + x % 2 ^ 32) ext

/-- Interrupt vector 64 goes out and ARMED clears (12 R425). -/
def State.fireIrq (s : State) : State :=
  let s := s.msix s.host.irq.ep 64
  { s with host := { s.host with irq := { s.host.irq with armed := false, holdoffAt := none } } }

/-- What an accepted push does to the interrupt (12 R425): the first push while armed starts the holdoff, and a
count at the threshold sends at once. -/
def State.pushedIrq (s : State) : State :=
  if s.host.irq.armed then
    let at_ := s.host.irq.holdoffAt.getD (s.clk.ctc + 1000 * s.host.irq.holdoffUs)
    let s := { s with host := { s.host with irq := { s.host.irq with holdoffAt := some at_ } } }
    if s.host.irq.threshold ≤ (s.q 0).count || s.host.irq.holdoffUs = 0 then s.fireIrq else s
  else s

/-- Push an event group: whole, preceded by LOST after a drop, or dropped whole (12 R427, R429). -/
def State.pushGroup (s : State) (ws : List W64) : State :=
  let q := s.q 0
  if q.enable && decide (q.lost = 0) && decide (ws.length ≤ q.room) then
    (s.setQ 0 (q.acceptAll ws)).pushedIrq
  else if q.enable && decide (q.lost ≠ 0) && decide (ws.length + 1 ≤ q.room) then
    (s.setQ 0 { q.acceptAll (sqWord (eventWord 0x3F s.srcMbx 0 q.lost) false :: ws) with lost := 0 }).pushedIrq
  else
    s.setQ 0 { q with
      overflow := q.overflow || q.enable
      dropped := satAdd 32 q.dropped ws.length
      lost := satAdd 32 q.lost 1 }

/-- Post an event; an urgent one also sends vector 65, dropped or not (12 R426). -/
def State.post (s : State) (cls src code payload : Nat) (ext : List Nat) (urgent : Bool) : State :=
  let s := s.pushGroup ((eventWord cls src code payload :: extWords ext).map fun w => sqWord w false)
  if urgent then s.msix s.host.irq.ep 65 else s

/-! ### Error records (09 R344 to R349) -/

/-- Reaction levels (09 R312). -/
abbrev lvMasked : Nat := 0
abbrev lvTask : Nat := 1
abbrev lvUnit : Nat := 2
abbrev lvPartition : Nat := 3
abbrev lvTower : Nat := 4
abbrev lvPackage : Nat := 5

/-- What an event carries to a record besides its bit and level. -/
structure Note where
  detail : Nat := 0
  addr : Nat := 0
  part : Option Nat := none
  source : Option Nat := none
  deriving DecidableEq, Repr, Inhabited

/-- The record after one event (09 R346). -/
def Rec.update (r : Rec) (bit level ctc seq : Nat) (n : Note) : Rec :=
  let fresh := !r.sticky.getLsbD bit
  let first := r.sticky = 0
  { r with
    sticky := r.sticky ||| BitVec.ofNat 64 (2 ^ bit)
    gen := if fresh then (r.gen + 1) % 256 else r.gen
    level := max r.level level
    count := satAdd 32 r.count 1
    masked := if level = 0 then satAdd 32 r.masked 1 else r.masked
    firstCtc := if first then ctc else r.firstCtc
    firstBit := if first then bit else r.firstBit
    firstDetail := if first then n.detail % 256 else r.firstDetail
    firstAddr := if first then n.addr % 2 ^ 48 else r.firstAddr
    lastCtc := ctc
    lastBit := bit
    lastDetail := n.detail % 256
    lastAddr := n.addr % 2 ^ 48
    tagPartition := n.part.getD 0 % 256
    tagSource := n.source.getD 0 % 2 ^ 16
    seq := seq }

/-- Write a record to its die's file and to the mirrors of the Lanterns in service (09 R348). -/
def State.putRec (s : State) (src : Nat) (r : Rec) : State :=
  { s with recs := { s.recs with
      file := tput {} s.recs.file src r
      mirrorA := if (s.lantern 0).out then s.recs.mirrorA else tput {} s.recs.mirrorA src r
      mirrorB := if (s.lantern 1).out then s.recs.mirrorB else tput {} s.recs.mirrorB src r } }

/-- Append a fault record to a safety mailbox; the oldest of 64 goes (12 R431), and an in-band interrupt is raised
when enabled (R430). -/
def I3cTarget.addFault (t : I3cTarget) (f : FaultRec) : I3cTarget :=
  { t with
    faults := (if t.faults.length < 64 then t.faults else t.faults.drop 1) ++ [f]
    ibis := if t.events % 2 = 1 then t.ibis + 1 else t.ibis
    lastIbi := if t.events % 2 = 1 then f.level else t.lastIbi }

/-- Post a fault record to both safety mailboxes (12 R431). -/
def State.faultRec (s : State) (f : FaultRec) : State :=
  (s.modSm 0 fun t => t.addFault f).modSm 1 fun t => t.addFault f

/-- A Lantern in service posts events (09 R349). -/
def State.watched (s : State) : Bool := !((s.lantern 0).out && (s.lantern 1).out)

/-- An event of a unit: the record is updated (09 R346), and a new bit or a TASK-level event is posted by a Lantern in service (R349,
12 R431), urgent from PARTITION level on (12 R426). -/
def State.record (s : State) (src bit level : Nat) (n : Note) : State :=
  let r := s.errRec src
  let seq := (s.recs.seq + 1) % 2 ^ 32
  let s1 := { s with recs := { s.recs with seq := seq } }
  let s2 := s1.putRec src (r.update bit level s.clk.ctc seq n)
  if (!r.sticky.getLsbD bit || decide (1 ≤ level)) && s.watched then
    (s2.faultRec ⟨seq, src, bit, n.detail % 256, level, s.clk.ctc⟩).post 1 src bit seq [] (decide (3 ≤ level))
  else s2

/-- A stale message is dropped: counted, STALE set (06 R236, level MASKED by 09 R313). -/
def State.stale (s : State) (src : Nat) : State := s.record src 10 lvMasked {}

end Sys2Proof.Machine
end

