-- ==== Sys2Proof/Machine/Map.lean ====
section
/-! DEFINITION. The device address map: decoded ranges and the DRAM layout (01 R38 to R43), the system reservation (06
R527), DRAM interleaving (07 R250 to R252), and reading and storing bytes at a device address. -/

namespace Sys2Proof.Machine

/-- What a device address lies in (01 R38). -/
inductive Kind where
  | dram | towerSram (t : Nat) | domeStore (d : Nat) | spireStore (sp : Nat) | unit | host
  deriving DecidableEq, Repr

abbrev gib : Nat := 2 ^ 30
abbrev mib : Nat := 2 ^ 20
abbrev hostBase : Nat := 0x800000000000
abbrev towerSramBase : Nat := 0x1000000000
abbrev domeStoreBase : Nat := 0x1400000000
abbrev spireStoreBase : Nat := 0x1500000000
abbrev unitBase : Nat := 0x1800000000
abbrev evqRing : Nat := 0x100F000000

/-- L_t: the Tower-local GiB of Tower `t`. -/
def MemSys.loc (m : MemSys) (t : Nat) : Nat := tget 0 m.local_ t

/-- The largest L_t. -/
def MemSys.lmax (m : MemSys) : Nat := max (max (m.loc 0) (m.loc 1)) (max (m.loc 2) (m.loc 3))

/-- G, the size of the global region in GiB (01 R43). -/
def MemSys.g (m : MemSys) : Nat := 4 * (15 - m.lmax)

/-- Where Tower `t`'s local region starts, in GiB (01 R43). -/
def MemSys.localStart (m : MemSys) : Nat → Nat
  | 0 => m.g
  | t + 1 => m.localStart t + m.loc t

/-- The end of decoded DRAM, in bytes. -/
def MemSys.dramEnd (m : MemSys) : Nat := m.localStart 4 * gib

/-- What an address lies in; `none` where it is not decoded (01 R38, R43; a Tower SRAM bank without power is not
decoded, 07 R241; nor is anything of the Towers after their power-down, 15 R485, R504). -/
def State.kind (s : State) (a : Nat) : Option Kind :=
  if s.heat.towersOff ∧ a < unitBase then none
  else if a < s.mem.dramEnd then some .dram
  else if towerSramBase ≤ a ∧ a < towerSramBase + 0x40000000 then
    let o := a - towerSramBase
    if tget false s.mem.bankOff (o / 0x4000000) then none else some (.towerSram (o / 0x10000000))
  else if domeStoreBase ≤ a ∧ a < domeStoreBase + 0x10000000 then some (.domeStore ((a - domeStoreBase) / 0x1000000))
  else if spireStoreBase ≤ a ∧ a < spireStoreBase + 0x10000000 then some (.spireStore ((a - spireStoreBase) / 0x400000))
  else if unitBase ≤ a ∧ a < unitBase + 0x100000000 then some .unit
  else if hostBase ≤ a ∧ a < 2 * hostBase then some .host
  else none

/-- A range of `n ≥ 1` bytes lies wholly in one decoded range of one kind. -/
def State.kindRange (s : State) (a n : Nat) : Option Kind :=
  match s.kind a with
  | some k => if n = 0 ∨ s.kind (a + n - 1) = some k then some k else none
  | none => none

/-- The range lies in DRAM or Tower SRAM; `none` in both where it does not. -/
def State.inOneOf (s : State) (a n : Nat) : Bool :=
  match s.kindRange a n with
  | some .dram => true
  | some (.towerSram _) => true
  | _ => false

/-- A range overlaps the system partition's reservation (06 R527). -/
def overlapsReservation (a n : Nat) : Bool :=
  (List.range 4).any fun t =>
    let b := towerSramBase + t * 0x10000000 + 0xF000000
    decide (a < b + 0x1000000) && decide (b < a + n)

/-- A range lies in the system partition's reservation (06 R527). -/
def inReservation (a n : Nat) : Bool :=
  (List.range 4).any fun t =>
    let b := towerSramBase + t * 0x10000000 + 0xF000000
    decide (b ≤ a) && decide (a + n ≤ b + 0x1000000)

/-- A range lies inside one range of a partition's REGION. -/
def Partition.inRegion (p : Partition) (a n : Nat) : Bool :=
  p.regions.any fun r => decide (r.1 ≤ a) && decide (a + n ≤ r.1 + r.2)

/-! ### Dies and routes (01 R18 to R20) -/

/-- The I/O die a Tower touches (01 R19). -/
def nearIo (t : Nat) : Nat := if t = 0 ∨ t = 3 then 0 else 1

/-- The Tower beside a Tower that touches the other I/O die (01 R19). -/
def acrossTower (t : Nat) : Nat := if t % 2 = 0 then t + 1 else t - 1

/-- The dies traffic passes after its source, its destination among them (01 R20). -/
def dieRoute : Die → Die → List Die
  | .tower a, .tower b =>
    if a = b then [] else if (b + 4 - a) % 4 = 2 then [.tower ((a + 1) % 4), .tower b] else [.tower b]
  | .io s, .tower t => if nearIo t = s then [.tower t] else [.tower (acrossTower t), .tower t]
  | .tower t, .io s => if nearIo t = s then [.io s] else [.tower (acrossTower t), .io s]
  | .io a, .io b => if a = b then [] else if a = 0 then [.tower 0, .tower 1, .io 1] else [.tower 2, .tower 3, .io 0]

/-- The Tower Scheduler's egress port on the way from a die to the next, as 3 * Tower + port (CW, CCW, IO); an I/O die's own
ports keep no credit (07 R265). -/
def hopPort : Die → Die → Option Nat
  | .tower a, .tower b => some (3 * a + if b = (a + 1) % 4 then 0 else 1)
  | .tower a, .io _ => some (3 * a + 2)
  | .io _, _ => none

/-- The egress ports of a way that starts at a die. -/
def hopPorts : Die → List Die → List Nat
  | _, [] => []
  | a, b :: t => (hopPort a b).toList ++ hopPorts b t

/-- The egress ports traffic between two dies passes (01 R20; 07 R265). -/
def egressPorts (a b : Die) : List Nat := hopPorts a (dieRoute a b)

/-- The I/O die a die reaches first on its way to one; an I/O die is its own (01 R20, R42). -/
def Die.near : Die → Nat
  | .tower t => nearIo t
  | .io s => s

/-- The outer link site of a base die (01 R25). -/
inductive OuterSite where
  | w | n
  deriving DecidableEq, Repr

/-- The site that becomes P2 for a rotation (01 R25). -/
def p2Site (rot : Nat) : OuterSite := if rot % 2 = 0 then .w else .n

/-- The global interleave (07 R251): channel and channel data address. -/
def globalMap (a : Nat) : Nat × Nat :=
  let g := a / 256 % 2 ^ 28
  (nbits g 5 0 ^^^ nbits g 11 6 ^^^ nbits g 17 12 ^^^ nbits g 23 18 ^^^ nbits g 27 24, g / 64 * 256 + a % 256)

/-- A Tower-local address (07 R252), with `o` the offset in the local region and `lmax` of 01 R43. -/
def localMap (t lmax o : Nat) : Nat × Nat :=
  let h := o / 256 % 2 ^ 26
  let cw := nbits h 3 0 ^^^ nbits h 7 4 ^^^ nbits h 11 8 ^^^ nbits h 15 12 ^^^ nbits h 19 16 ^^^ nbits h 23 20
    ^^^ nbits h 25 24
  (16 * t + cw, (15 - lmax) * 64 * mib + h / 16 * 256 + a_low o)
where
  /-- The byte within the granule. -/
  a_low (o : Nat) : Nat := o % 256

/-- Channel and channel data address of a DRAM address (07 R251, R252). -/
def State.dramMap (s : State) (a : Nat) : Nat × Nat :=
  if a < s.mem.g * gib then globalMap a
  else
    let t := if a < s.mem.localStart 1 * gib then 0 else if a < s.mem.localStart 2 * gib then 1
      else if a < s.mem.localStart 3 * gib then 2 else 3
    localMap t s.mem.lmax (a - s.mem.localStart t * gib)

/-- Row of a channel data address (07 R250). -/
def rowOf (a : Nat) : Nat := a / 2 ^ 15

/-- Bank of a channel data address (07 R250). -/
def bankOf (a : Nat) : Nat := nbits a 14 11 ^^^ nbits (rowOf a) 3 0

/-- Line within the row (07 R250). -/
def lineOf (a : Nat) : Nat := nbits a 10 6

/-- The check row of a line and the first of its four check bytes (07 R250). -/
def checkOf (a : Nat) : Nat × Nat := (30720 + rowOf a / 16, 128 * (rowOf a % 16) + 4 * lineOf a)

/-- Answer a read. -/
def State.answer (s : State) (data : List Byte) (poison : Bool) : State :=
  { s with host := { s.host with read := { data := data, poison := poison, refused := false } } }

/-- One byte at a device address. -/
def State.byte (s : State) (a : Nat) : Byte := memByte s.mem.bytes a

/-- Bytes from a device address. -/
def State.rd (s : State) (a n : Nat) : List Byte := memBytes s.mem.bytes a n

/-- A little-endian number at a device address. -/
def State.rdNat (s : State) (a n : Nat) : Nat := memNat s.mem.bytes a n

/-- Mark the 4 KiB granules of a range written (10 R361). -/
def markDirty (t : Tab Bool) (a n : Nat) : Tab Bool :=
  if n = 0 then t
  else (List.range ((a + n - 1) / 4096 + 1 - a / 4096)).foldl (fun t i => tput false t (a / 4096 + i) true) t

/-- Store bytes at a device address; while the twin is paired the write is tracked (10 R361). -/
def State.wr (s : State) (a : Nat) (bs : List Byte) : State :=
  { s with mem := { s.mem with
      bytes := memStore s.mem.bytes a bs
      dirty := if s.tw.st = 1 then markDirty s.mem.dirty a bs.length else s.mem.dirty } }

/-- Make a range of memory zero, its uncorrectable words with it (14 R464). -/
def State.zero (s : State) (a n : Nat) : State :=
  { s with mem := { s.mem with
      bytes := memZero s.mem.bytes a n
      bad := s.mem.bad.filter fun c => decide (c.1 < a / 8) || decide ((a + n) / 8 ≤ c.1) } }

/-- The word (SRAM) or line (DRAM) an address belongs to, as a key of the uncorrectable marks: its first DA / 8. -/
def State.cellOf (s : State) (a : Nat) : Nat := if s.kind a = some .dram then a / 64 * 8 else a / 8

/-- The word or line of an address is uncorrectable. -/
def State.isBad (s : State) (a : Nat) : Bool := tget false s.mem.bad (s.cellOf a)

/-- Some word or line of a range is uncorrectable (07 R243). -/
def State.anyBad (s : State) (a n : Nat) : Bool :=
  s.mem.bad.any fun c => c.2 && decide (a < 8 * c.1 + (if s.kind (8 * c.1) = some .dram then 64 else 8)) &&
    decide (8 * c.1 < a + n)

/-- Mark or clear the word or line of an address. -/
def State.setBad (s : State) (a : Nat) (b : Bool) : State :=
  { s with mem := { s.mem with bad := tput false s.mem.bad (s.cellOf a) b } }

/-- The unit that records an error of a memory cell: a Spire, a Dome, a Tower SRAM bank or a channel controller (09
R343). -/
def State.memUnit (s : State) (a : Nat) : Nat :=
  match s.kind a with
  | some .dram => srcChan (s.dramMap a).1
  | some (.towerSram t) => srcTower t ((a - towerSramBase) / 0x4000000 % 4)
  | some (.domeStore d) => srcDome d
  | some (.spireStore sp) => sp
  | _ => s.srcMbx

/-- The address a memory unit records: the device address, or the channel data address at a controller (09 R344). -/
def State.memAddr (s : State) (a : Nat) : Nat := if s.kind a = some .dram then (s.dramMap a).2 else a

end Sys2Proof.Machine
end

