-- ==== Sys2Proof/Machine/Queues.lean ====
section
/-! DEFINITION. Spill Queues (07 R268 to R276) and the Event Queue's registers (12 R423 to R429). -/

namespace Sys2Proof.Machine

/-- The unit that owns a queue (07 R276): the active mailboxes and Event Queue unit, a receive port, a Planning
Engine, or for stream `16 * j + d` of a partition Dome `d` (log 6). -/
def State.queueUnit (s : State) : QueueId → Nat
  | .evq => s.srcMbx
  | .ingress p => srcIo (p.val / 8) (0x10 + p.val % 8)
  | .plan e => srcIo e.val 3
  | .stream _ i => srcDome (i % 16)

/-- The endpoint of the I/O die a queue's unit reaches first (01 R20, R42): its own die, or the die its Tower touches. -/
def State.queueHome (s : State) : QueueId → Nat
  | .evq => s.saf.active
  | .ingress p => p.val / 8
  | .plan e => e.val
  | .stream _ i => if i % 16 / 4 = 1 ∨ i % 16 / 4 = 2 then 1 else 0

/-- The ring lies in host memory and its endpoint issues no request (07 R274). -/
def State.ringUnreachable (s : State) (q : SpillQ) : Bool := decide (hostBase ≤ q.base) && !s.epSends q.via

/-- An event word that is urgent (12 R426). -/
def State.urgent (s : State) (w : Nat) : Bool :=
  let cls := nbits w 61 56
  let code := nbits w 39 32
  decide (cls = 0x0A) || (decide (cls = 8) && (decide (code = 1) || decide (code = 5))) ||
    (decide (cls = 1) && decide (3 ≤ (s.errRec (nbits w 55 40)).level))

/-- A push of one word into a queue other than the Event Queue (07 R271): accepted, dropped, or held at the producer. A
push into a disabled queue is refused: a DROP queue counts it, a STALL queue's producer waits (log 6). -/
def SpillQ.push (q : SpillQ) (w : W64) : SpillQ :=
  if q.enable ∧ 1 ≤ q.room then q.accept w
  else if q.drop then { q with dropped := satAdd 32 q.dropped 1, overflow := true }
  else { q with stalled := q.stalled ++ [w] }

/-- A push of a word (07 R271). -/
def State.sqPush (s : State) (q : QueueId) (w : W64) : State :=
  match q with
  | .evq =>
    let s' := s.pushGroup [w]
    if s.urgent w.toNat then s'.msix s'.host.irq.ep 65 else s'
  | q => s.setQ q.key ((s.q q.key).push w)

/-- SQ_PUSH (07 R271). -/
def execSqPush (q : QueueId) (payload : BitVec 62) (poison : Bool) (s : State) : Host.Outcome State Fault Refusal :=
  .next (s.sqPush q (sqWord payload.toNat poison))

/-- SQ_STALLED_PUSH_ACCEPT (07 R271): the oldest push that waits is accepted once there is room. -/
def execSqStalledPushAccept (q : QueueId) (s : State) : Host.Outcome State Fault Refusal :=
  let v := s.q q.key
  match v.stalled with
  | w :: rest => .next (if v.enable ∧ 1 ≤ v.room then s.setQ q.key { v.accept w with stalled := rest } else s)
  | [] => .next s

/-- The word as delivered: bit 63 set, bit 62 set when parity fails or the backing read was poisoned (07 R269, R270). -/
def deliver (w : W64) (backPoison : Bool) : W64 :=
  let bad := parityOf w.toNat 64 || backPoison
  BitVec.ofNat 64 (w.toNat % 2 ^ 63 ||| 2 ^ 63 ||| (if bad then 2 ^ 62 else 0))

/-- Take the word `w`, the oldest of the head, out of a queue: its parity and its backing read's poison `bp` are noted (07 R270). -/
def State.takeHead (s : State) (q : QueueId) (w : W64) (bp : Bool) : State :=
  let v := s.q q.key
  let perr := parityOf w.toNat 64
  let s := s.setQ q.key { v with
    head := v.head.tail, parity := v.parity || perr, spillPoison := v.spillPoison || (bp && !perr) }.settle
  if perr then s.record (s.queueUnit q) 8 lvMasked {} else if bp then s.record (s.queueUnit q) 9 lvMasked {} else s

/-- Deliver the oldest head word, with `flip` the bits a fault has changed while it was held (07 R270). -/
def State.popHead (s : State) (q : QueueId) (flip : W64) : State :=
  match (s.q q.key).head with
  | [] => s
  | (w, bp) :: _ =>
    let w := w ^^^ flip
    (s.takeHead q w bp).answer (leBytes 8 (deliver w bp).toNat) (parityOf w.toNat 64 || bp)

/-- A pop of an empty queue sets ARMED of the Event Queue (12 R425). -/
def State.popEmpty (s : State) (q : QueueId) : State :=
  let s := s.answer (leBytes 8 0) false
  match q with
  | .evq => { s with host := { s.host with irq := { s.host.irq with armed := true, holdoffAt := none } } }
  | _ => s

/-- SQ_POP (07 R270; 12 R423: only an 8-byte read pops the Event Queue). -/
def execSqPop (q : QueueId) (wide : Bool) (flip : W64) (s : State) : Host.Outcome State Fault Refusal :=
  if !wide then .next (s.answer (leBytes 4 0) false)
  else
    let v := (s.q q.key).settle
    let s := s.setQ q.key v
    if !v.head.isEmpty then .next (s.popHead q flip)
    else if v.mid.isEmpty || v.linkLost then .next (s.popEmpty q)
    else .next (s.setQ q.key { v with popWait := v.popWait + 1 })

/-- A run of up to 8 words moves from the ring into the head; `poison` are the places in the run whose backing read
was poisoned. -/
def SpillQ.refill (q : SpillQ) (poison : List Nat) : SpillQ :=
  let n := min 8 (16 - q.head.length)
  let run := (List.range n).zipWith (fun i w => (w, decide (i ∈ poison))) (q.mid.take n)
  { q with head := q.head ++ run, mid := q.mid.drop n }

/-- Serve pops that wait, oldest first. -/
def State.serveWaiting (s : State) (q : QueueId) : Nat → State
  | 0 => s
  | n + 1 =>
    let v := s.q q.key
    if v.popWait = 0 ∨ v.head.isEmpty then s
    else ((s.setQ q.key { v with popWait := v.popWait - 1 }).popHead q 0).serveWaiting q n

/-- SQ_REFILL_DONE (07 R270, R275): a refill completes; after a link's return it also ends the link's loss. -/
def execSqRefillDone (q : QueueId) (poison : List Nat) (s : State) : Host.Outcome State Fault Refusal :=
  let v := s.q q.key
  if s.ringUnreachable v then .next s
  else
    let v := ({ v with linkLost := false }).refill poison
    .next ((s.setQ q.key v.settle).serveWaiting q 16)

/-- SQ_DROPPED_READ (07 R272): the count is returned and cleared. -/
def execSqDroppedRead (q : QueueId) (s : State) : Host.Outcome State Fault Refusal :=
  let v := s.q q.key
  .next ((s.setQ q.key { v with dropped := 0 }).answer (leBytes 8 v.dropped) false)

/-- The ring's place is allowed (07 R273; 06 R527). -/
def State.ringOk (s : State) (q : QueueId) (v : SpillQ) : Bool :=
  let n := 8 * v.size
  match q with
  | .evq =>
    (decide (v.base = evqRing) && decide (v.size ≤ 4096)) || decide (s.kindRange v.base n = some .host)
  | .stream p _ =>
    match s.kindRange v.base n with
    | some .dram | some (.towerSram _) | some .host =>
      if p.val = 0 then inReservation v.base n else (s.part p.val).inRegion v.base n && !overlapsReservation v.base n
    | _ => false
  | _ => inReservation v.base n && s.inOneOf v.base n

/-- A write to SQ_CTRL (07 R273, R275; 12 R423: the Event Queue's policy is fixed). -/
def State.sqCtrl (s : State) (q : QueueId) (v : W64) : State :=
  let x := s.q q.key
  let en := v.getLsbD 0
  let pol := v.getLsbD 1
  if en && !x.enable && (x.spillFault || !s.ringOk q x) then s.setQ q.key { x with cfgReject := true }
  else
    let free := !x.enable && decide (x.count = 0)
    let evq := decide (q = .evq)
    s.setQ q.key { x with
      enable := en
      via := if en && !x.enable then s.route (s.queueHome q) else x.via
      drop := if free && !evq then pol else x.drop
      cfgReject := x.cfgReject || (!free && !evq && decide (pol ≠ x.drop)) }

/-- SQ_CTRL_WRITE (07 R273, R275). -/
def execSqCtrlWrite (q : QueueId) (v : W64) (s : State) : Host.Outcome State Fault Refusal := .next (s.sqCtrl q v)

/-- A ring size R272 allows. -/
def sizeOk (n : Nat) : Bool := (List.range 15).any fun i => decide (n = 2 ^ (i + 6))

/-- A write to SQ_SIZE or SQ_BASE (07 R272, R273). -/
def State.sqConfig (s : State) (q : QueueId) (isSize : Bool) (v : W64) : State :=
  let x := s.q q.key
  let n := v.toNat % 2 ^ 21
  if (isSize && !sizeOk n) || x.enable || decide (x.count ≠ 0) then s.setQ q.key { x with cfgReject := true }
  else if isSize then s.setQ q.key { x with size := n }
  else s.setQ q.key { x with base := v.toNat % 2 ^ 52 / 64 * 64 }

/-- SQ_CONFIG_WRITE (07 R272, R273). -/
def execSqConfigWrite (q : QueueId) (isSize : Bool) (v : W64) (s : State) : Host.Outcome State Fault Refusal :=
  .next (s.sqConfig q isSize v)

/-- The W1C bits of SQ_STATUS (07 R272). -/
def State.sqStatus (s : State) (q : QueueId) (v : W64) : State :=
  let x := s.q q.key
  s.setQ q.key { x with
    overflow := x.overflow && !v.getLsbD 0, parity := x.parity && !v.getLsbD 1
    spillPoison := x.spillPoison && !v.getLsbD 2, spillFault := x.spillFault && !v.getLsbD 3
    cfgReject := x.cfgReject && !v.getLsbD 4 }

/-- A write to EVQ_IRQ (12 R423, R425): THRESHOLD 0 is stored as 1; the writing endpoint carries the vector from now on. -/
def State.evqIrq (s : State) (ep : Nat) (v : W64) : State :=
  let armed := v.getLsbD 32
  { s with host := { s.host with irq :=
    { armed := armed, holdoffUs := bits v 31 16, threshold := max 1 (bits v 15 0), ep := ep
      holdoffAt := if armed then s.host.irq.holdoffAt else none } } }

/-- EVQ_IRQ_WRITE (12 R423, R425). -/
def execEvqIrqWrite (ep : Fin 2) (v : W64) (s : State) : Host.Outcome State Fault Refusal := .next (s.evqIrq ep.val v)

/-- EVQ_HOLDOFF_EXPIRY (12 R425): HOLDOFF_US has passed since the first push while armed. -/
def execEvqHoldoffExpiry (s : State) : Host.Outcome State Fault Refusal :=
  match s.host.irq.holdoffAt with
  | some t => if s.host.irq.armed then .next ((s.elapseTo t).fireIrq) else .next s
  | none => .next s

end Sys2Proof.Machine
end

