-- ==== Sys2Proof/Machine/Crc.lean ====
section
/-! DEFINITION. The cyclic codes the manual names: CRC-64 (ECMA-182, 09 R327), CRC-32 (IEEE 802.3, 09 R319) and CRC-8. -/

namespace Sys2Proof.Machine

/-- `n` steps of a `w`-bit remainder, most significant bit first. -/
def crcSteps (w poly : Nat) : Nat → Nat → Nat
  | 0, r => r
  | n + 1, r => crcSteps w poly n (if r.testBit (w - 1) then (r * 2 % 2 ^ w) ^^^ poly else r * 2 % 2 ^ w)

/-- One byte, most significant bit first. -/
def crcByte (w poly r : Nat) (b : Byte) : Nat := crcSteps w poly 8 (r ^^^ b.toNat * 2 ^ (w - 8))

/-- CRC-64 (ECMA-182) with the parameters of 09 R327. -/
def crc64 (bs : List Byte) : Nat := bs.foldl (crcByte 64 0x42F0E1EBA9EA3693) 0

/-- `n` steps of a reflected remainder. -/
def crcReflSteps (poly : Nat) : Nat → Nat → Nat
  | 0, r => r
  | n + 1, r => crcReflSteps poly n (if r % 2 = 1 then r / 2 ^^^ poly else r / 2)

/-- CRC-32 of IEEE 802.3. -/
def crc32 (bs : List Byte) : Nat :=
  (bs.foldl (fun r b => crcReflSteps 0xEDB88320 8 (r ^^^ b.toNat)) 0xFFFFFFFF) ^^^ 0xFFFFFFFF

/-- A CRC-8 with a polynomial and initial value, most significant bit first. -/
def crc8 (poly init : Nat) (bs : List Byte) : Nat := bs.foldl (crcByte 8 poly) init

end Sys2Proof.Machine
end

