-- ==== Sys2Proof/Machine/Lmp.lean ====
section
/-! DEFINITION. How firmware takes, checks, runs and completes a command (12 R416 to R420; 13 R434 to R438). -/

namespace Sys2Proof.Machine

abbrev stOk : Nat := 0
abbrev stVersion : Nat := 0x0101
abbrev stArg : Nat := 0x0102
abbrev stState : Nat := 0x0103
abbrev stBusy : Nat := 0x0104
abbrev stStale : Nat := 0x0105
abbrev stNoMemory : Nat := 0x0106
abbrev stAuth : Nat := 0x0107
abbrev stTimeout : Nat := 0x0108
abbrev stSafetyLock : Nat := 0x0109
abbrev stConflict : Nat := 0x010A
abbrev stUnsupported : Nat := 0x010B

/-- Mailbox states (12 R416). -/
abbrev mbFree : Nat := 0
abbrev mbFilling : Nat := 1
abbrev mbSubmitted : Nat := 2
abbrev mbBusy : Nat := 3
abbrev mbDone : Nat := 4

/-- Who may send an opcode (13 R436). -/
inductive Scope where
  | admin | client | any
  deriving DecidableEq, Repr

/-- Scope and fixed payload length of an opcode; `none` for a length the payload decides (13 R436). -/
def opcodeInfo : Nat → Option (Scope × Option Nat)
  | 0x0001 => some (.any, some 8) | 0x0002 => some (.any, some 0) | 0x0003 => some (.admin, some 8)
  | 0x0010 => some (.admin, some 136) | 0x0011 => some (.admin, some 8) | 0x0012 => some (.admin, some 8)
  | 0x0020 => some (.client, some 24) | 0x0021 => some (.client, some 8)
  | 0x0030 => some (.client, none) | 0x0031 => some (.client, none) | 0x0032 => some (.any, some 8)
  | 0x0040 => some (.client, some 16) | 0x0041 => some (.client, some 8) | 0x0042 => some (.client, some 8)
  | 0x0043 => some (.client, none) | 0x0044 => some (.client, some 16)
  | 0x0050 => some (.client, some 80) | 0x0051 => some (.client, some 8) | 0x0052 => some (.client, some 168)
  | 0x0060 => some (.client, some 16) | 0x0061 => some (.client, some 8) | 0x0062 => some (.client, some 8)
  | 0x0070 => some (.admin, none) | 0x0071 => some (.any, some 8) | 0x0072 => some (.admin, some 16)
  | 0x0073 => some (.any, some 0) | 0x0080 => some (.admin, some 480) | 0x0081 => some (.admin, some 8)
  | 0x0082 => some (.admin, some 8) | 0x0090 => some (.any, some 8) | 0x00A0 => some (.any, some 24)
  | 0x00A1 => some (.admin, some 128) | 0x00B0 => some (.admin, some 24) | 0x00C0 => some (.any, some 8)
  | 0x00C1 => some (.any, some 8) | 0x00D0 => some (.any, some 8) | 0x00E0 => some (.admin, some 8)
  | 0x00F0 => some (.admin, some 16) | 0x00F1 => some (.admin, some 8)
  | _ => none

/-- What a command runs with: its mailbox (or Lantern), the partition that holds it, its payload. `forwarded` marks
one applied for the twin partner (10 R360). -/
structure Ctx where
  m : Nat
  part : Nat
  pl : List Byte
  i3c : Bool := false
  ep : Nat := 0
  forwarded : Bool := false
  deriving DecidableEq, Repr

/-- A payload field of `n` bytes (00 R8). -/
def Ctx.fld (c : Ctx) (off n : Nat) : Nat := leNat ((c.pl.drop off).take n)
/-- A u8 field. -/
abbrev Ctx.u8 (c : Ctx) (off : Nat) : Nat := c.fld off 1
/-- A u16 field. -/
abbrev Ctx.u16 (c : Ctx) (off : Nat) : Nat := c.fld off 2
/-- A u32 field. -/
abbrev Ctx.u32 (c : Ctx) (off : Nat) : Nat := c.fld off 4
/-- A u64 field. -/
abbrev Ctx.u64 (c : Ctx) (off : Nat) : Nat := c.fld off 8
/-- A DA field: bits [63:48] are zero (13 R434). -/
def Ctx.daOk (c : Ctx) (off : Nat) : Bool := decide (c.u64 off < 2 ^ 48)

/-- How a command ends: completed, or holding its mailbox (13 R438). -/
inductive LmpRes where
  | done (status detail : Nat) (out : List Byte) (s : State)
  | wait (w : Wait) (s : State)

/-- A refused command: nothing else happens (13 R435). -/
abbrev LmpRes.refuse (status detail : Nat) (s : State) : LmpRes := .done status detail [] s

/-- The first check that fails, with its DETAIL. -/
def firstBad : List (Bool × Nat) → Option Nat
  | [] => none
  | (ok, d) :: t => if ok then firstBad t else some d

/-- The first condition that holds, with its status and DETAIL. -/
def firstHit : List (Bool × Nat × Nat) → Option (Nat × Nat)
  | [] => none
  | (hit, st, d) :: t => if hit then some (st, d) else firstHit t

/-- Run a body after range checks (ST_E_ARG with the failing offset) and conditions (13 R435). -/
def checked (s : State) (fields : List (Bool × Nat)) (conds : List (Bool × Nat × Nat)) (body : Unit → LmpRes) : LmpRes :=
  match firstBad fields with
  | some d => .refuse stArg d s
  | none =>
    match firstHit conds with
    | some (st, d) => .refuse st d s
    | none => body ()

/-- Fields of MBX_HDR (12 R416). -/
def Mailbox.opcode (b : Mailbox) : Nat := bits b.hdr 15 0
def Mailbox.tag (b : Mailbox) : Nat := bits b.hdr 31 16
def Mailbox.hdrGen (b : Mailbox) : Nat := bits b.hdr 39 32
def Mailbox.length (b : Mailbox) : Nat := bits b.hdr 55 40
def Mailbox.hdrVersion (b : Mailbox) : Nat := bits b.hdr 63 56

/-- The payload of a mailbox. -/
def Mailbox.bytes (b : Mailbox) (n : Nat) : List Byte := memBytes b.payload 0 n

/-- MBX_STATUS of a completion (12 R416). -/
def Mailbox.statusWord (b : Mailbox) (status detail : Nat) : W64 :=
  BitVec.ofNat 64 (b.hdrGen * 2 ^ 48 + b.tag * 2 ^ 32 + detail % 2 ^ 16 * 2 ^ 16 + status % 2 ^ 16)

/-- The configuration epoch rises by 1 (10 R375). -/
def State.bump (s : State) : State := { s with cfgEpoch := (s.cfgEpoch + 1) % 2 ^ 32 }

/-- An opcode with this payload changes configuration when it is accepted (10 R360, R373, R375; log 20). RESOURCE_CLAIM and
RESOURCE_RELEASE count for themselves. -/
def changesConfig (op : Nat) (pl : List Byte) : Bool :=
  match op with
  | 0x0011 => decide (leNat ((pl.drop 1).take 1) = 0)
  | 0x0070 => decide (leNat ((pl.drop 8).take 2) < 0x10)
  | 0x00B0 => decide (leNat (pl.take 1) = 2)
  | 0x0003 | 0x0010 | 0x0012 | 0x0020 | 0x0021 | 0x0040 | 0x0041 | 0x0042 | 0x0043 | 0x0044 | 0x0050 | 0x0051 | 0x0060
  | 0x0080 | 0x0081 | 0x00E0 => true
  | _ => false

/-- Completion: payload, MBX_STATUS, DONE, then MSI-X vector m (12 R420). -/
def State.complete (s : State) (m status detail : Nat) (out : List Byte) : State :=
  let b := s.mbx m
  let s := if status = stOk ∧ changesConfig b.opcode (b.bytes b.length) then s.bump else s
  (s.modMbx m fun b => { b with
    payload := memStore b.payload 0 out, status := b.statusWord status detail, st := mbDone, wait := none }).msix b.goEp m

/-- Complete a mailbox that waits; nothing where it does not wait for this. -/
def State.finish (s : State) (m : Nat) (w : Wait) (status detail : Nat) (out : List Byte) : State :=
  if (s.mbx m).st = mbBusy ∧ (s.mbx m).wait = some w then s.complete m status detail out else s

/-- Complete every mailbox that waits for `w`. -/
def State.finishAll (s : State) (w : Wait) (status detail : Nat) (out : List Byte) : State :=
  (List.range 64).foldl (fun s m => s.finish m w status detail out) s

/-- A mailbox waits for `w`. -/
def State.waits (s : State) (w : Wait) : Bool := (List.range 64).any fun m => decide ((s.mbx m).wait = some w)

/-- Apply a result to a command taken from mailbox `m`. -/
def LmpRes.apply (m : Nat) : LmpRes → State
  | .done status detail out s => s.complete m status detail out
  | .wait w s => s.modMbx m fun b => { b with wait := some w }

/-- The unit whose record counts the stale identifiers of an opcode (06 R235): Batch Builder, Cupola, Planning Engine. -/
def State.staleUnit (s : State) (op : Nat) : Option Nat :=
  if op = 0x30 ∨ op = 0x31 ∨ (0x40 ≤ op ∧ op ≤ 0x44) then some (srcIo s.saf.bbActive 4)
  else if op = 0x32 then some (srcIo s.saf.active 1)
  else if 0x60 ≤ op ∧ op ≤ 0x62 then some (srcIo (if tget false s.saf.engineOut 0 then 1 else 0) 3)
  else none

/-- A command refused for a stale identifier is counted (06 R236). -/
def LmpRes.counted (op : Nat) : LmpRes → LmpRes
  | .done status detail out s =>
    if status = stStale then match s.staleUnit op with
      | some u => .done status detail out (s.stale u)
      | none => .done status detail out s
    else .done status detail out s
  | .wait w s => .wait w s

/-- The next SUBMITTED mailbox in round-robin order (12 R419). -/
def State.nextMbx (s : State) : Option Nat :=
  (findLow (fun i => decide ((s.mbx ((s.host.last + 1 + i) % 64)).st = mbSubmitted)) 64 0).map
    fun i => (s.host.last + 1 + i) % 64

/-- Scope and payload length (13 R435 steps 1 and 2). -/
def scopeCheck (op m len : Nat) : Option (Nat × Nat) :=
  match opcodeInfo op with
  | none => some (stUnsupported, 0)
  | some (scope, fixed) =>
    if (scope = .admin ∧ m ≠ 0) ∨ (scope = .client ∧ m = 0) then some (stAuth, 0)
    else match fixed with
      | some n => if len = n then none else some (stArg, 0xFFFF)
      | none => none

/-- The context of mailbox `m`'s command. -/
def State.ctx (s : State) (m : Nat) : Ctx :=
  let b := s.mbx m
  { m := m, part := if m = 0 then 0 else b.partition, pl := b.bytes b.length, ep := b.goEp }

/-- The header checks firmware makes before anything else: status and DETAIL of the first that fails (12 R419; the
version's DETAIL is LMP_MAX, 13 R439). -/
def Mailbox.header (b : Mailbox) (m : Nat) : Option (Nat × Nat) :=
  firstHit
    [(decide (m ≠ 0 ∧ b.partition = 0xFF), stAuth, 0),
     (decide (b.hdrGen ≠ b.gen), stStale, 0xFFFF),
     (decide (4032 < b.length), stArg, 0xFFFF),
     (decide (b.opcode ≠ 0x0001 ∧ b.version ≠ some b.hdrVersion), stVersion, 1),
     ((opcodeInfo b.opcode).isNone, stUnsupported, 0)]

/-- Firmware takes the command of mailbox `m`. -/
def State.takeMbx (s : State) (m : Nat) : State :=
  let s := s.modMbx m fun b => { b with st := mbBusy }
  { s with host := { s.host with last := m } }

/-- A command whose header fails ends at once with no other effect; a stale mailbox generation is counted by the active
Cupola (06 R235, R236). -/
def State.rejectHeader (s : State) (m st d : Nat) : State :=
  let s := if st = stStale then s.stale (srcIo s.saf.active 1) else s
  s.complete m st d []

/-- Reject the commands next in turn whose header fails. -/
def State.rejectHeaders (s : State) : Nat → State
  | 0 => s
  | fuel + 1 =>
    match s.nextMbx with
    | none => s
    | some m =>
      match (s.mbx m).header m with
      | none => s
      | some (st, d) => ((s.takeMbx m).rejectHeader m st d).rejectHeaders fuel

/-- Firmware takes the command of mailbox `m` when it is the next, a Cupola serves the mailboxes and its opcode (and sub-key) is
this row's; `body` is what it does. Where any of this does not hold nothing happens (log 7). Commands behind it whose header
fails are rejected as their turn comes (12 R419). -/
def State.lmp (s : State) (m : Nat) (isRow : Nat → Ctx → Bool) (body : Ctx → State → LmpRes) : State :=
  let b := s.mbx m
  let c := s.ctx m
  if s.cupolaServes && decide (s.nextMbx = some m) && isRow b.opcode c then
    let s := s.takeMbx m
    let s := match b.header m with
      | some (st, d) => s.rejectHeader m st d
      | none => match scopeCheck b.opcode m b.length with
        | some (st, d) => s.complete m st d []
        | none => ((body c s).counted b.opcode).apply m
    s.rejectHeaders 64
  else s

/-! ### Commands on shared sections (10 R356, R360) -/

/-- This member publishes partition `p` (10 R357): one that is not mirrored is its own. -/
def State.publishes (s : State) (p : Nat) : Bool := !(decide (s.tw.st = 1) && s.tw.mirror.getLsbD p) || s.tw.pub.getLsbD p

/-- A partition mirrored by a paired twin. -/
def State.mirrored (s : State) (p : Nat) : Bool := decide (s.tw.st = 1) && s.tw.mirror.getLsbD p

/-- This member runs the standby copy of a DUAL_COMPARE partition (10 R358). -/
def State.compareStandby (s : State) (p : Nat) : Bool := s.mirrored p && !s.publishes p && decide (s.tw.mode = 2)

/-- What the pair holds of partition `p`. -/
def State.twp (s : State) (p : Nat) : TwinPart := tget {} s.tw.parts p

/-- Change what the pair holds of partition `p`. -/
def State.modTwp (s : State) (p : Nat) (f : TwinPart → TwinPart) : State :=
  { s with tw := { s.tw with parts := tmod {} s.tw.parts p f } }

/-- The class of a message (10 R353): 0 TIME, 1 CONTROL, 2 MIRROR. -/
def twinClass : TwinMsg → Fin 4
  | .time | .packageDecision | .takeoverRequest _ | .roots _ _ | .idle => 0
  | .delta _ _ _ | .copy _ _ _ => 2
  | .signatures _ _ _ | .auth _ _ | .command _ _ _ | .commandAck _ | .launchAt _ _ _ _ | .launchAnswer _ _ _ _
  | .launchLog _ _ _ _ _ | .logAck _ _ | .published _ _ | .mirrorAck _ _ | .nonce _ _ _ => 1

/-- A port sends what waits, the classes in strict priority, while its replay buffer of 128 flits has room (10 R352, R353). A flit
acknowledges the last one received in order. -/
def TwinPort.pump : Nat → TwinPort → TwinPort
  | 0, p => p
  | n + 1, p =>
    if p.down || decide (128 ≤ p.replay.length) then p
    else match ([0, 1, 2, 3] : List (Fin 4)).findSome? fun k => p.out.find? fun f => decide (f.cls = k) with
      | some f => TwinPort.pump n { p with
          out := p.out.erase f, txNext := (p.txNext + 1) % 4096
          replay := p.replay ++ [{ f with seq := p.txNext, ack := (p.rxNext + 4095) % 4096 }] }
      | none => p

/-- Flits join those a port is to send. -/
def TwinPort.post (p : TwinPort) (fs : List Flit) : TwinPort :=
  TwinPort.pump (p.out.length + fs.length) { p with out := p.out ++ fs }

/-- Send a message to the partner (10 R353): TIME on both ports, others on port 0, or on port 1 while port 0 alone is down (log 138); a
CONTROL message takes the next message number. -/
def State.send (s : State) (x : TwinMsg) : State :=
  let f : Flit := { cls := twinClass x, msgSeq := if twinClass x = 1 then s.tw.txCtl else 0, msg := x }
  let down (i : Nat) : Bool := (tget {} s.tw.ports i).down
  let on (i : Nat) (t : Tab TwinPort) : Tab TwinPort := tmod {} t i fun p => p.post [f]
  { s with tw := { s.tw with
    sent := x :: s.tw.sent
    txCtl := if twinClass x = 1 then (s.tw.txCtl + 1) % 2 ^ 32 else s.tw.txCtl
    ports := if twinClass x = 0 then on 1 (on 0 s.tw.ports) else on (if down 0 && !down 1 then 1 else 0) s.tw.ports } }

/-- What happens to a command on a shared section: applied here at once, forwarded to apply on both, or refused. -/
inductive Share where
  | here | forward | refuse
  deriving DecidableEq, Repr

/-- The fate of a command about a partition, or about none: an unpaired member and a partition of its own apply at once;
otherwise the publisher or the PRIMARY forwards it (10 R356, R357, R360; log 21). -/
def State.shareOf (s : State) (p : Option Nat) : Share :=
  if s.tw.st ≠ 1 then .here
  else match p with
    | some p => if !s.tw.mirror.getLsbD p then .here else if s.publishes p then .forward else .refuse
    | none => if s.tw.role = 0 then .forward else .refuse

/-- The status of a command that the member may not take: a field or an identifier that fails is found before (13 R435 steps 2
and 3). -/
def LmpRes.refuseShared (s : State) : LmpRes → LmpRes
  | .done st d _ _ => if st = stArg ∨ st = stStale then .refuse st d s else .refuse stState 0 s
  | .wait _ _ => .refuse stState 0 s

/-- A command on a shared section: one that would be refused is refused now, an accepted one of a pair waits for the common
frame start (10 R360). -/
def shared (op : Nat) (of : Ctx → Option Nat) (body : Ctx → State → LmpRes) (c : Ctx) (s : State) : LmpRes :=
  let fwd (_ : Unit) : LmpRes := .wait .shared (({ s with tw := { s.tw with
    shared := s.tw.shared ++ [{ op := op, part := c.part, payload := c.pl, mbx := some c.m }] } } : State).send (.command op c.part c.pl))
  match s.shareOf (of c) with
  | .here => body c s
  | .refuse => (body c s).refuseShared s
  | .forward => match body c s with
    | .done st d out t => if st = stOk then fwd () else .done st d out t
    | .wait _ _ => fwd ()

/-- The partition that sends the command. -/
def ofClient (c : Ctx) : Option Nat := some c.part

/-- Rows told apart by the opcode alone. -/
def isOp (op : Nat) : Nat → Ctx → Bool := fun o _ => decide (o = op)

/-- A little-endian field of a completion. -/
abbrev le (n v : Nat) : List Byte := leBytes n v

end Sys2Proof.Machine
end

