-- ==== Sys2Proof/Machine/Mirror.lean ====
section
/-! DEFINITION. What a publisher sends its standby of a mirrored partition (10 R361, R362, R364) and how the standby applies it. -/

namespace Sys2Proof.Machine

/-- A sequence-table entry as four words (04 R114). -/
def Seq.words (q : Seq) : List Nat :=
  let b (v : Bool) (i : Nat) : Nat := if v then 2 ^ i else 0
  [q.st * 2 ^ 60 + q.gen * 2 ^ 52 + q.part * 2 ^ 44 + q.image * 2 ^ 36 + q.phase * 2 ^ 34 + q.policy * 2 ^ 32 + q.active * 2 ^ 31 +
     b q.pending 30 + q.lfmt * 2 ^ 28 + q.nl * 2 ^ 16 + q.dc64 * 2 ^ 8 + q.tpp % 256,
   q.length * 2 ^ 32 + q.maxLen, q.ptBase, q.share * 2 ^ 48 + (q.ptLen - 1) * 2 ^ 32 + q.lastEpoch]

/-- The entry that four words give, over what the Batch Builder holds of it. -/
def Seq.ofWords (q : Seq) (ws : List Nat) : Seq :=
  let a := ws.getD 0 0
  let w := ws.getD 1 0
  let d := ws.getD 3 0
  { q with
    st := nbits a 63 60, gen := nbits a 59 52, part := nbits a 51 44, image := nbits a 43 36, phase := nbits a 35 34
    policy := nbits a 33 32, active := nbits a 31 31, pending := a.testBit 30, lfmt := nbits a 29 28, nl := nbits a 23 16
    dc64 := nbits a 12 8, tpp := nbits a 7 0, length := nbits w 63 32, maxLen := nbits w 31 0, ptBase := nbits (ws.getD 2 0) 51 0
    share := nbits d 63 48, ptLen := nbits d 47 32 + 1, lastEpoch := nbits d 31 0 }

/-- The address ranges of a partition's mirror set in memory (10 R361): the persistent tensors its images declare, its
page-table copies and the KV pages in use. -/
def State.mirrorRanges (s : State) (p : Nat) : List (Nat × Nat) :=
  let x := s.part p
  (x.images.flatMap fun (i : Nat × Option Image) => match i.2 with
    | some v => v.facts.mirrorSet
    | none => []) ++
  ((s.seq.seqs.filter fun (e : Nat × Seq) => decide (e.2.part = p) && decide (e.2.st ≠ 0)).map fun (e : Nat × Seq) =>
    (e.2.ptBase, 2 * (64 * ceilDiv e.2.ptLen 16))) ++
  ((s.seq.pages.filter fun (e : Nat × PageEnt) => decide (x.kvDa / 16384 ≤ e.1) && decide (e.1 < (x.kvDa + x.kvBytes) / 16384) &&
    decide (e.2.st ≠ 0)).map fun (e : Nat × PageEnt) => (e.1 * 16384, 16384))

/-- A 4 KiB granule meets a mirror set. -/
def inMirror (rs : List (Nat × Nat)) (g : Nat) : Bool := rs.any fun r => decide (r.1 < 4096 * (g + 1)) && decide (4096 * g < r.1 + r.2)

/-- The parts of a mirror set outside memory (10 R361), with the granules given. -/
def State.deltaOf (s : State) (p : Nat) (gs : List Nat) : Delta :=
  let x := s.part p
  { granules := gs.map fun g => (g, s.rd (4096 * g) 4096)
    seqs := (s.seq.seqs.filter fun (e : Nat × Seq) => decide (e.2.part = p)).map fun (e : Nat × Seq) => (e.1, e.2.words)
    pages := (s.seq.pages.filter fun (e : Nat × PageEnt) => decide (x.kvDa / 16384 ≤ e.1) && decide (e.1 < (x.kvDa + x.kvBytes) / 16384)).map
      fun (e : Nat × PageEnt) => (e.1, e.2.refcnt * 2 ^ 48 + e.2.st * 2 ^ 45 + p * 2 ^ 32 + e.2.freedAt)
    counter := x.step
    plans := if x.role = 1 then s.plan.eng.flatMap fun (e : Nat × Engine) => (e.2.queue.filter fun r => decide (r.part = p)).map
      fun r => [e.1, r.id, r.gen, r.mbx] ++ r.desc.map (·.toNat) else [] }

/-- Send a step's delta: every granule of the mirror set written since the last one (10 R361). -/
def State.sendDelta (s : State) (p step : Nat) : State :=
  let rs := s.mirrorRanges p
  let gs := (s.mem.dirty.filter fun (e : Nat × Bool) => inMirror rs e.1).map (·.1)
  let s1 := s.send (.delta (Fin.ofNat 16 p) step (s.deltaOf p gs))
  { s1 with mem := { s1.mem with dirty := s1.mem.dirty.filter fun (e : Nat × Bool) => !inMirror rs e.1 } }

/-- A launch or step of a partition ends at its publisher (10 R361, R362, R364): delta and PUBLISHED mark go out. -/
def State.sendEnd (s : State) (p step : Nat) : State :=
  if s.mirrored p ∧ s.publishes p then
    if s.tw.mode = 2 then s.send (.published (Fin.ofNat 16 p) step)
    else
      let s := (s.sendDelta p step).send (.published (Fin.ofNat 16 p) step)
      s.modTwp p fun t => { t with ends := t.ends ++ [(step, s.sch.frame.no)] }
  else s

/-- Log a launch with the standby, where there is one (10 R359). -/
def State.logLaunch (s : State) (p m op step : Nat) (pl : List Byte) : State :=
  if s.mirrored p ∧ s.publishes p then
    let s := s.modTwp p fun t => { t with log := t.log ++ [{ step := step, op := op, payload := pl, mbx := m }] }
    s.send (.launchLog (Fin.ofNat 16 p) (Fin.ofNat 64 m) op step pl)
  else s

/-- The stream and FRAME_COUNT of a stream-bound launch's log entry, which its payload carries at 0x28 (10 R359). -/
def streamMark (pl : List Byte) : Nat × Nat := (leNat ((pl.drop 0x28).take 2), leNat ((pl.drop 0x2C).take 4))

/-- The payload is one of a stream-bound launch: its completion record address is the one no launch of the host has. -/
def isStreamLaunch (pl : List Byte) : Bool := decide (leNat ((pl.drop 0x20).take 8) = 2 ^ 63)

/-- The standby learns which step uses a held camera frame (10 R359, R362; 11 R382): frames of that stream older than it are
used by none. `job` is the launch here that uses it. -/
def State.holdFrame (s : State) (pl : List Byte) (step : Nat) (job : Option Nat) : State :=
  if !isStreamLaunch pl then s
  else
    let (key, fc) := streamMark pl
    let g (t : Tab (Option FrameUse)) (b : Nat × Option FrameUse) : Tab (Option FrameUse) :=
      match b.2 with
      | some u =>
        if u.fc = fc then tput none t b.1 (some { u with step := some step, job := job })
        else if u.job.isNone ∧ u.step.isNone ∧ (fc + 2 ^ 32 - u.fc) % 2 ^ 32 < 2 ^ 31 then tput none t b.1 none
        else t
      | none => t
    let f (x : Stream) : Stream := { x with bufs := x.bufs.foldl g x.bufs }
    { s with cam := { s.cam with streams := tmod {} s.cam.streams key f } }

/-- A challenge's nonce becomes outstanding on a slot (11 R391): one of the next 4 frames may answer it. -/
def Stream.challenged (x : Stream) (nonce : Nat) : Stream := { x with nonce := some (leBytes 32 nonce), left := 4, verify := none }

/-- The nonce the partner challenges a camera with (11 R395): a member whose binding does not own the sideband verifies against
it. -/
def State.takeNonce (s : State) (key nonce : Nat) : State :=
  let f (x : Stream) : Stream := match x.bind with
    | some b =>
      let fl := leNat ((b.pl.drop 0x20).take 1)
      if fl.testBit 1 ∧ ¬ fl.testBit 2 then x.challenged nonce else x
    | none => x
  { s with cam := { s.cam with streams := tmod {} s.cam.streams key f } }

/-- The initial copy of a mirror set, whole, complete up to the last step taken (10 R363). -/
def State.sendCopy (s : State) (p : Nat) : State :=
  let gs := (s.mirrorRanges p).flatMap fun r =>
    if r.2 = 0 then [] else (List.range ((r.1 + r.2 - 1) / 4096 + 1 - r.1 / 4096)).map fun i => r.1 / 4096 + i
  s.send (.copy (Fin.ofNat 16 p) (s.deltaOf p gs.eraseDups) (some ((s.part p).step - 1)))

/-- Apply a delta or a piece of the initial copy to this member's state (10 R361, R362). -/
def State.applyDelta (s : State) (p : Nat) (d : Delta) : State :=
  let s := d.granules.foldl (fun s (g : Nat × List Byte) => s.wr (4096 * g.1) g.2) s
  let seqs := d.seqs.foldl (fun t (e : Nat × List Nat) => tput {} t e.1 ((tget {} t e.1).ofWords e.2)) s.seq.seqs
  let pages := d.pages.foldl (fun t (e : Nat × Nat) =>
    tput {} t e.1 { refcnt := nbits e.2 63 48, st := nbits e.2 47 45, freedAt := nbits e.2 31 0 }) s.seq.pages
  let reqs (e : Nat) : List PlanReq := (d.plans.filter fun ws => decide (ws.getD 0 0 = e)).map fun ws =>
    { id := ws.getD 1 0, gen := ws.getD 2 0, mbx := ws.getD 3 0, part := p, desc := (ws.drop 4).map (BitVec.ofNat 64) }
  let f (n : Nat) (e : Engine) : Engine := { e with queue := e.queue.filter (fun r => decide (r.part ≠ p)) ++ reqs n }
  let s : State := { s with seq := { s.seq with seqs := seqs, pages := pages } }
  let s := if (s.part p).role = 1 then { s with plan := { s.plan with eng := tmod {} (tmod {} s.plan.eng 0 (f 0)) 1 (f 1) } } else s
  s.modPart p fun x => { x with step := d.counter }

end Sys2Proof.Machine
end

