-- ==== Sys2Proof/Machine/Formats.lean ====
section
/-! DEFINITION. Number formats and their arithmetic (02 R47 to R50, R54 to R66, R70, R524; 08 R286 to R288): exact values,
one rounding, the encodings. -/

namespace Sys2Proof.Machine

/-- What a code stands for: NaN, an infinity, or a sign and an exact magnitude `m * 2 ^ e`. -/
inductive FV where
  | nan
  | inf (neg : Bool)
  | fin (neg : Bool) (m : Nat) (e : Int)
  deriving DecidableEq, Repr, Inhabited

/-- Layout of a floating-point format (02 R47): exponent bits, mantissa bits, bias; whether the top exponent is IEEE's
infinities and NaNs, and whether only its all-ones mantissa is NaN (E4M3). -/
structure FLayout where
  eb : Nat
  mb : Nat
  bias : Nat
  ieee : Bool
  onesNan : Bool
  deriving DecidableEq, Repr

/-- The layouts of 02 R47 (the MX types share their elements' layout). -/
def layoutOf : Fmt → Option FLayout
  | .e4m3 | .mxE4m3 => some ⟨4, 3, 7, false, true⟩
  | .e5m2 | .mxE5m2 => some ⟨5, 2, 15, true, false⟩
  | .mxE3m2 => some ⟨3, 2, 3, false, false⟩
  | .mxE2m3 => some ⟨2, 3, 1, false, false⟩
  | .mxFp4 => some ⟨2, 1, 1, false, false⟩
  | .bf16 => some ⟨8, 7, 127, true, false⟩
  | .fp16 => some ⟨5, 10, 15, true, false⟩
  | .fp32 => some ⟨8, 23, 127, true, false⟩
  | .int8 | .int4 | .int32 | .mxInt8 => none

/-- Bits of one element (02 R47). -/
def fmtBits : Fmt → Nat
  | .int4 | .mxFp4 => 4
  | .mxE2m3 | .mxE3m2 => 6
  | .int8 | .e4m3 | .e5m2 | .mxE4m3 | .mxE5m2 | .mxInt8 => 8
  | .bf16 | .fp16 => 16
  | .fp32 | .int32 => 32

/-- Bytes of `n` packed elements (02 R49). -/
def rowBytes (f : Fmt) (n : Nat) : Nat := if fmtBits f = 6 then (n + 3) / 4 * 3 else (n * fmtBits f + 7) / 8

/-- The format has an E8M0 scale per block (02 R50). -/
def fmtMx : Fmt → Bool
  | .mxE4m3 | .mxE5m2 | .mxInt8 | .mxE2m3 | .mxE3m2 | .mxFp4 => true
  | _ => false

/-- Exponent of the smallest unit of a layout. -/
def FLayout.qmin (l : FLayout) : Int := 1 - (l.bias : Int) - l.mb

/-- Decode a code of a floating-point layout. -/
def FLayout.decode (l : FLayout) (code : Nat) : FV :=
  let neg := code.testBit (l.eb + l.mb)
  let ex := code / 2 ^ l.mb % 2 ^ l.eb
  let man := code % 2 ^ l.mb
  let top := ex = 2 ^ l.eb - 1
  if l.ieee ∧ top then (if man = 0 then .inf neg else .nan)
  else if l.onesNan ∧ top ∧ man = 2 ^ l.mb - 1 then .nan
  else if ex = 0 then .fin neg man l.qmin
  else .fin neg (man + 2 ^ l.mb) (l.qmin + ex - 1)

/-- An integer as a value. -/
def FV.ofInt (i : Int) (e : Int) : FV := .fin (decide (i < 0)) i.natAbs e

/-- Decode a code of any format; MXINT8 is two's complement times 2⁻⁶ (02 R47, R48). -/
def decodeFmt (f : Fmt) (code : Nat) : FV :=
  match layoutOf f with
  | some l => l.decode (code % 2 ^ fmtBits f)
  | none => FV.ofInt (toSigned (fmtBits f) code) (if f = .mxInt8 then -6 else 0)

/-- Round `m * 2 ^ e` at `p` bits and no finer than `2 ^ qmin`: nearest-even, or stochastically with `r` (02 R61, R66).
Answers the integer and the exponent of its unit. -/
def roundAt (p : Nat) (qmin : Int) (sr : Option Nat) (m : Nat) (e : Int) : Nat × Int :=
  if m = 0 then (0, qmin)
  else
    let q := max qmin (e + Nat.log2 m + 1 - p)
    if q ≤ e then (m * 2 ^ (e - q).toNat, q)
    else
      let sh := (q - e).toNat
      let n := m >>> sh
      let rem := m % 2 ^ sh
      let up := match sr with
        | some r => decide (r < rem * 2 ^ 32 / 2 ^ sh)
        | none => decide (2 ^ sh < 2 * rem) || (decide (2 * rem = 2 ^ sh) && decide (n % 2 = 1))
      (if up then n + 1 else n, q)

/-- Encode `n * 2 ^ q` in a layout, `q` at least the layout's smallest unit and `n` at most `2 ^ (mb + 1)`, the value not
above the largest exponent field. -/
def FLayout.pack (l : FLayout) (neg : Bool) (n : Nat) (q : Int) : Nat :=
  let (n, q) := if n = 2 ^ (l.mb + 1) then (2 ^ l.mb, q + 1) else (n, q)
  let body := if n < 2 ^ l.mb then n else (q - l.qmin + 1).toNat * 2 ^ l.mb + (n - 2 ^ l.mb)
  body + if neg then 2 ^ (l.eb + l.mb) else 0

/-- The largest finite code of a layout, without sign. -/
def FLayout.maxCode (l : FLayout) : Nat :=
  if l.ieee then (2 ^ l.eb - 1) * 2 ^ l.mb - 1 else if l.onesNan then 2 ^ (l.eb + l.mb) - 2 else 2 ^ (l.eb + l.mb) - 1

/-- The canonical NaN of a layout (02 R47). -/
def FLayout.nan (l : FLayout) : Nat :=
  if l.onesNan then 0x7F else (2 ^ l.eb - 1) * 2 ^ l.mb + (if l.mb = 2 then 2 else 2 ^ (l.mb - 1))

/-- The infinity of an IEEE layout. -/
def FLayout.infCode (l : FLayout) (neg : Bool) : Nat := (2 ^ l.eb - 1) * 2 ^ l.mb + if neg then 2 ^ (l.eb + l.mb) else 0

/-- What a conversion gives: the code, the flags of ARITH_STATUS it sets, and whether it counts in SAT_COUNT (02 R68). -/
structure Conv where
  code : Nat
  flags : Nat := 0
  sat : Bool := false
  deriving DecidableEq, Repr, Inhabited

abbrev fIntSat : Nat := 1
abbrev fFltSat : Nat := 2
abbrev fFpOvf : Nat := 4
abbrev fNanOut : Nat := 8

/-- FP32's layout. -/
abbrev f32L : FLayout := ⟨8, 23, 127, true, false⟩

/-- Conversion to a floating-point format that is not an MX element (02 R61). -/
def toFloat (l : FLayout) (ovfNan : Bool) (sr : Option Nat) (v : FV) : Conv :=
  let lim (neg : Bool) : Conv :=
    if ovfNan then { code := l.nan, flags := fFltSat + fNanOut, sat := true }
    else { code := l.maxCode + (if neg then 2 ^ (l.eb + l.mb) else 0), flags := fFltSat, sat := true }
  match v with
  | .nan => { code := l.nan, flags := fNanOut }
  | .inf neg => if l.ieee then { code := l.infCode neg } else lim neg
  | .fin neg m e =>
    let (n, q) := roundAt (l.mb + 1) l.qmin sr m e
    let c := l.pack false n q
    if c ≤ l.maxCode then { code := l.pack neg n q }
    else if l.ieee then { code := l.infCode neg, flags := fFpOvf } else lim neg

/-- One rounding to FP32, nearest-even (02 R55, R70). -/
def toF32 (v : FV) : Conv := toFloat f32L false none v

/-- An FP32 word as a value. -/
def ofF32 (w : W32) : FV := f32L.decode w.toNat

/-- An FP32 result without its flags; NaN is canonical. -/
def f32 (v : FV) : W32 := BitVec.ofNat 32 (toF32 v).code

/-- The magnitude as an integer in units of `2 ^ e0`, signed, for `e0` at most the value's exponent. -/
def unitsAt (e0 : Int) (neg : Bool) (m : Nat) (e : Int) : Int :=
  let x : Int := (m * 2 ^ (e - e0).toNat : Nat)
  if neg then -x else x

/-- Exact sum (IEEE 754 signs of zero in round-to-nearest). -/
def FV.add : FV → FV → FV
  | .nan, _ => .nan
  | _, .nan => .nan
  | .inf a, .inf b => if a = b then .inf a else .nan
  | .inf a, _ => .inf a
  | _, .inf b => .inf b
  | .fin sa ma ea, .fin sb mb eb =>
    if ma = 0 ∧ mb = 0 then .fin (sa && sb) 0 0
    else
      let e0 := min ea eb
      let x := unitsAt e0 sa ma ea + unitsAt e0 sb mb eb
      if x = 0 then .fin false 0 0 else FV.ofInt x e0

/-- Exact product. -/
def FV.mul : FV → FV → FV
  | .nan, _ => .nan
  | _, .nan => .nan
  | .inf a, .inf b => .inf (a != b)
  | .inf a, .fin b m _ => if m = 0 then .nan else .inf (a != b)
  | .fin a m _, .inf b => if m = 0 then .nan else .inf (a != b)
  | .fin a ma ea, .fin b mb eb => .fin (a != b) (ma * mb) (ea + eb)

/-- The value negated. -/
def FV.neg : FV → FV
  | .nan => .nan
  | .inf a => .inf (!a)
  | .fin a m e => .fin (!a) m e

/-- FP32 addition, subtraction, multiplication and fused multiply-add, one rounding each (02 R70). -/
def fadd (a b : W32) : W32 := f32 ((ofF32 a).add (ofF32 b))
def fsub (a b : W32) : W32 := f32 ((ofF32 a).add (ofF32 b).neg)
def fmul (a b : W32) : W32 := f32 ((ofF32 a).mul (ofF32 b))
def ffma (a b c : W32) : W32 := f32 (((ofF32 a).mul (ofF32 b)).add (ofF32 c))

/-- Less-or-equal of values other than NaN. -/
def FV.le : FV → FV → Bool
  | .nan, _ => false
  | _, .nan => false
  | .inf a, .inf b => a || !b
  | .inf a, .fin _ _ _ => a
  | .fin _ _ _, .inf b => !b
  | .fin sa ma ea, .fin sb mb eb => decide (unitsAt (min ea eb) sa ma ea ≤ unitsAt (min ea eb) sb mb eb)

/-- Maximum under the rules of 03 R95: any NaN gives the canonical NaN, max(+0, −0) is +0. -/
def fmax (a b : W32) : W32 :=
  match ofF32 a, ofF32 b with
  | .nan, _ => 0x7FC00000#32
  | _, .nan => 0x7FC00000#32
  | x, y => if x.le y && y.le x then a &&& b else if x.le y then b else a

/-- Minimum, with min(+0, −0) = −0 (log 13). -/
def fmin (a b : W32) : W32 :=
  match ofF32 a, ofF32 b with
  | .nan, _ => 0x7FC00000#32
  | _, .nan => 0x7FC00000#32
  | x, y => if x.le y && y.le x then a ||| b else if x.le y then a else b

/-- The largest normal's exponent of an MX element type (02 R62). -/
def emaxOf : Fmt → Int
  | .mxE4m3 => 8 | .mxE5m2 => 15 | .mxE2m3 => 2 | .mxE3m2 => 4 | .mxFp4 => 2 | _ => 0

/-- One MX element from its scaled value, and whether it exceeded its largest finite (02 R61, R62). -/
def toElement (f : Fmt) (sr : Option Nat) (v : FV) : Nat × Bool :=
  match f, v with
  | _, .nan => (0, true)
  | .mxInt8, .inf neg => (if neg then 0x81 else 127, true)
  | .mxInt8, .fin neg m e =>
    let (n, q) := roundAt 64 (-6) sr m e
    let n := n * 2 ^ (q + 6).toNat
    let k := min n 127
    (if neg then (256 - k) % 256 else k, decide (127 < n))
  | f, v =>
    match layoutOf f with
    | some l =>
      let top := l.maxCode
      let sign (neg : Bool) : Nat := if neg then 2 ^ (l.eb + l.mb) else 0
      match v with
      | .fin neg m e =>
        let (n, q) := roundAt (l.mb + 1) l.qmin sr m e
        let c := l.pack false n q
        if c ≤ top then (l.pack neg n q, false) else (top + sign neg, true)
      | .inf neg => (top + sign neg, true)
      | .nan => (0, true)
    | none => (0, false)

/-- Floor of the logarithm of a nonzero magnitude. -/
def floorLog2 (m : Nat) (e : Int) : Int := e + Nat.log2 m

/-- An MX output block (02 R62): scale, element codes, flags and how many elements count in SAT_COUNT. -/
def mxBlock (f : Fmt) (ovfNan : Bool) (sr : Nat → Option Nat) (vs : List FV) : Nat × List Nat × Nat × Nat :=
  let big : FV := .fin false (2 ^ 24 - 1) 104
  let mags := vs.map fun v => match v with
    | .fin _ m e => FV.fin false m e
    | .inf _ => big
    | .nan => FV.nan
  let zeros := vs.map fun _ => 0
  if vs.any fun v => decide (v = .nan) then (0xFF, zeros, fNanOut, 0)
  else
    let amax := mags.foldl (fun a v => if a.le v then v else a) (.fin false 0 0)
    match amax with
    | .fin _ m e =>
      if m = 0 then (0, zeros, 0, 0)
      else
        let x := max (-127) (min 127 (floorLog2 m e - emaxOf f))
        let els := (List.range vs.length).map fun i =>
          match vs.getD i .nan with
          | .fin neg m e => toElement f (sr i) (.fin neg m (e - x))
          | v => toElement f (sr i) v
        let lim := (els.filter (·.2)).length
        if lim = 0 then ((x + 127).toNat, els.map (·.1), 0, 0)
        else if ovfNan then (0xFF, zeros, fFltSat + fNanOut, lim)
        else ((x + 127).toNat, els.map (·.1), fFltSat, lim)
    | _ => (0xFF, zeros, fNanOut, 0)

/-- Rotate a u32 left. -/
def rotl32 (x n : Nat) : Nat := (x * 2 ^ n % 2 ^ 32) ||| (x % 2 ^ 32 / 2 ^ (32 - n))

/-- One round of the generator (08 R286). -/
def genRound (k : Nat → Nat) (r : Nat) : Nat × Nat × Nat × Nat → Nat × Nat × Nat × Nat
  | (x0, x1, x2, x3) =>
    let w (n : Nat) := n % 2 ^ 32
    let x0 := w (x0 + k (r % 4) + (r + 1) * 0x9E3779B9)
    let x1 := x1 ^^^ k ((r + 2) % 4)
    let x0 := w (x0 + x1)
    let x3 := rotl32 (x3 ^^^ x0) 16
    let x2 := w (x2 + x3)
    let x1 := rotl32 (x1 ^^^ x2) 12
    let x0 := w (x0 + x1)
    let x3 := rotl32 (x3 ^^^ x0) 8
    let x2 := w (x2 + x3)
    let x1 := rotl32 (x1 ^^^ x2) 7
    (x0, x1, x2, x3)

/-- The counter-based generator (08 R286). -/
def generator (seed step tid idx : Nat) : Nat :=
  let k (i : Nat) : Nat := nbits seed (32 * i + 31) (32 * i)
  let x := (List.range 10).foldl (fun x r => genRound k r x)
    (nbits step 31 0, nbits step 63 32, nbits idx 31 0, tid % 2 ^ 16 * 2 ^ 16 + nbits idx 47 32)
  x.1 ^^^ x.2.1 ^^^ x.2.2.1 ^^^ x.2.2.2

/-- The limits of an integer output (02 R63, R64). -/
def intLimits (f : Fmt) (sym : Bool) : Int × Int :=
  let b : Int := if f = .int4 then 8 else if f = .int8 then 128 else 2 ^ 31
  (if sym then 1 - b else -b, b - 1)

/-- Clamp to limits, with INT_SAT when it clamps (02 R63, R64). -/
def clampInt (f : Fmt) (sym : Bool) (z : Int) : Conv :=
  let (lo, hi) := intLimits f sym
  let c := max lo (min hi z)
  { code := ofSigned (fmtBits f) c, flags := if c = z then 0 else fIntSat, sat := decide (c ≠ z) }

/-- An arithmetic shift right rounded to nearest-even (02 R63). -/
def shiftRne (p : Int) (sh : Nat) : Int :=
  let t := p / (2 ^ sh : Nat)
  let rem := p - t * (2 ^ sh : Nat)
  if 2 * rem > (2 ^ sh : Nat) ∨ (2 * rem = (2 ^ sh : Nat) ∧ t % 2 = 1) then t + 1 else t

/-- Integer requantisation (02 R63). -/
def requant (f : Fmt) (sym : Bool) (q : Quant) (acc : Int) : Conv :=
  clampInt f sym (shiftRne ((acc + q.bias) * q.mult) q.shift + q.zero)

/-- A value rounded to an integer, ties to even. -/
def FV.toIntRne (neg : Bool) (m : Nat) (e : Int) : Int :=
  let n : Int := if 0 ≤ e then (m * 2 ^ e.toNat : Nat) else shiftRne (m : Int) (-e).toNat
  if neg then -n else n

/-- Conversion of FP32 to an integer output (02 R64); FP_OVF where the product of a finite value rounds to an infinity (R68). -/
def f32ToInt (f : Fmt) (sym : Bool) (scale : W32) (zero : Int) (v : W32) : Conv :=
  let (lo, hi) := intLimits f sym
  match ofF32 (fmul v scale) with
  | .nan => { code := 0, flags := fIntSat, sat := true }
  | .inf neg =>
    { code := ofSigned (fmtBits f) (if neg then lo else hi)
      flags := fIntSat ||| (match ofF32 v, ofF32 scale with
        | .fin .., .fin .. => fFpOvf
        | _, _ => 0)
      sat := true }
  | .fin neg m e => clampInt f sym (FV.toIntRne neg m e + zero)

end Sys2Proof.Machine
end

