-- ==== Sys2Proof/Machine/WinDesc.lean ====
section
/-! DEFINITION. The descriptors of sliding-window tasks (03 R84 to R90): their fields and checks, where each tap reads, and the source
rows of a band (R96, R98, R101). -/

namespace Sys2Proof.Machine

/-- A TENSOR_DESC's fields (03 R84), and the rows of the row ring that holds the tensor; 0 where it is whole (03 R101). -/
structure Tensor where
  base : Nat
  plane : Nat
  row : Nat
  c : Nat
  h : Nat
  w : Nat
  fmt : Fmt
  scale : Nat
  ring : Nat := 0
  deriving DecidableEq, Repr

/-- FORMAT codes of 03 R84. -/
def fmtOfCode : Nat → Option Fmt
  | 0 => some .int8 | 1 => some .int4 | 2 => some .e4m3 | 3 => some .e5m2 | 4 => some .mxE4m3 | 5 => some .mxE5m2
  | 6 => some .mxInt8 | 7 => some .mxE2m3 | 8 => some .mxE3m2 | 9 => some .mxFp4 | 10 => some .bf16 | 11 => some .fp16
  | 12 => some .fp32 | 13 => some .int32 | _ => none

/-- A TENSOR_DESC that keeps R84 and R85 and whose reserved fields are zero. -/
def tensorOf (ws : List W64) : Option Tensor :=
  let w (i : Nat) : W64 := ws.getD i 0
  match fmtOfCode (bits (w 2) 4 0) with
  | none => none
  | some f =>
    let t : Tensor := { base := bits (w 0) 51 0, plane := bits (w 1) 63 32, row := bits (w 1) 19 0, c := bits (w 2) 63 48
                        h := bits (w 2) 47 32, w := bits (w 2) 31 16, fmt := f, scale := bits (w 3) 51 0 }
    if bits (w 0) 63 48 = 0 ∧ bits (w 1) 31 20 = 0 ∧ bits (w 2) 15 5 = 0 ∧ bits (w 3) 63 48 = 0 ∧ t.base % 64 = 0 ∧
        t.scale % 64 = 0 ∧ (fmtMx f ∨ t.scale = 0) ∧ 1 ≤ t.c ∧ 1 ≤ t.h ∧ 1 ≤ t.w ∧ rowBytes f t.w ≤ 64 * t.row ∧
        t.h * t.row ≤ t.plane
    then some t else none

/-- The slot of row `y`: in a row ring, y mod R_ring (03 R101). -/
def Tensor.slot (t : Tensor) (y : Nat) : Nat := if t.ring = 0 then y else y % t.ring

/-- Where a row of a plane starts (03 R85, R101). -/
def Tensor.rowDa (t : Tensor) (c y : Nat) : Nat := t.base + 64 * (c * t.plane + t.slot y * t.row)

/-- Where the scale byte of channel block `j` at a position lies (03 R85). -/
def Tensor.scaleDa (t : Tensor) (j y x : Nat) : Nat :=
  let pitch := 64 * ceilDiv t.w 64
  t.scale + j * (t.h * pitch) + t.slot y * pitch + x

/-- A WIN_DESC's fields (03 R86). -/
structure Win where
  sw : Nat
  sh : Nat
  dw : Nat
  dh : Nat
  iw : Nat
  ih : Nat
  kw : Nat
  kh : Nat
  groups : Nat
  pr : Nat
  pl : Nat
  pb : Nat
  pt : Nat
  mult : Nat
  padConst : Nat
  inclPad : Bool
  op : Nat
  mode : Nat
  deriving DecidableEq, Repr

/-- The fields of a WIN_DESC; `none` where a reserved field is nonzero. -/
def winOf (ws : List W64) : Option Win :=
  let w (i : Nat) : W64 := ws.getD i 0
  if bits (w 3) 31 8 = 0 ∧ bits (w 3) 6 4 = 0 then
    some { sw := bits (w 0) 63 48, sh := bits (w 0) 47 32, dw := bits (w 0) 31 16, dh := bits (w 0) 15 0
           iw := bits (w 1) 63 48, ih := bits (w 1) 47 32, kw := bits (w 1) 31 24, kh := bits (w 1) 23 16
           groups := bits (w 1) 15 0, pr := bits (w 2) 63 48, pl := bits (w 2) 47 32, pb := bits (w 2) 31 16
           pt := bits (w 2) 15 0, mult := bits (w 3) 63 48, padConst := bits (w 3) 47 32
           inclPad := (w 3).getLsbD 7, op := bits (w 3) 3 2, mode := bits (w 3) 1 0 }
  else none

/-- Output extent along an axis (03 R88): extent, stride, dilation, input dilation, padding before and after, kernel. -/
def outExtent (n s d i pb pa ks : Nat) : Int :=
  ((pb : Int) + ((n : Int) - 1) * i + 1 + pa - (((ks : Int) - 1) * d + 1)) / s + 1

/-- Integer operand formats. -/
def fmtInt (f : Fmt) : Bool := decide (f = .int8) || decide (f = .int4) || decide (f = .int32)

/-- The checks of 03 R87 that concern WIN_DESC and both tensors together. -/
def winChecks (w : Win) (i o : Tensor) : Bool :=
  let nz := decide (w.sw ≠ 0) && decide (w.sh ≠ 0) && decide (w.dw ≠ 0) && decide (w.dh ≠ 0) && decide (w.iw ≠ 0) &&
    decide (w.ih ≠ 0) && decide (w.kw ≠ 0) && decide (w.kh ≠ 0) && decide (w.groups ≠ 0)
  let oh := outExtent i.h w.sh w.dh w.ih w.pt w.pb w.kh
  let ow := outExtent i.w w.sw w.dw w.iw w.pl w.pr w.kw
  let padded := decide (w.pt + w.pb + w.pl + w.pr ≠ 0)
  nz && decide (1 ≤ oh) && decide (1 ≤ ow) && decide (oh = o.h) && decide (ow = o.w) &&
    !(decide (2 ≤ w.mode) && ((decide (w.ih ≠ 1) && decide (w.pt + w.pb ≠ 0)) || (decide (w.iw ≠ 1) && decide (w.pl + w.pr ≠ 0)))) &&
    (match w.op with
      | 0 => decide (i.c % w.groups = 0) && decide (o.c % w.groups = 0) && decide (w.mult = 1)
      | 1 => decide (w.groups = i.c) && decide (o.c = w.mult * i.c)
      | _ => decide (w.groups = 1) && decide (w.mult = 1) && decide (o.c = i.c) && decide (w.iw = 1) && decide (w.ih = 1)) &&
    !(decide (w.op = 3) && fmtInt i.fmt && !w.inclPad && padded) &&
    !(fmtMx i.fmt && (decide (w.op ≠ 0) || decide (i.c / w.groups % 32 ≠ 0)))

/-- Where a coordinate lies (03 R89). -/
inductive Coord where
  | inRange (i : Nat)
  | hole
  | pad (v : Int)
  deriving DecidableEq, Repr

/-- Classify the virtual coordinate of output `o` and tap `k` (03 R88, R89). -/
def coordOf (n s d i pb o k : Nat) : Coord :=
  let v : Int := (o : Int) * s + (k : Int) * d - pb
  if 0 ≤ v ∧ v ≤ ((n : Int) - 1) * i then (if v % (i : Int) = 0 then .inRange (v / (i : Int)).toNat else .hole) else .pad v

/-- The edge and reflect maps (03 R90). -/
def mapPad (reflect : Bool) (n : Nat) (v : Int) : Nat :=
  if reflect then
    if n = 1 then 0
    else
      let r := (v % (2 * ((n : Int) - 1))).toNat
      if n ≤ r then 2 * (n - 1) - r else r
  else (min (max v 0) ((n : Int) - 1)).toNat

/-- What a tap reads (03 R89, R90). -/
inductive Tap where
  | absent
  | const
  | at_ (y x : Nat)
  deriving DecidableEq, Repr

/-- The tap (ky, kx) at output position (oy, ox). -/
def tapOf (w : Win) (h wd oy ox ky kx : Nat) : Tap :=
  let cy := coordOf h w.sh w.dh w.ih w.pt oy ky
  let cx := coordOf wd w.sw w.dw w.iw w.pl ox kx
  let m (n : Nat) : Coord → Nat
    | .inRange i => i
    | .pad v => mapPad (decide (w.mode = 3)) n v
    | .hole => 0
  match cy, cx with
  | .inRange y, .inRange x => .at_ y x
  | .hole, _ => .absent
  | _, .hole => .absent
  | cy, cx => if w.mode = 0 then .absent else if w.mode = 1 then .const else .at_ (m h cy) (m wd cx)

/-- The constant-mode pad element (03 R86). -/
def padValue (f : Fmt) (c : Nat) : Nat :=
  match f with
  | .fp32 => c * 2 ^ 16
  | .int32 => ofSigned 32 (toSigned 16 c)
  | f => c % 2 ^ fmtBits f

/-- The source rows output rows b0 to b1 − 1 need, first and last; `none` where they need none (03 R96). -/
def sourceRows (w : Win) (h b0 b1 : Nat) : Option (Nat × Nat) :=
  if w.mode < 2 then
    let vlo : Int := (b0 : Int) * w.sh - w.pt
    let vhi : Int := ((b1 : Int) - 1) * w.sh + ((w.kh : Int) - 1) * w.dh - w.pt
    let lo := max 0 (-((-vlo) / (w.ih : Int)))
    let hi := min ((h : Int) - 1) (vhi / (w.ih : Int))
    if lo ≤ hi then some (lo.toNat, hi.toNat) else none
  else
    let rows := (List.range (b1 - b0)).flatMap fun o => (List.range w.kh).filterMap fun k =>
      match coordOf h w.sh w.dh w.ih w.pt (b0 + o) k with
      | .inRange y => some y
      | .pad v => some (mapPad (decide (w.mode = 3)) h v)
      | .hole => none
    match rows.min?, rows.max? with
    | some lo, some hi => some (lo, hi)
    | _, _ => none

/-- The token value a band waits for at a producer stripe; `none` where it needs no row of that stripe (03 R98). -/
def bandTarget (b : Band) : Option Nat :=
  match winOf b.win with
  | none => none
  | some w => match sourceRows w b.h b.b0 b.b1 with
    | some (lo, hi) => if b.r0 ≤ hi ∧ lo < b.r1 then some (min (hi + 1) b.r1) else none
    | none => none

/-- A row ring holds the largest need of a consumer band plus the producer's band (03 R101). -/
def ringFits (r : RingDecl) : Bool :=
  let need (b : Nat × Nat) : Nat := match (winOf r.win).bind fun w => sourceRows w r.h b.1 b.2 with
    | some (lo, hi) => hi - lo + 1
    | none => 0
  decide (r.bands.foldl (fun m b => max m (need b)) 0 + r.height ≤ r.rows)

/-- The descriptors of a sliding-window task are valid (03 R85 to R87). -/
def winDescOk (inDesc outDesc winDesc : List W64) : Bool :=
  match tensorOf inDesc, tensorOf outDesc, winOf winDesc with
  | some i, some o, some w => winChecks w i o
  | _, _, _ => false

end Sys2Proof.Machine
end

