-- ==== Sys2Proof/Machine/Launch.lean ====
section
/-! DEFINITION. Partitions' Spire sets and states, how tasks and launches end (06 R205, R226 to R228; 13 R445), Spire
quarantine (02 R79 to R82), DEGRADED partitions (09 R312, R315). -/

namespace Sys2Proof.Machine

abbrev causeOk : Nat := 0
abbrev causeFault : Nat := 1
abbrev causeNoSpire : Nat := 2
abbrev causeDependency : Nat := 3
abbrev causeOverrun : Nat := 4
abbrev causeAborted : Nat := 5
abbrev causeSaveCorrupt : Nat := 6

/-- The user partitions that exist. -/
def State.users (s : State) : List Nat := filterLow (fun p => decide (p ≠ 0) && (s.part p).live) 16

/-- The state code of 06 R205: 0 ACTIVE, 1 DEGRADED, 2 SUSPENDED, 3 RESETTING, 4 DESTROYING (log 8 orders them). -/
def Partition.stateCode (p : Partition) : Nat :=
  if p.ending ≠ 0 then p.ending else if p.degraded then 1 else if p.causes ≠ 0 then 2 else 0

/-- The Domes privileged partitions own (06 R202). -/
def State.ownedDomes (s : State) : BitVec 16 :=
  s.users.foldl (fun m p => if (s.part p).priv then m ||| (s.part p).domes else m) 0

/-- The Domes of a partition's Spire set: owned, or the shared Domes (06 R202). -/
def State.setDomes (s : State) (p : Nat) : BitVec 16 := if (s.part p).priv then (s.part p).domes else ~~~ s.ownedDomes

/-- A Spire belongs to a partition's set. -/
def State.inSet (s : State) (p sp : Nat) : Bool := (s.setDomes p).getLsbD (sp / 4)

/-- A partition has a Spire in service. -/
def State.hasSpire (s : State) (p : Nat) : Bool :=
  (List.range 64).any fun sp => s.inSet p sp && !(s.spire sp).quarantined

/-- The job numbers in use, in the order accepted. -/
def State.jobIds (s : State) : List Nat := (s.sch.jobs.filter fun j => j.2.live).map (·.1)

/-- Jobs of a partition that have not ended. -/
def State.jobsOf (s : State) (p : Nat) : List Nat := s.jobIds.filter fun j => (s.job j).part = p

/-- Replace task `i` of job `j`. -/
def State.modTask (s : State) (j i : Nat) (f : TaskSt → TaskSt) : State :=
  s.modJob j fun b => { b with tasks := b.tasks.modify i f }

/-- Task `i` of job `j`. -/
def State.task (s : State) (j i : Nat) : TaskSt := (s.job j).tasks.getD i {}

/-- The present run of task `i` of job `j`. -/
def State.taskId (s : State) (j i : Nat) : TaskId := (j, i, (s.task j i).run)

/-- A run of a task still goes on: its launch has no cause, it has neither ended nor begun another run. What a unit completes for any
other is late (06 R226, R236). -/
def State.liveRun (s : State) (t : TaskId) : Bool :=
  let b := s.job t.1
  b.live && b.cause.isNone && decide (t.2.1 < b.tasks.length) && decide ((s.task t.1 t.2.1).run = t.2.2) &&
    decide ((s.task t.1 t.2.1).phase ≠ .failed)

/-! ### What tasks wait for (06 R216, R227; 03 R96 to R101; 04 R126) -/

/-- The key of Dome `dome`'s shadow of token `t` of Dome `src`. -/
def shadowKey (dome src t : Nat) : Nat := (dome * 16 + src) * 64 + t

/-- The value of a row token that a consumer sees: in a Dome not the producer's its shadow (03 R96, R98). A task that runs in no Dome
yet is made ready by the token itself (log 114). -/
def State.seenToken (s : State) (dome : Option Nat) (d t : Nat) : Nat :=
  match dome with
  | some k => if k = d then tget 0 s.sch.tokens (64 * d + t) else tget 0 s.sch.shadows (shadowKey k d t)
  | none => tget 0 s.sch.tokens (64 * d + t)

/-- What is named has been reached, as a task of job `j` in Dome `dome` sees it (06 R216; 03 R98, R101; 04 R126). -/
def State.reached (s : State) (dome : Option Nat) (j : Nat) : WaitRef → Bool
  | .task k => decide ((s.task j k).phase = .done)
  | .ctr d c n => decide (n ≤ tget 0 s.sch.ctrs (64 * d.val + c.val))
  | .token d t n => decide (n ≤ s.seenToken dome d.val t.val)
  | .read d t n => decide (n ≤ tget 0 s.sch.reads (64 * d.val + t.val))
  | .band b => match bandTarget b with
    | some n => decide (n ≤ s.seenToken dome b.dome.val b.tok.val)
    | none => true
  | .append slot pos => decide (pos < (tget {} s.seq.seqs slot.val).appended)

/-- The scoreboard counter (0), row token (1) or ring read token (2) that is named, with its key: what a FAILED mark may stand on. -/
def waitMark : WaitRef → Option (Nat × Nat)
  | .task _ => none
  | .ctr d c _ => some (0, 64 * d.val + c.val)
  | .token d t _ => some (1, 64 * d.val + t.val)
  | .read d t _ => some (2, 64 * d.val + t.val)
  | .band b => (bandTarget b).map fun _ => (1, 64 * b.dome.val + b.tok.val)
  | .append _ _ => none

/-- It is marked FAILED. -/
def State.markedFailed (s : State) (m : Nat × Nat) : Bool :=
  tget false (if m.1 = 0 then s.sch.ctrFailed else if m.1 = 1 then s.sch.tokFailed else s.sch.readFailed) m.2

/-- Nothing will reach what is named: it is marked FAILED short of the target (06 R226, R227). -/
def State.doomed (s : State) (dome : Option Nat) (j : Nat) (w : WaitRef) : Bool :=
  !s.reached dome j w && ((waitMark w).map s.markedFailed).getD false

/-- The Dome whose Spire a task runs on. -/
def TaskSt.dome (t : TaskSt) : Option Nat := if t.phase = .running then some (t.spire / 4) else none

/-- What a task advances: its counters, row tokens and ring read tokens. -/
def taskMarks (d : TaskDecl) : List (Nat × Nat) :=
  (d.counters.map fun c => (0, 64 * c.1.val + c.2.val)) ++ (d.tokens.map fun c => (1, 64 * c.1.val + c.2.1.val)) ++
    d.reads.map fun c => (2, 64 * c.1.val + c.2.1.val)

/-- Mark counters and tokens FAILED (06 R227). -/
def Sched.setFailed (c : Sched) (marks : List (Nat × Nat)) : Sched :=
  let put (k : Nat) (t : Tab Bool) : Tab Bool := marks.foldl (fun t (m : Nat × Nat) => if m.1 = k then tput false t m.2 true else t) t
  { c with ctrFailed := put 0 c.ctrFailed, tokFailed := put 1 c.tokFailed, readFailed := put 2 c.readFailed }

/-- A FAILED mark ends task `i` of job `j` (06 R227): one that has not started when it names one, one that has while it waits for one
it has not reached. -/
def State.hit (s : State) (marks : List (Nat × Nat)) (j i : Nat) : Bool :=
  let t := s.task j i
  let names (w : WaitRef) : Bool := match waitMark w with
    | some m => marks.contains m
    | none => false
  if t.started then t.yWaits.any fun w => names w && !s.reached t.dome j w
  else (decide (t.phase = .waiting) || decide (t.phase = .ready)) && t.decl.waits.any names

/-- The jobs of a partition with a task that FAILED marks end (06 R227). -/
def State.depsOf (s : State) (p : Nat) (marks : List (Nat × Nat)) : List Nat :=
  (s.jobsOf p).filter fun k => (List.range (s.job k).tasks.length).any fun i => s.hit marks k i

/-- ARITH_STATUS of several tasks together: flags ORed, counts summed and stopping at their largest values (02 R68, 13
R445). -/
def arithMerge (a b : W32) : W32 :=
  let sat := min 0xFFFF (bits a 31 16 + bits b 31 16)
  let ret := min 0xFF (bits a 15 8 + bits b 15 8)
  BitVec.ofNat 32 (sat * 2 ^ 16 + ret * 2 ^ 8 + ((a ||| b).toNat % 32))

/-- The completion record of a launch (13 R445). -/
def Job.recordBytes (b : Job) (withheld : Bool) (cause : Nat) : List Byte :=
  let fl := (if withheld then 128 else 0) + (if b.dualFlag then 64 else 0) + (if b.republished then 32 else 0)
  let quiet := cause = causeOk ∨ cause = causeAborted
  le 8 b.step ++ le 8 (b.mbx * 2 ^ 56 + b.gen * 2 ^ 48 + b.tag * 2 ^ 32 + fl + cause) ++
    le 8 ((if quiet then 0 else b.faultSource * 2 ^ 48 + b.faultBit * 2 ^ 40) + b.arith.toNat) ++
    le 8 (b.readyAt.getD 0) ++ le 8 b.endAt ++ le 8 b.engine ++ le 16 0

/-- Where a partition's completion record may lie (13 R444): its REGION or the host memory window. -/
def State.recordReach (s : State) (p a : Nat) : Bool :=
  ((s.part p).inRegion a 64 && (s.kindRange a 64).isSome) || decide (s.kindRange a 64 = some .host)

/-- The completion record address of a launch that has none: a stream-bound one (11 R385). -/
abbrev noRecord : Nat := 2 ^ 63

/-- The accounting record of client `m` (06 R233). -/
def State.modClient (s : State) (m : Nat) (f : Acct → Acct) : State :=
  { s with sch := { s.sch with clients := tmod {} s.sch.clients m f } }

/-- Change the partition-level accounting record. -/
def State.modPartAcct (s : State) (p : Nat) (f : Acct → Acct) : State := s.modPart p fun x => { x with acct := f x.acct }

/-- The accounting record a job's waits, pre-emptions and overruns go to: its client's; a step's client is the lowest mailbox of
the launches it serves (06 R217, R232; log 112). -/
def State.modJobAcct (s : State) (j : Nat) (f : Acct → Acct) : State := s.modClient (s.job j).mbx f

/-- Free the Spire and the save slot of a task (06 R223). -/
def State.leaveSpire (s : State) (j i : Nat) : State :=
  let t := s.task j i
  let s := if (s.spire t.spire).job = some (j, i)
    then s.modSpire t.spire fun x => { x with job := none, preempt := none, retry := none, keep := false } else s
  if t.started then s.modPart (s.job j).part fun p => { p with slots := tput false p.slots t.slot false } else s

/-- Post the end of a launch (13 R445, 12 R428): record, event, tag generation, accounting (06 R215, R233). A launch
of a DEGRADED partition carries WITHHELD (09 R316), and so does one of the standby copy of a DUAL_COMPARE partition (10 R358);
the standby of a mirrored partition gets the delta and the mark (10 R361, R364). -/
def State.postEnd (s : State) (j : Nat) : State :=
  let b := s.job j
  let cause := b.cause.getD 0
  let wh := b.withheld || (s.part b.part).degraded || s.compareStandby b.part
  let fl := (if wh then 128 else 0) + (if b.dualFlag then 64 else 0) + (if b.republished then 32 else 0)
  let s := if b.complDa = noRecord then s
    else if s.recordReach b.part b.complDa then s.wr b.complDa (b.recordBytes wh cause)
    else s.record s.srcMbx 11 lvTask { addr := b.complDa, part := some b.part }
  let s := s.post 2 s.srcMbx (fl + cause) (b.gen * 2 ^ 24 + b.tag * 2 ^ 8 + b.mbx * 4) [] false
  let s := { s with sch := { s.sch with tagGen := tput 0 s.sch.tagGen (65536 * b.mbx + b.tag) ((b.gen + 1) % 256) } }
  let s := s.modClient b.mbx fun a => { a with
    launches := satAdd 32 a.launches 1, failed := if cause = 0 then a.failed else satAdd 16 a.failed 1 }
  let s := if b.kind = .launch then s.sendEnd b.part b.step else s
  s.modJob j fun _ => {}

/-- A job that a takeover reruns (10 R366). -/
def State.reruns (s : State) (j : Nat) : Bool := (s.twp (s.job j).part).rerun.any fun (x : Nat × Bool) => x.1 = j

/-- Charge the task a Spire runs, and the Spire's time in the frame, up to now (06 R209, R224; a save is charged to neither,
log 10, nor a test window, 09 R339); a takeover's rerun is not charged against the budget (10 R366). -/
def State.settle (s : State) (sp : Nat) : State :=
  match (s.spire sp).job with
  | some (j, i) =>
    if (s.task j i).phase = .running ∧ ¬ s.testing (.spire (Fin.ofNat 64 sp)) then
      let dt := s.clk.elapsed - (s.task j i).since
      let c := dt * (s.spire sp).clk
      let s := s.modTask j i fun t => { t with
        charge := t.charge + c, since := s.clk.elapsed, lent := if t.borrowed then t.lent + c else t.lent }
      if s.reruns j then s else s.modSpire sp fun x => { x with used := x.used + dt }
    else s
  | none => s

/-- Charged time in units of 2⁻¹⁰ Spire-µs (06 R233; log 10). -/
def engineUnits (charge : Nat) : Nat := charge * 1024 / 16000

/-- The correction at a task's end, floor, never below 0 (06 R217). -/
def vtCorrect (vt run wcet w : Nat) : Nat := Int.toNat ((vt : Int) + ((run : Int) - wcet) * 65536 / (max 1 w : Nat)) % 2 ^ 64

/-- What the end of a task charges (06 R217, R232): the virtual times it corrects, the partition's by what it ran on borrowed Spires
(R213; log 115), and its client's engine time; a step's is charged when the step ends. -/
def State.chargeEnd (s : State) (j i : Nat) : State :=
  let b := s.job j
  let t := s.task j i
  let run := t.charge / 16000
  let s := s.modMbx b.mbx fun x => { x with vt := vtCorrect x.vt run t.decl.wcetUs x.weight }
  let s := if t.lentWcet then s.modPart b.part fun x => { x with vt := vtCorrect x.vt (t.lent / 16000) t.decl.wcetUs x.share } else s
  if b.kind = .step then s else s.modClient b.mbx fun a => { a with engine := satAdd 64 a.engine (engineUnits t.charge) }

/-- A task that has started ends without completing: charged up to now, as one that completes is (06 R217, R224, R232). -/
def State.stopTask (s : State) (j i : Nat) : State :=
  if (s.task j i).started then
    let s := if (s.spire (s.task j i).spire).job = some (j, i) then s.settle (s.task j i).spire else s
    let c := (s.task j i).charge
    (s.chargeEnd j i).modJob j fun b => { b with engine := satAdd 64 b.engine (engineUnits c) }
  else s

/-- A launch that has its cause ends now, unless its two DUAL instances have still to be compared (09 R335) or it is a rerun
whose completion a takeover decides on (10 R366). -/
def State.closeJob (s : State) (j : Nat) : State :=
  let b := s.job j
  if b.live && b.cause.isSome then
    match b.kind with
    | .launch | .stepLaunch => if b.dual ≠ 0 ∧ b.cause = some 0 ∧ ¬ b.compared ∨ s.reruns j then s else s.postEnd j
    | .step | .proposer => s
  else s

/-- Take `n` wanted tokens of a handle from step launches in the order accepted (06 R528); a failure cause goes to each
launch they come from that has none yet. -/
def State.takeTokens (s : State) (handle cause src bit : Nat) : Nat → List Nat → State
  | _, [] => s
  | n, j :: rest =>
    let b := s.job j
    let here := if b.kind = .stepLaunch then ((b.wants.filter fun w => w.handle = handle).map (·.tokens)).sum else 0
    let k := min n here
    if k = 0 then s.takeTokens handle cause src bit n rest
    else
      let s := s.modJob j fun b => { b with
        wants := (b.wants.map fun w => if w.handle = handle then { w with tokens := w.tokens - k } else w).filter
          fun w => w.tokens ≠ 0
        faultSource := if cause ≠ 0 ∧ b.faultBit = 0 ∧ b.phase = 0 then src else b.faultSource
        faultBit := if cause ≠ 0 ∧ b.faultBit = 0 ∧ b.phase = 0 then bit else b.faultBit
        phase := if b.phase = 0 then cause else b.phase }
      s.takeTokens handle cause src bit (n - k) rest

/-- The jobs of a list that a step serves (06 R528). -/
def Job.served (b : Job) (js : List Nat) : List Nat := js.filter fun j => b.shares.any fun x => decide (x.1 = j)

/-- End every step launch that has started and has no token left wanted, with the first failure cause of its steps (06 R528; held in
`phase` until then). -/
def State.closeStepLaunches (s : State) : State :=
  s.jobIds.foldl (fun s j =>
    let b := s.job j
    if b.kind = .stepLaunch ∧ b.wants.isEmpty ∧ b.cause.isNone ∧ b.startAt.isNone then
      (s.modJob j fun b => { b with cause := some b.phase, endAt := s.clk.ctc }).closeJob j
    else s) s

/-- Charge a step's engine time to the clients of its step launches (06 R232). -/
def State.chargeStep (s : State) (b : Job) : State :=
  let total := max 1 ((b.shares.map (·.2)).sum)
  let clients := (List.range 64).filter fun m => b.shares.any fun x => decide ((s.job x.1).mbx = m)
  let part (n : Nat) := b.engine * n / total
  let tok (m : Nat) := ((b.shares.filter fun x => decide ((s.job x.1).mbx = m)).map (·.2)).sum
  let given := (clients.map fun m => part (tok m)).sum
  let low := clients.head?.getD 0
  let s := clients.foldl (fun s m => s.modClient m fun a => { a with
    engine := satAdd 64 a.engine (part (tok m) + if m = low then b.engine - given else 0) }) s
  b.shares.foldl (fun s x => s.modJob x.1 fun j => { j with
    engine := satAdd 64 j.engine (part x.2), arith := arithMerge j.arith b.arith
    readyAt := some (j.readyAt.getD (b.readyAt.getD 0)) }) s

/-- Tasks end without completing: charged, off their Spires, what they advance marked FAILED (06 R226, R227). -/
def State.endTasks (s : State) (j : Nat) (is : List Nat) : State :=
  let s := is.foldl (fun s i => ((s.stopTask j i).leaveSpire j i).modTask j i fun t => { t with phase := .failed }) s
  { s with sch := s.sch.setFailed (is.flatMap fun i => taskMarks (s.task j i).decl) }

/-- The tasks of a job that have not ended. -/
def State.openTasks (s : State) (j : Nat) : List Nat :=
  (List.range (s.job j).tasks.length).filter fun i => decide ((s.task j i).phase ≠ .done) && decide ((s.task j i).phase ≠ .failed)

/-- A job gets its cause: its tasks end (06 R226, R227). -/
def State.setCause (s : State) (j cause src bit : Nat) : State :=
  (s.endTasks j (s.openTasks j)).modJob j fun b => { b with
    cause := some cause, endAt := s.clk.ctc, faultSource := src, faultBit := bit
    arith := b.tasks.foldl (fun a (t : TaskSt) => arithMerge a t.arith) 0 }

/-- A job may still get a cause: it has none, or it is aborted after an end that has not been posted, while its DUAL instances are
compared or a takeover reruns it (06 R228). -/
def Job.endable (b : Job) (cause : Nat) : Bool :=
  b.live && decide (b.kind ≠ .stepLaunch) && (b.cause.isNone || (decide (cause = causeAborted) && decide (b.cause = some causeOk)))

/-- Fail a job, and with cause DEPENDENCY every job of the partition with a task that what it leaves FAILED ends (06
R226, R227). `fuel` bounds the chain by the number of jobs. -/
def State.failJob (s : State) (j cause src bit : Nat) : Nat → State
  | 0 => s
  | fuel + 1 =>
    let b := s.job j
    if b.endable cause then
      let marks := (s.openTasks j).flatMap fun i => taskMarks (s.task j i).decl
      let s := s.setCause j cause src bit
      let s := if b.kind = .step then
          let s := (s.chargeStep (s.job j)).modJob j fun x => { x with engine := 0, arith := 0 }
          (b.wants.foldl (fun s w => s.takeTokens w.handle cause src bit w.tokens (b.served s.jobIds)) s).closeStepLaunches
        else s
      let s := ((s.depsOf b.part marks).filter fun k => decide (k ≠ j)).foldl (fun s k => s.failJob k causeDependency src bit fuel) s
      s.closeJob j
    else s

/-- Fail a job with the fuel its chain needs. -/
def State.fail (s : State) (j cause src bit : Nat) : State := s.failJob j cause src bit (s.sch.jobs.length + 1)

/-- The shadow instance of a DUAL launch fails: its tasks end, and the launch will count as a disagreement (09 R335). Its
signatures read as none of the primary's: an empty list. -/
def State.failShadow (s : State) (j : Nat) : State :=
  let mine := (List.range (s.job j).tasks.length).filter fun i =>
    (s.task j i).decl.shadow && decide ((s.task j i).phase ≠ .done) && decide ((s.task j i).phase ≠ .failed)
  (s.endTasks j mine).modJob j fun b => { b with sigsS := some [], shadowFailed := true }

/-- Task `i` of a job fails: the launch with it, or only the shadow instance it belongs to (06 R226, 09 R335). -/
def State.failTask (s : State) (j i cause src bit : Nat) : State :=
  if (s.job j).dual ≠ 0 ∧ (s.task j i).decl.shadow then s.failShadow j else s.fail j cause src bit

/-- The task of a Spire ends with a fault of a unit: cause FAULT (06 R226). -/
def State.failSpire (s : State) (sp src bit : Nat) : State :=
  match (s.spire sp).job with
  | some (j, i) => s.failTask j i causeFault src bit
  | none => s

/-- A unit fails what it was to advance for a task that goes on failing (07 R242): the marks, and the tasks they end. -/
def State.failMarks (s : State) (p : Nat) (marks : List (Nat × Nat)) (src bit : Nat) : State :=
  let s := { s with sch := s.sch.setFailed marks }
  (s.depsOf p marks).foldl (fun s k => s.fail k causeDependency src bit) s

/-- The task whose run a unit acts for ends with a fault of the unit: cause FAULT (06 R226); a late one's is no task's any more. -/
def State.failRun (s : State) (t : TaskId) (src bit : Nat) : State :=
  if s.liveRun t ∧ (s.task t.1 t.2.1).phase ≠ .done then s.failTask t.1 t.2.1 causeFault src bit
  else if s.liveRun t then s.fail t.1 causeFault src bit else s

/-- A step launch ends with a cause of its own; what it still wanted is wanted no more (06 R226, R528). -/
def State.endStepLaunch (s : State) (j cause src bit : Nat) : State :=
  if (s.job j).live ∧ (s.job j).kind = .stepLaunch ∧ (s.job j).cause.isNone then
    (s.modJob j fun b => { b with wants := [], cause := some cause, faultSource := src, faultBit := bit, endAt := s.clk.ctc }).closeJob j
  else s

/-- Stop the steps that serve no launch but `j` (06 R228). -/
def State.stopSteps (s : State) (j cause : Nat) : State :=
  ((s.jobsOf (s.job j).part).filter fun k =>
    decide ((s.job k).kind = .step) && (s.job k).cause.isNone && !(s.job k).shares.isEmpty &&
      (s.job k).shares.all fun x => decide (x.1 = j) || !(s.job x.1).live).foldl (fun s k => s.fail k cause 0 0) s

/-- Abort a launch: cause ABORTED (06 R228); a step launch drops its wanted tokens and stops the steps that serve it
alone. -/
def State.abort (s : State) (j : Nat) : State :=
  if (s.job j).kind = .stepLaunch then (s.stopSteps j causeAborted).endStepLaunch j causeAborted 0 0
  else s.fail j causeAborted 0 0

/-- The twin partner is paired and reachable. -/
def State.partnerUp (s : State) : Bool := decide (s.tw.st = 1)

/-- Ask the partner to take a partition; without one the Lanterns post the refusal to their safety mailboxes (09 R315,
log 9). -/
def State.askTwin (s : State) (p : Nat) : State :=
  if s.partnerUp then s.send (.takeoverRequest (Fin.ofNat 16 p))
  else s.faultRec ⟨s.recs.seq, srcIo s.poster 2, 42, p, lvPartition, s.clk.ctc⟩

/-- A partition becomes DEGRADED (06 R205): event, LAUNCH_AT not yet started ends ABORTED (08 R300), the twin is
asked (09 R312). -/
def State.degrade (s : State) (p : Nat) : State :=
  if (s.part p).live ∧ ¬ (s.part p).degraded then
    let s := s.modPart p fun x => { x with degraded := true }
    let s := s.post 7 (srcIo s.poster 2) 2 p [] false
    let s := (s.jobsOf p).foldl (fun s j => if (s.job j).startAt.isSome then s.abort j else s) s
    s.askTwin p
  else s

/-- Partitions left without a Spire lose their launches and become DEGRADED (06 R226, 09 R313). -/
def State.loseSpires (s : State) : State :=
  s.users.foldl (fun s p =>
    if s.hasSpire p then s
    else
      let s := (s.jobsOf p).foldl (fun s j => s.fail j causeNoSpire 0 22) s
      ((s.jobsOf p).foldl (fun s j => s.endStepLaunch j causeNoSpire 0 22) s).degrade p) s

/-- Quarantine a Spire (02 R79): it stops and writes nothing more, leaves placement, and its task waits to be restarted
on another Spire (R80). -/
def State.quarantine (s : State) (sp : Nat) : State :=
  if (s.spire sp).quarantined then s
  else
    let s := s.record sp 22 lvUnit {}
    let s := s.settle sp
    let s := match (s.spire sp).job with
      | some (j, i) => s.modTask j i fun t => { t with phase := .failover, waitSince := none, yWaits := [], run := t.run + 1 }
      | none => s
    let s := s.modSpire sp fun x => { x with
      quarantined := true, job := none, retry := none, preempt := none, goldenRun := false, held := none }
    s.loseSpires

/-- Take a Dome out of service: its Spires are quarantined, its KV Gather Unit and Score Sorter leave service (09
R313). -/
def State.domeOutOfService (s : State) (d : Nat) : State :=
  let s := { s with saf := { s.saf with
    domeOut := tput false s.saf.domeOut d true, kvOut := tput false s.saf.kvOut d true
    sorterOut := tput false s.saf.sorterOut d true } }
  (List.range 4).foldl (fun s i => s.quarantine (4 * d + i)) s

/-- Tower quarantine (09 R314): its Spires, KV Gather Units and Score Sorters; the base die serves on. -/
def State.towerQuarantine (s : State) (t : Nat) : State :=
  let s := { s with saf := { s.saf with
    towerQ := tput false s.saf.towerQ t true
    kvOut := (List.range 4).foldl (fun x i => tput false x (4 * t + i) true) s.saf.kvOut
    sorterOut := (List.range 4).foldl (fun x i => tput false x (4 * t + i) true) s.saf.sorterOut } }
  (List.range 16).foldl (fun s i => s.quarantine (16 * t + i)) s

/-- A PACKAGE decision of Lantern `l` (09 R312, R320, R349): its pin goes low, every ASIL partition becomes DEGRADED, the
SAFETY event and the fault records are posted, the twin partner is told over the TIME class (10 R353, R365); the next cross-watch frame
carries it. -/
def State.packageDecision (s : State) (l seq : Nat) : State :=
  if (s.lantern l).package then s
  else
    let first := !(s.lantern (1 - l)).package
    let s := s.modLantern l fun x => { x with package := true, pinLow := true, level := 5 }
    if first then
      let s := s.post 0x0A (srcIo s.poster 2) 1 seq [] true
      let s := s.faultRec ⟨seq, srcIo l 2, 0, 0, lvPackage, s.clk.ctc⟩
      let s := if s.partnerUp then s.send .packageDecision else s
      s.users.foldl (fun s p => if 1 ≤ (s.part p).cls then s.degrade p else s) s
    else s

/-- The PACKAGE decision both Lanterns in service take on a report (09 R313, R320). -/
def State.packageAll (s : State) : State :=
  let seq := s.recs.seq
  let s := if (s.lantern 0).out then s else s.packageDecision 0 seq
  if (s.lantern 1).out then s else s.packageDecision 1 seq

/-- The reactions to a PACKAGE event of a unit: the decision, and, a level including those below it, the quarantine of a base die
unit's own Tower (09 R312). -/
def State.packageFrom (s : State) (src : Nat) : State :=
  let s := s.packageAll
  if 0x80 ≤ src ∧ src < 0x100 then s.towerQuarantine ((src - 0x80) / 0x20) else s

/-- A Lantern's own mismatch: pin low, heartbeat stops and holds its level, out of service (09 R322). -/
def State.lanternOut (s : State) (l : Nat) : State :=
  s.modLantern l fun x => { x with out := true, toggling := false, pinLow := true }

end Sys2Proof.Machine
end

