-- ==== Sys2Proof/Machine/Dram.lean ====
section
/-! DEFINITION. Line requests at the DRAM channel controllers and Tower Link egress ports (07 R253, R263, R265), accounting of their bytes
(06 R233), what a unit's read of words and lines finds, and a unit's stores (07 R238, R239, R243, R249, R255). -/

namespace Sys2Proof.Machine

/-! ### Requests (07 R253, R265) -/

/-- A request's cost in lines (07 R263). -/
def DramReq.cost (q : DramReq) : Nat := if q.partial_ then 2 else 1

/-- A request arrives: into its queue while that has room, else behind those that wait for room (07 R253). -/
def Chan.arrive (c : Chan) (q : DramReq) : Chan :=
  let q := { q with no := c.arr }
  let c := { c with arr := c.arr + 1 }
  if q.write then
    if c.wq.length < 64 ∧ c.wwait.isEmpty then { c with wq := c.wq ++ [q] } else { c with wwait := c.wwait ++ [q] }
  else if c.rq.length < 64 ∧ c.rwait.isEmpty then { c with rq := c.rq ++ [q] } else { c with rwait := c.rwait ++ [q] }

/-- Requests that waited enter a queue that has room (07 R253). -/
def Chan.takeIn (c : Chan) : Chan :=
  let r := 64 - c.rq.length
  let w := 64 - c.wq.length
  { c with
    rq := c.rq ++ c.rwait.take r, rwait := c.rwait.drop r
    wq := c.wq ++ c.wwait.take w, wwait := c.wwait.drop w }

/-- Draw lines from a partition's bucket at each egress port between two dies; one that is short is emptied (07 R265; log 116). -/
def State.drawEgress (s : State) (from_ to_ : Die) (p cost : Nat) : State :=
  match egressPorts from_ to_ with
  | [] => s
  | ports => { s with mem := { s.mem with egress := ports.foldl (fun e (k : Nat) =>
      tmod [] e k fun (b : Tab Nat) => tmod 0 b p fun n => n - cost * 256) s.mem.egress } }

/-- Lines a DRAM range covers: channel, first channel data address, device address. -/
def State.linesOf (s : State) (a n : Nat) : List (Nat × Nat × Nat) :=
  (List.range ((a + n - 1) / 64 + 1 - a / 64)).map fun i =>
    let la := (a / 64 + i) * 64
    let m := s.dramMap la
    (m.1, m.2, la)

/-- The requests of an access leave its requester: through the egress ports on their way, and those of DRAM into the queues of their
channels (07 R253, R265). -/
def State.enqueue (s : State) (o : Origin) (a n : Nat) (write : Bool) : State :=
  if n = 0 then s
  else match s.kind a with
    | some .dram => (s.linesOf a n).foldl (fun s (l : Nat × Nat × Nat) =>
        let whole := decide (a ≤ l.2.2) && decide (l.2.2 + 64 ≤ a + n)
        let q : DramReq := { line := l.2.1, write := write, partial_ := write && !whole, by_ := o, at_ := s.clk.elapsed, da := l.2.2 }
        (s.drawEgress o.die (.tower (l.1 / 16)) o.part q.cost).modChan l.1 fun c => c.arrive q) s
    | some (.towerSram t) => s.drawEgress o.die (.tower t) o.part ((a + n - 1) / 64 + 1 - a / 64)
    | some .host => s.drawEgress o.die (.io (s.route (Die.near o.die))) o.part ((a + n - 1) / 64 + 1 - a / 64)
    | _ => s

/-- Account a request's bytes at the channel controller: to its client, else to its partition, else to the system partition (06
R232, R233; log 112). -/
def State.chargeDram (s : State) (q : DramReq) : State :=
  let f (a : Acct) : Acct := { a with dram := satAdd 64 a.dram (64 * q.cost) }
  match q.by_.client with
  | some m => s.modClient m f
  | none => if q.by_.part = 0 then { s with sch := { s.sch with system := f s.sch.system } } else s.modPartAcct q.by_.part f

/-! ### What a read finds (07 R238, R240, R243, R249, R267) -/

/-- The unit of protection at an address: a line of DRAM, a word elsewhere (07 R239, R255). -/
def State.unitAt (s : State) (a : Nat) : Nat := if s.kind a = some .dram then 64 else 8

/-- The words or lines a range meets, by first address. -/
def State.cellsOf (s : State) (a n : Nat) : List Nat :=
  let u := s.unitAt a
  if n = 0 then [] else (List.range ((a + n - 1) / u + 1 - a / u)).map fun i => (a / u + i) * u

/-- Those of a range that are uncorrectable. -/
def State.badCells (s : State) (a n : Nat) : List Nat := (s.cellsOf a n).filter s.isBad

/-- Those a write of the range replaces only in part (07 R239, R255). -/
def State.partCells (s : State) (a n : Nat) : List Nat :=
  let u := s.unitAt a
  (s.cellsOf a n).filter fun c => !(decide (a ≤ c) && decide (c + u ≤ a + n))

/-- A page of some partition's KV pool is marked for retirement (04 R143). -/
def State.retirePage (s : State) (a : Nat) : State :=
  if s.kind a = some .dram ∧ s.users.any fun p => decide ((s.part p).kvDa ≤ a) && decide (a < (s.part p).kvDa + (s.part p).kvBytes)
  then { s with mem := { s.mem with retire := tput false s.mem.retire (a / 16384) true } } else s

/-- What an access carries to a record: who made it. -/
def Origin.note (o : Origin) (a : Nat) : Note := { addr := a, part := some o.part, source := some o.source }

/-- A bank or controller reports a word or line uncorrectable (07 R238, R243); one in a KV page marks the page (04 R143). -/
def State.reportUe (s : State) (o : Origin) (c : Nat) : State :=
  (s.record (s.memUnit c) 6 lvTask (o.note (s.memAddr c))).retirePage c

/-- The decoder meets errors in words or lines, the i-th of the list in the i-th (07 R238, R249; log 107): a corrected one is counted, an
uncorrectable one marked. -/
def State.strike (s : State) (o : Origin) : List Nat → List EccCond → State
  | c :: cs, e :: es =>
    (match e with
      | .clean | .ctrl => s
      | .single => if s.isBad c then s else s.record (s.memUnit c) 5 lvMasked (o.note (s.memAddr c))
      | .bad => s.setBad c true).strike o cs es
  | _, _ => s

/-- A unit's read of a range: its requests, the errors met, and a report of every uncorrectable word or line. What it delivers is `rd`,
poisoned where `anyBad` (07 R242, R243). -/
def State.fetch (s : State) (o : Origin) (a n : Nat) (conds : List EccCond) : State :=
  let s := (s.enqueue o a n false).strike o (s.cellsOf a n) conds
  (s.badCells a n).foldl (fun s c => s.reportUe o c) s

/-- Store the bytes of a write that fall into one word or line, unless it is uncorrectable and not wholly replaced (07
R239, R255). -/
def State.writeCell (s : State) (a : Nat) (bs : List Byte) (unit : Nat) : State :=
  let whole := a % unit = 0 ∧ bs.length = unit
  if s.isBad a ∧ ¬ whole then s else (s.wr a bs).setBad a false

/-- Store bytes word by word or line by line (07 R239, R255). -/
def State.writeCells (s : State) (a : Nat) (bs : List Byte) (unit : Nat) : Nat → State
  | 0 => s
  | fuel + 1 =>
    let n := min bs.length (unit - a % unit)
    if n = 0 then s else (s.writeCell a (bs.take n) unit).writeCells (a + n) (bs.drop n) unit fuel

/-- Store bytes at an address as a write of them does. -/
def State.put (s : State) (a : Nat) (bs : List Byte) : State := s.writeCells a bs (s.unitAt a) (bs.length + 1)

/-- The first word or line a write cannot change: uncorrectable, and replaced only in part (07 R239, R255). -/
def State.blocked (s : State) (a n : Nat) : Option Nat := (s.partCells a n).find? s.isBad

/-- A unit's write of a range: its requests; the merge reads of its partial words and lines, whose errors are met and reported at
acceptance (07 R247); and the stores. -/
def State.store (s : State) (o : Origin) (a : Nat) (bs : List Byte) (conds : List EccCond) : State :=
  let s := (s.enqueue o a bs.length true).strike o (s.partCells a bs.length) conds
  let s := ((s.partCells a bs.length).filter s.isBad).foldl (fun s c => s.reportUe o c) s
  s.put a bs

end Sys2Proof.Machine
end

