-- ==== Sys2Proof/Machine/Heat.lean ====
section
/-! DEFINITION. What heat, supply and coolant ask of Spires and partitions: the clock step a Spire runs at (15 R486, R495), Spires
switched off (R484), suspension (06 R205). -/

namespace Sys2Proof.Machine

/-- A Tower's heat and supply. -/
def State.tower (s : State) (t : Nat) : TowerHeat := tget {} s.heat.towers t

/-- Change a Tower's heat and supply. -/
def State.modTower (s : State) (t : Nat) (f : TowerHeat → TowerHeat) : State :=
  { s with heat := { s.heat with towers := tmod {} s.heat.towers t f } }

/-- The step a Spire is to run at (15 R491, R495, R503, R487): the least of the Tower's ceiling and cap, the power ceiling of
the partition whose task it runs, the Survival ceiling, its fused step, and what a silent regulator's last voltage supports. -/
def State.stepOf (s : State) (sp : Nat) : Nat :=
  let t := s.tower (sp / 16)
  let power := match (s.spire sp).job with
    | some (j, _) => (s.part (s.job j).part).ceil
    | none => 16
  let a := min (min t.ceil t.cap) (min power (min 16 (max 4 (Config.fusedStep sp))))
  let b := if t.lostReg then min a t.okStep else a
  if s.heat.cool.survival.isSome then min b 4 else b

/-- The highest step the Tower's rail supports now: its voltage is requested and confirmed (15 R487). -/
def TowerHeat.limit (t : TowerHeat) : Nat := min t.reqStep t.okStep

/-- The highest step among values of a Tower's Spires in service. -/
def State.highest (s : State) (t : Nat) (f : Spire → Nat) : Nat :=
  (List.range 16).foldl (fun m i => if (s.spire (16 * t + i)).quarantined then m else max m (f (s.spire (16 * t + i)))) 4

/-- A Tower Monitor requests the voltage of a higher step before any Spire rises to it (15 R487). -/
def State.raiseRail (s : State) (t : Nat) : State :=
  let n := s.highest t (·.want)
  if (s.tower t).reqStep < n then s.modTower t fun x => { x with reqStep := n } else s

/-- The voltage is written lower after the Spires have relocked (15 R487). -/
def State.lowerRail (s : State) (t : Nat) : State :=
  let n := s.highest t fun x => max x.clk x.want
  if n < (s.tower t).reqStep then s.modTower t fun x => { x with reqStep := n, okStep := min x.okStep n } else s

/-- A Spire takes the step asked of it at its next relock. -/
def State.wantStep (s : State) (sp : Nat) : State :=
  (s.modSpire sp fun x => { x with want := s.stepOf sp }).raiseRail (sp / 16)

/-- Every Spire of a Tower does. -/
def State.wantTower (s : State) (t : Nat) : State := (List.range 16).foldl (fun s i => s.wantStep (16 * t + i)) s

/-- Every Spire does. -/
def State.wantAll (s : State) : State := (List.range 4).foldl (fun s t => s.wantTower t) s

/-- A Spire's logic, or its Dome, is switched off (15 R484); the domain's number. -/
def State.spireOff (s : State) (sp : Nat) : Bool := tget false s.heat.domainOff sp || tget false s.heat.domainOff (128 + sp / 4)

/-- A cause suspends a partition (06 R205, R221): its running tasks are pre-empted at their next yield point. -/
def State.suspend (s : State) (p : Nat) (cause : BitVec 8) : State :=
  let s := s.modPart p fun x => { x with causes := x.causes ||| cause }
  (List.range 64).foldl (fun s sp =>
    match (s.spire sp).job with
    | some (j, _) =>
      if (s.job j).part = p ∧ (s.spire sp).preempt.isNone then s.modSpire sp fun x => { x with preempt := some .suspended } else s
    | none => s) s

/-- A hot spot. -/
def State.spot (s : State) (i : Nat) : HotSpot := tget {} s.heat.spots i

/-- The highest governing temperature of some hot spots, in 0.25 °C. -/
def State.hottest (s : State) (l : List Nat) : Int :=
  match l with
  | [] => 0
  | a :: t => t.foldl (fun m i => max m (s.spot i).gov) (s.spot a).gov

/-- The hot spots of compute dies, all or of one Tower, and of a base die (15 R489). -/
def computeSpots : List Nat := (List.range 16).map fun i => 8 * (i / 4) + i % 4
def towerSpots (t : Nat) : List Nat := (List.range 4).map fun i => 8 * t + i
def baseSpots (t : Nat) : List Nat := (List.range 4).map fun i => 8 * t + 4 + i

/-- The band of a temperature (15 R505). -/
def lifeBand (g : Int) : Nat := if g < 340 then 0 else if g < 420 then 1 else if g < 460 then 2 else if g < 500 then 3 else 4

/-- Bring the times of operation up to now (15 R505). -/
def State.ageLife (s : State) : State :=
  let l := s.heat.life
  let dt := s.clk.elapsed - l.at_
  let band := lifeBand (s.hottest computeSpots)
  { s with heat := { s.heat with life := { l with
    ns := l.ns + dt, bands := tmod 0 l.bands band fun n => n + dt, at_ := s.clk.elapsed } } }

end Sys2Proof.Machine
end

