-- ==== Sys2Proof/Machine/Sched.lean ====
section
/-! DEFINITION. Scheduling (06 R207 to R228): windows, slack, dispatch by virtual time, yield points, saves, WCET
supervision, Golden Tile slots (09 R329, R330), row tokens (03 R97 to R101), clock changes (01 R37). -/

namespace Sys2Proof.Machine

/-- A Spire is free for a partition's task (06 R218): one that has run a spatial partition for its budget is not (R209), nor one of a
Tower in reset (14 R463), nor one switched off (15 R485). -/
def State.freeSpire (s : State) (p sp : Nat) : Bool :=
  let x := s.spire sp
  s.inSet p sp && !s.spireOff sp && !s.waits (.towerReset (sp / 16)) && !x.quarantined && !x.stopped && x.job.isNone && x.held.isNone && !x.goldenRun &&
    !((s.part p).priv && (x.throttled || decide ((s.part p).budgetUs * 1000 ≤ x.used)))

/-- A Spire belongs to the instance a task runs on: every Spire of the set but for a DUAL partition, whose shadow tasks run
on SHADOW_MASK and whose other tasks on its other Domes (09 R331, R332). -/
def State.instOk (s : State) (p : Nat) (shadow : Bool) (sp : Nat) : Bool :=
  decide ((s.part p).dual.mode = 0) || decide ((s.part p).dual.shadow.getLsbD (sp / 4) = shadow)

/-- Task `i` of job `j` may be dispatched: ready with a save slot to take, or saved with everything it waits for reached (06 R216,
R223; log 114). -/
def State.dispatchable (s : State) (j i : Nat) : Bool :=
  let t := s.task j i
  let p := s.part (s.job j).part
  (decide (t.phase = .saved) && t.yWaits.all (s.reached none j)) ||
    (decide (t.phase = .ready) && (t.started || (findLow (fun k => !tget false p.slots k) p.saveSlots 0).isSome))

/-- The tasks of a client that may be dispatched: pre-empted ones first, then launch order and task number (06 R216). -/
def State.clientTasks (s : State) (p c : Nat) : List (Nat × Nat) :=
  let js := (s.jobsOf p).filter fun j => decide ((s.job j).mbx = c) && (s.job j).startAt.isNone
  let all := js.flatMap fun j => (List.range (s.job j).tasks.length).map fun i => (j, i)
  (all.filter fun x => decide ((s.task x.1 x.2).phase = .saved) && s.dispatchable x.1 x.2) ++
    all.filter fun x => decide ((s.task x.1 x.2).phase = .ready) && s.dispatchable x.1 x.2

/-- A client has a ready or running task (06 R217). -/
def State.clientActive (s : State) (p c : Nat) : Bool :=
  (s.jobsOf p).any fun j => decide ((s.job j).mbx = c) && (s.job j).tasks.any fun t =>
    decide (t.phase = .ready) || decide (t.phase = .running) || decide (t.phase = .saved) ||
      decide (t.phase = .saving) || decide (t.phase = .failover)

/-- The least number that `f` gives, with the lower index on a tie. -/
def argmin (f : Nat → Nat) : List Nat → Option Nat
  | [] => none
  | a :: t => match argmin f t with
    | some b => if f a ≤ f b then some a else some b
    | none => some a

/-- The next task of a partition that Spire `sp` may run: the client with the least virtual time, lower mailbox on a tie (06
R217). -/
def State.nextTask (s : State) (p sp : Nat) : Option (Nat × Nat) :=
  let of (c : Nat) := (s.clientTasks p c).filter fun (x : Nat × Nat) => s.instOk p (s.task x.1 x.2).decl.shadow sp
  let cs := (List.range 64).filter fun c => !(of c).isEmpty
  match argmin (fun c => (s.mbx c).vt) cs with
  | some c => (of c).head?
  | none => none

/-- A partition's tasks may be dispatched now: it is not SUSPENDED, RESETTING or DESTROYING (06 R205). -/
def State.runs (s : State) (p : Nat) : Bool := (s.part p).live && decide ((s.part p).causes = 0) && decide ((s.part p).ending = 0)

/-- Time-sliced partitions that may borrow: with a task that may be dispatched (06 R213). -/
def State.borrowers (s : State) (sp : Nat) : List Nat :=
  s.users.filter fun p => !(s.part p).priv && s.runs p && (s.nextTask p sp).isSome

/-- The partition a free Spire serves next, and whether it borrows (06 R213). -/
def State.serves (s : State) (sp : Nat) : Option (Nat × Bool) :=
  match s.users.find? fun p => (s.part p).priv && (s.part p).domes.getLsbD (sp / 4) with
  | some p => if s.runs p ∧ (s.nextTask p sp).isSome then some (p, false) else none
  | none =>
    let owner := s.sch.frame.owner
    match owner with
    | some o =>
      if s.runs o ∧ (s.nextTask o sp).isSome then some (o, false)
      else if (s.part o).strict then none
      else (argmin (fun p => (s.part p).vt) (s.borrowers sp)).map fun p => (p, true)
    | none => if s.sch.frame.slack then (argmin (fun p => (s.part p).vt) (s.borrowers sp)).map fun p => (p, true) else none

/-- A Spire serves a partition now (06 R213): the owner of its Dome, the window's owner, or the borrower the share arithmetic
chooses. -/
def State.servesPart (s : State) (p sp : Nat) : Bool :=
  let lent : Bool := decide (argmin (fun q => (s.part q).vt) (s.users.filter fun q =>
    decide (q = p) || (s.borrowers sp).contains q) = some p)
  match s.users.find? fun q => (s.part q).priv && (s.part q).domes.getLsbD (sp / 4) with
  | some q => decide (q = p)
  | none => match s.sch.frame.owner with
    | some o => decide (o = p) || (!(s.part o).strict && !(s.runs o && (s.nextTask o sp).isSome) && lent)
    | none => s.sch.frame.slack && lent

/-- The first free Spire of a partition for a task of an instance (06 R218). -/
def State.firstFree (s : State) (p : Nat) (shadow : Bool) : Option Nat :=
  findLow (fun sp => s.freeSpire p sp && s.servesPart p sp && s.instOk p shadow sp) 64 0

/-- The bucket of a wait of `w` µs (06 R234). -/
def waitBucket (us : Nat) : Nat := if us = 0 then 0 else min 15 (Nat.log2 us + 1)

/-- Account one wait (06 R233, R234). -/
def Acct.wait (a : Acct) (ns : Nat) : Acct :=
  { a with
    waitSum := satAdd 64 a.waitSum ns
    waitMax := max a.waitMax (min (ns / 1000) (2 ^ 32 - 1))
    hist := tmod 0 a.hist (waitBucket (ns / 1000)) fun n => satAdd 32 n 1 }

/-- Charge the system partition for zeroing a Store: up to 5 µs at 1.0 GHz, the time itself being open (06 R203, R232; log 10). -/
def State.chargeZero (s : State) : State :=
  let x := s.draw 64
  { x.2 with sch := { x.2.sch with system := { x.2.sch.system with engine := satAdd 64 x.2.sch.system.engine (x.1 % 5121) } } }

/-- Zero a Spire's Store before it serves another partition (06 R203). -/
def State.zeroStore (s : State) (sp p : Nat) : State :=
  let s := if (s.spire sp).lastPart = p then s else (s.zero (spireStoreBase + sp * 0x400000) 0x400000).chargeZero
  s.modSpire sp fun x => { x with lastPart := p }

/-- The save record of a task (06 R222): head, range table, range data; `live` are (offset, length) in 64 bytes. -/
def State.saveRecord (s : State) (j i sp : Nat) : List Byte :=
  let b := s.job j
  let t := s.task j i
  let live := t.decl.yields.getD t.yield_ []
  let table := live.flatMap fun r => le 8 (r.2 % 2 ^ 17 * 2 ^ 32 + r.1 % 2 ^ 16)
  let body := table ++ List.replicate (512 - 8 * live.length) (0 : Byte) ++
    live.flatMap fun r => s.rd (spireStoreBase + sp * 0x400000 + 64 * r.1) (64 * r.2)
  let head (crc : Nat) := le 8 (2 ^ 56 + b.part * 2 ^ 48 + b.mbx * 2 ^ 40 + b.gen * 2 ^ 32 + b.tag * 2 ^ 16 + t.yield_ % 2 ^ 16) ++
    le 8 (b.image * 2 ^ 56 + t.index % 2 ^ 16 * 2 ^ 40 + (live.length - 1) % 64 * 2 ^ 32 + t.arith.toNat) ++
    le 8 b.step ++ le 8 (t.charge / 16) ++ le 8 s.clk.ctc ++ le 8 t.retry ++ le 8 0 ++ le 8 crc ++
    (t.ctx ++ List.replicate (192 - t.ctx.length) (0 : Byte)).take 192
  head (crc64 (head 0 ++ body)) ++ body

/-- Where a task's save slot lies. -/
def State.slotDa (s : State) (j i : Nat) : Nat :=
  let p := s.part (s.job j).part
  p.saveDa + (s.task j i).slot * p.saveBytes

/-- A save record as it stands in memory has its CRC-64 (06 R221, R222). -/
def State.saveOk (s : State) (j i : Nat) : Bool :=
  let a := s.slotDa j i
  let t := s.task j i
  let live := t.decl.yields.getD t.yield_ []
  let n := 768 + 64 * (live.map (·.2)).sum
  let bs := s.rd a n
  decide (leNat ((bs.drop 56).take 8) = crc64 (bs.take 56 ++ List.replicate 8 (0 : Byte) ++ bs.drop 64)) && !s.anyBad a n

/-- Copy the live ranges of a save record back into a Spire's Store (06 R221). -/
def State.restoreRanges (s : State) (a sp : Nat) : List (Nat × Nat) → State
  | [] => s
  | (off, len) :: t =>
    (s.put (spireStoreBase + sp * 0x400000 + 64 * off) (s.rd a (64 * len))).restoreRanges (a + 64 * len) sp t

/-- The virtual-time charge of `us` µs at weight `w` (06 R217). -/
def vtCharge (us w : Nat) : Nat := us * 65536 / max 1 w

/-- On whose behalf a Spire saves and restores task `i` of job `j`. -/
def State.taskOrigin (s : State) (j i sp : Nat) : Origin :=
  { part := (s.job j).part, source := sp, die := .tower (sp / 16), task := some (s.taskId j i), client := some (s.job j).mbx }

/-- The live ranges of the yield point a task is at, and the bytes of its save record (06 R220, R222). -/
def TaskSt.live (t : TaskSt) : List (Nat × Nat) := t.decl.yields.getD t.yield_ []
def TaskSt.saveBytes (t : TaskSt) : Nat := 768 + 64 * (t.live.map (·.2)).sum

/-- The window descriptors of a task are valid, and so is every row ring of its launch that it fills or empties (03 R87, R101): what
the Spire checks before it starts the task. -/
def State.startOk (s : State) (j i : Nat) : Bool :=
  let d := (s.task j i).decl
  (d.wins.all fun w => winDescOk w.1 w.2.1 w.2.2) &&
    (List.range (s.job j).tasks.length).all fun k => match (s.task j k).decl.ring with
      | some r => ringFits r || !(decide (k = i) || d.tokens.any fun x => decide ((x.1, x.2.1) = r.tok))
      | none => true

/-- A placement's accounting (06 R217, R223, R234): the wait, a save slot and the WCET charge at first dispatch, and the partition's
charge at its first borrowed one (R213; log 115). -/
def State.chargePlace (s : State) (j i : Nat) (borrowed : Bool) : State :=
  let b := s.job j
  let t := s.task j i
  let p := b.part
  let s := s.modJobAcct j fun a => a.wait (s.clk.ctc - t.readyAt)
  let slot := (findLow (fun k => !tget false (s.part p).slots k) (s.part p).saveSlots 0).getD 0
  let s := if t.started then s
    else ((s.modPart p fun x => { x with slots := tput false x.slots slot true }).modMbx b.mbx fun x =>
      { x with vt := (x.vt + vtCharge t.decl.wcetUs x.weight) % 2 ^ 64 }).modTask j i fun t => { t with slot := slot }
  if borrowed ∧ ¬ t.lentWcet then
    (s.modPart p fun x => { x with vt := (x.vt + vtCharge t.decl.wcetUs x.share) % 2 ^ 64 }).modTask j i fun t => { t with lentWcet := true }
  else s

/-- The gathers of a restored task go on at the Dome of its Spire, their counters there counting from where they stood (04 R120, R525;
log 126). -/
def State.moveGathers (s : State) (t : TaskId) (sp : Nat) : State :=
  let d := sp / 4
  let mine := (List.range 16).flatMap fun k => ((tget [] s.seq.gathers k).filter fun g => decide (g.task = t)).map fun g =>
    let ctr (dome : Nat) : Nat := tget 0 s.sch.ctrs (64 * dome + bits (g.desc.getD 0 0) 7 2)
    { g with sp := sp, rel0 := (ctr d : Int) - ((ctr k : Int) - g.rel0) }
  if mine.isEmpty then s
  else
    let rest := (List.range 16).foldl (fun x k => tmod [] x k fun (l : List Gather) => l.filter fun g => decide (g.task ≠ t)) s.seq.gathers
    { s with seq := { s.seq with gathers := tmod [] rest d fun l => l ++ mine } }

/-- Put task `i` of job `j` on Spire `sp` (06 R203, R217, R221, R223; 03 R87, R98, R101): a saved one is restored, and waits on where
its shadows lag. -/
def State.place (s : State) (j i sp : Nat) (borrowed : Bool) : State :=
  let t := s.task j i
  let p := (s.job j).part
  let s := (s.chargePlace j i borrowed).zeroStore sp p
  let s := s.modSpire sp fun x => { x with job := some (j, i), preempt := none, retry := none }
  let s := s.modTask j i fun t => { t with
    phase := .running, spire := sp, started := true, since := s.clk.elapsed, borrowed := borrowed }
  let s := s.wantStep sp
  if t.phase = .saved then
    let s := s.fetch (s.taskOrigin j i sp) (s.slotDa j i) t.saveBytes []
    if s.saveOk j i then
      let s := (s.restoreRanges (s.slotDa j i + 768) sp t.live).moveGathers (s.taskId j i) sp
      s.modTask j i fun t => if t.yWaits.all (s.reached (some (sp / 4)) j) then { t with yWaits := [] }
        else { t with waitSince := some s.clk.elapsed }
    else (s.record (srcDome (sp / 4)) 2 lvTask { part := some p, source := some sp }).failTask j i causeSaveCorrupt (srcDome (sp / 4)) 2
  else if s.startOk j i then s
  else (s.record sp 13 lvTask { part := some p, source := some sp }).failTask j i causeFault sp 13

/-- TASK_DISPATCH (06 R213, R217, R218): a free Spire `sp` is served; the task goes to the first free Spire,
unless the test window of that Dome's scheduler is open (09 R339). -/
def execTaskDispatch (sp : Fin 64) (s : State) : Host.Outcome State Fault Refusal :=
  match s.serves sp.val with
  | some (p, borrowed) =>
    match s.nextTask p sp.val with
    | some (j, i) =>
      match s.firstFree p (s.task j i).decl.shadow with
      | some to_ =>
        if s.freeSpire p sp.val ∧ ¬ s.testing (.dome (Fin.ofNat 16 (to_ / 4))) then .next (s.place j i to_ borrowed) else .next s
      | none => .next s
    | none => .next s
  | none => .next s

/-- A partition has a ready or running task (06 R213, R217). -/
def State.partActive (s : State) (p : Nat) : Bool := (List.range 64).any fun c => s.clientActive p c

/-- The least virtual time of the time-sliced partitions that have one (06 R213, R217). -/
def State.lendMin (s : State) : Nat :=
  ((s.users.filter fun p => !(s.part p).priv && s.partActive p).map fun p => (s.part p).vt).min?.getD 0

/-- The least virtual time of a partition's active clients (06 R217). -/
def State.vtMin (s : State) (p : Nat) : Nat :=
  (((List.range 64).filter fun c => s.clientActive p c).map fun c => (s.mbx c).vt).min?.getD 0

/-- Spires of the shared Domes lent while the owner has work are taken back at their next yield point (06 R213). -/
def State.reclaimLent (s : State) (p : Nat) : State :=
  if s.sch.frame.owner = some p ∧ ¬ (s.part p).priv then
    (List.range 64).foldl (fun s sp =>
      match (s.spire sp).job with
      | some (j, _) =>
        if s.inSet p sp ∧ (s.job j).part ≠ p ∧ (s.spire sp).preempt.isNone
        then s.modSpire sp fun x => { x with preempt := some .owner } else s
      | none => s) s
  else s

/-- A client, and a partition among borrowers, that becomes active after having no task starts from the least virtual time (06 R213,
R217). -/
def State.wake (s : State) (p c : Nat) : State :=
  let vmin := s.vtMin p
  let lmin := s.lendMin
  let s1 := if s.clientActive p c then s else s.modMbx c fun x => { x with vt := max x.vt vmin }
  if s.partActive p ∨ (s.part p).priv then s1 else s1.modPart p fun x => { x with vt := max x.vt lmin }

/-- TASK_READY (06 R216, R217); while a takeover's reruns have not ended no new launch becomes ready (10 R366). A task that names what
has FAILED short of its target ends with cause DEPENDENCY (R226, R227). -/
def execTaskReady (job idx : Nat) (s : State) : Host.Outcome State Fault Refusal :=
  let b := s.job job
  let t := s.task job idx
  let rerun := (s.twp b.part).rerun
  if b.live ∧ b.cause.isNone ∧ b.startAt.isNone ∧ idx < b.tasks.length ∧ t.phase = .waiting ∧
      (rerun.isEmpty ∨ rerun.any fun (x : Nat × Bool) => x.1 = job) then
    if t.decl.waits.all (s.reached none job) then
      let s := s.wake b.part b.mbx
      let s := s.modTask job idx fun t => { t with phase := .ready, readyAt := s.clk.ctc }
      let s := s.modJob job fun b => { b with readyAt := some (b.readyAt.getD s.clk.ctc) }
      .next (s.reclaimLent b.part)
    else if t.decl.waits.any (s.doomed none job) then .next (s.failTask job idx causeDependency 0 0)
    else .next s
  else .next s

/-- LAUNCH_AT_START (08 R298, R300): the CTC reaches T; while a Cupola takeover is under way the launch waits for its end. -/
def execLaunchAtStart (job : Nat) (s : State) : Host.Outcome State Fault Refusal :=
  match (s.job job).live, (s.job job).startAt with
  | true, some t => if s.saf.takeover then .next (s.elapseTo t) else .next ((s.elapseTo t).modJob job fun b => { b with startAt := none }).closeStepLaunches
  | _, _ => .next s

/-- The task a Spire runs. -/
def State.running (s : State) (sp : Nat) : Option (Nat × Nat) :=
  match (s.spire sp).job with
  | some (j, i) => if (s.task j i).phase = .running then some (j, i) else none
  | none => none

/-- YIELD_POINT (06 R220, R221, R226; 02 R83; 03 R98): with a pre-emption pending and no tile to recompute the save starts; else the
task goes on, or waits for what it names, or ends with cause DEPENDENCY where that has FAILED. A waiting task reaches no other. -/
def execYieldPoint (sp : Fin 64) (y : Nat) (ctx : List Byte) (w : List WaitRef) (dt : Nat) (s : State) :
    Host.Outcome State Fault Refusal :=
  match s.running sp.val with
  | some (j, i) =>
    if (s.task j i).waitSince.isSome then .next s
    else
      let s := (s.elapse dt).settle sp.val
      let s := s.modTask j i fun t => { t with yield_ := y, ctx := ctx }
      let dome := some (sp.val / 4)
      if w.any (s.doomed dome j) then .next (s.failTask j i causeDependency 0 0)
      else if (s.spire sp.val).preempt.isSome ∧ (s.spire sp.val).retry.isNone then
        .next (s.modTask j i fun t => { t with phase := .saving, yWaits := w })
      else if w.all (s.reached dome j) then .next s
      else .next (s.modTask j i fun t => { t with waitSince := some s.clk.elapsed, yWaits := w })
  | none => .next s

/-- TOKEN_WAIT_DONE (03 R98, R101): everything the waiting task named has been reached. -/
def execTokenWaitDone (sp : Fin 64) (s : State) : Host.Outcome State Fault Refusal :=
  match s.running sp.val with
  | some (j, i) =>
    if (s.task j i).waitSince.isSome ∧ (s.task j i).yWaits.all (s.reached (some (sp.val / 4)) j) then
      .next (s.modTask j i fun t => { t with waitSince := none, yWaits := [] })
    else .next s
  | none => .next s

/-- YIELD_WAIT_TIMEOUT (06 R221; 02 R83): more than 50 µs of waiting while another task of the partition is ready and no Spire
of the set is free; a tile to recompute comes first. -/
def execYieldWaitTimeout (sp : Fin 64) (s : State) : Host.Outcome State Fault Refusal :=
  match s.running sp.val with
  | some (j, i) =>
    match (s.task j i).waitSince with
    | some t0 =>
      let p := (s.job j).part
      if (s.nextTask p sp.val).isSome ∧ (s.firstFree p (s.task j i).decl.shadow).isNone ∧
          (s.spire sp.val).retry.isNone then
        let s := s.elapse (t0 + 50001 - s.clk.elapsed)
        let s := s.settle sp.val
        let s := s.modSpire sp.val fun x => { x with preempt := some .yieldWait }
        .next (s.modTask j i fun t => { t with phase := .saving, waitSince := none })
      else .next s
    | none => .next s
  | none => .next s

/-- SAVE_DONE (06 R221, R222, R211; 02 R79): the record is in the task's slot and the Spire is free; an uncorrectable word among the
live ranges quarantines the Spire instead. -/
def execSaveDone (sp : Fin 64) (dt : Nat) (s : State) : Host.Outcome State Fault Refusal :=
  match (s.spire sp.val).job with
  | some (j, i) =>
    if (s.task j i).phase = .saving then
      let s := s.elapse dt
      let o := s.taskOrigin j i sp.val
      let base := spireStoreBase + sp.val * 0x400000
      let live := (s.task j i).live
      let s := live.foldl (fun s r => s.fetch o (base + 64 * r.1) (64 * r.2) []) s
      if live.any fun r => s.anyBad (base + 64 * r.1) (64 * r.2) then .next (s.quarantine sp.val)
      else
        let s := s.store o (s.slotDa j i) (s.saveRecord j i sp.val) []
        let s := s.modTask j i fun t => { t with phase := .saved, readyAt := s.clk.ctc, waitSince := none }
        let s := s.modJobAcct j fun a => { a with preempts := satAdd 32 a.preempts 1 }
        .next (s.modSpire sp.val fun x => { x with job := none, preempt := none, keep := false })
    else .next s
  | none => .next s

/-- Every task of a job has ended; the tasks of a failed shadow instance count as ended (09 R335). -/
def Job.allDone (b : Job) : Bool :=
  b.tasks.all fun t => decide (t.phase = .done) || (decide (b.dual ≠ 0) && t.decl.shadow && decide (t.phase = .failed))

/-- TASK_END (06 R217, R226, R232; 02 R78): the task has ended by itself; one that waits, or that holds a tile to recompute, has not
ended. -/
def State.taskEnd (s : State) (sp dt : Nat) : State :=
  match s.running sp with
  | some (j, i) =>
    if (s.task j i).waitSince.isSome ∨ (s.spire sp).retry.isSome then s else
    let s := (s.elapse dt).settle sp
    let t := s.task j i
    let s := s.chargeEnd j i
    let s := s.leaveSpire j i
    let s := s.modTask j i fun t => { t with phase := .done }
    let s := { s with sch := { s.sch with
      ctrs := t.decl.counters.foldl (fun x (c : Fin 16 × Fin 64) => tmod 0 x (64 * c.1.val + c.2.val) fun n => n + 1) s.sch.ctrs } }
    let s := s.modJob j fun b => { b with
      arith := arithMerge b.arith t.arith, engine := satAdd 64 b.engine (engineUnits t.charge) }
    if (s.job j).allDone ∧ (s.job j).cause.isNone then
      (s.modJob j fun b => { b with cause := some causeOk, endAt := s.clk.ctc }).closeJob j
    else s
  | none => s

/-- TASK_OVERRUN's part that both policies share (06 R225). -/
def State.overrun (s : State) (sp j i : Nat) : State :=
  let b := s.job j
  let d := srcDome (sp / 4)
  let s := s.record d 20 lvTask { part := some b.part, source := some sp }
  let s := s.modJobAcct j fun a => { a with overruns := satAdd 16 a.overruns 1 }
  let s := s.post 7 d 3 (b.gen * 2 ^ 24 + b.tag * 2 ^ 8 + b.mbx * 4) [] false
  let s := s.modTask j i fun t => { t with overran := true }
  if (s.part b.part).report then s else s.failTask j i causeOverrun d 20

/-- Elapse until the task a Spire runs has been charged `us` µs at 1.0 GHz. -/
def State.chargeTo (s : State) (sp j i us : Nat) : State :=
  let s := s.settle sp
  let left := us * 16000 - (s.task j i).charge
  (s.elapse (ceilDiv left (max 1 (s.spire sp).clk))).settle sp

/-- TASK_OVERRUN (06 R225): the charge reaches the WCET budget. -/
def execTaskOverrun (sp : Fin 64) (s : State) : Host.Outcome State Fault Refusal :=
  match s.running sp.val with
  | some (j, i) =>
    if (s.task j i).overran then .next s
    else .next ((s.chargeTo sp.val j i (s.task j i).decl.wcetUs).overrun sp.val j i)
  | none => .next s

/-- OVERRUN_ABORT (06 R225): under REPORT the charge reaches four times the budget. -/
def execOverrunAbort (sp : Fin 64) (s : State) : Host.Outcome State Fault Refusal :=
  match s.running sp.val with
  | some (j, i) =>
    if (s.task j i).overran ∧ (s.part (s.job j).part).report then
      .next ((s.chargeTo sp.val j i (4 * (s.task j i).decl.wcetUs)).failTask j i causeOverrun (srcDome (sp.val / 4)) 20)
    else .next s
  | none => .next s

/-- TASK_FAILOVER (02 R80, R81; 06 R205, R218): the task of quarantined Spire `sp` restarts from its first tile on the first free Spire
of its partition; a SUSPENDED partition's waits. -/
def execTaskFailover (sp : Fin 64) (s : State) : Host.Outcome State Fault Refusal :=
  let found := s.jobIds.flatMap fun j => ((List.range (s.job j).tasks.length).filter fun i =>
    decide ((s.task j i).phase = .failover) && decide ((s.task j i).spire = sp.val)).map fun i => (j, i)
  match found.head? with
  | some (j, i) =>
    let p := (s.job j).part
    match s.firstFree p (s.task j i).decl.shadow with
    | some to_ =>
      if ¬ s.runs p then .next s else
      let s := s.zeroStore to_ p
      let s := s.modSpire to_ fun x => { x with job := some (j, i), preempt := none, retry := none }
      let s := s.modTask j i fun t => { t with
        phase := .running, spire := to_, since := s.clk.elapsed, arith := t.arith ||| 0x10#32, tiles := 0, band := 0 }
      .next ((s.wantStep to_).post 7 (srcDome (sp.val / 4)) 4 p [] false)
    | none => .next s
  | none => .next s

/-- SPIRE_FLL_RELOCK (01 R37, 02 R83, 06 R211; 15 R487): between two tiles, with no tile to recompute and no clock held;
never above what the confirmed voltage supports. -/
def execSpireFllRelock (sp : Fin 64) (s : State) : Host.Outcome State Fault Refusal :=
  let x := s.spire sp.val
  let n := min x.want (s.tower (sp.val / 16)).limit
  if x.retry.isSome ∨ x.keep then .next s
  else .next (((s.settle sp.val).modSpire sp.val fun x => { x with clk := n }).lowerRail (sp.val / 16))

/-- A Spire has run a spatial partition for its budget: no further task of it in this frame, and one event a frame (06 R209). -/
def State.throttle (s : State) (p sp : Nat) : State :=
  let s := s.modSpire sp fun x => { x with throttled := true, preempt := if x.job.isSome then some .budget else x.preempt }
  if (s.part p).throttlePosted then s
  else (s.modPart p fun x => { x with throttlePosted := true }).post 7 (srcDome (sp / 4)) 1 p [] false

/-- BUDGET_EXHAUSTED (06 R209): a Spire has run a spatial partition for TIME_BUDGET_US in the frame, at a task's run or by what it ran
before. -/
def execBudgetExhausted (sp : Fin 64) (s : State) : Host.Outcome State Fault Refusal :=
  if (s.spire sp.val).throttled then .next s
  else match s.running sp.val with
  | some (j, _) =>
    let p := (s.job j).part
    if (s.part p).priv then
      let s := s.settle sp.val
      .next (((s.elapse ((s.part p).budgetUs * 1000 - (s.spire sp.val).used)).settle sp.val).throttle p sp.val)
    else .next s
  | none => match s.users.find? fun p => (s.part p).priv && (s.part p).domes.getLsbD (sp.val / 4) with
    | some p => if (s.part p).budgetUs * 1000 ≤ (s.spire sp.val).used then .next (s.throttle p sp.val) else .next s
    | none => .next s

/-- The windows of a frame in ascending partition number, at the budgets in force from its start on (06 R208, R214), in ns from the
frame start. -/
def State.layWindows (s : State) : List Nat → Nat → List (Nat × Nat × Nat)
  | [], _ => []
  | p :: t, at_ =>
    let n := (s.part p).nextBudget.getD (s.part p).budgetUs * 1000
    (p, at_, at_ + n) :: s.layWindows t (at_ + n)

/-- The time-sliced partitions. -/
def State.sliced (s : State) : List Nat := s.users.filter fun p => !(s.part p).priv

/-- Pre-empt, at their next yield points, tasks on the shared Spires of a partition other than `keep` (06 R212, R221). -/
def State.preemptShared (s : State) (keep : Option Nat) (why : Preempt) : State :=
  (List.range 64).foldl (fun s sp =>
    match (s.spire sp).job with
    | some (j, _) =>
      if ¬ s.ownedDomes.getLsbD (sp / 4) ∧ some (s.job j).part ≠ keep ∧ (s.spire sp).preempt.isNone
      then s.modSpire sp fun x => { x with preempt := some why } else s
    | none => s) s

/-- The frame start's part of scheduling (06 R207 to R209, R214): budgets and windows restart, slack ends. -/
def State.frameStart (s : State) : State :=
  let f := s.sch.frame
  let s := s.elapseTo f.next
  let s := (List.range 64).foldl (fun s sp => (s.settle sp).modSpire sp fun x => { x with used := 0, throttled := false }) s
  let s := s.users.foldl (fun s p => s.modPart p fun x => { x with
    budgetUs := x.nextBudget.getD x.budgetUs, nextBudget := none, throttlePosted := false }) s
  let sliced := s.sliced
  let s := { s with sch := { s.sch with frame := { s.sch.frame with
    no := f.next / (f.fUs * 1000), start := f.next, next := f.next + f.fUs * 1000, owner := none
    slack := sliced.isEmpty, windows := s.layWindows sliced 0, golden := [], goldenBad := [] } } }
  s.preemptShared none .window

/-- WINDOW_START (06 R208, R212). -/
def execWindowStart (p : Fin 16) (s : State) : Host.Outcome State Fault Refusal :=
  match s.sch.frame.windows.find? fun w => w.1 = p.val with
  | some (_, a, _) =>
    let s := s.elapseTo (s.sch.frame.start + a)
    let s := { s with sch := { s.sch with frame := { s.sch.frame with owner := some p.val, slack := false } } }
    let s := if (s.part p.val).golden.isSome then s else (List.range 64).foldl (fun s sp =>
      if (s.spire sp).held = some p.val then s.modSpire sp fun x => { x with held := none } else s) s
    .next (s.preemptShared (some p.val) .windowEnd)
  | none => .next s

/-- SLACK_START (06 R208, R213): the last window ends. -/
def execSlackStart (s : State) : Host.Outcome State Fault Refusal :=
  let last := s.sch.frame.windows.foldl (fun m w => max m w.2.2) 0
  let s := s.elapseTo (s.sch.frame.start + last)
  let owner := s.sch.frame.owner
  let s := { s with sch := { s.sch with frame := { s.sch.frame with owner := none, slack := true } } }
  match owner with
  | some _ => .next (s.preemptShared none .windowEnd)
  | none => .next s

/-- When a partition's next Golden Tile slot or window starts: the next frame start for a spatial partition; the window
still to come in this frame, or that of the next as it will lie then, for a time-sliced one (06 R208, R210, R214). -/
def State.slotStart (s : State) (p : Nat) : Nat :=
  let f := s.sch.frame
  let at_ (l : List (Nat × Nat × Nat)) : Option Nat := (l.find? fun w => w.1 = p).map fun w => w.2.1
  let next := f.next + (at_ (s.layWindows s.sliced 0)).getD 0
  if (s.part p).priv then f.next
  else match at_ f.windows with
    | some a => if s.clk.ctc ≤ f.start + a then f.start + a else next
    | none => next

/-- The reclaim lead in ns: 60 / f µs at the slowest clock of the Spires (06 R211). -/
def State.reclaimNs (s : State) (p : Nat) : Nat :=
  let ns := ((List.range 64).filter fun sp => s.inSet p sp && !(s.spire sp).quarantined).map fun sp => (s.spire sp).clk
  960000 / max 1 (ns.min?.getD 16)

/-- RECLAIM_LEAD (06 R211): pre-emption of every task on the Spires a Golden Tile slot or STRICT window needs, which
keep at least their clock until their save is done. -/
def execReclaimLead (p : Fin 16) (s : State) : Host.Outcome State Fault Refusal :=
  let x := s.part p.val
  if x.live ∧ (x.golden.isSome ∨ (x.strict ∧ ¬ x.priv)) then
    let s := s.elapseTo (s.slotStart p.val - s.reclaimNs p.val)
    .next ((List.range 64).foldl (fun s sp =>
      if s.inSet p.val sp && !(s.spire sp).quarantined then
        s.modSpire sp fun x => { x with
          held := some p.val
          preempt := if x.job.isSome then some .reclaim else x.preempt
          keep := x.keep || x.job.isSome }
      else s) s)
  else .next s

/-- GOLDEN_TILE_SLOT (06 R203, R210; 09 R329): every Spire of the set in service runs the Golden Tile, its Store zeroed where it last
served another partition. -/
def execGoldenTileSlot (p : Fin 16) (s : State) : Host.Outcome State Fault Refusal :=
  if (s.part p.val).live ∧ (s.part p.val).golden.isSome then
    let f := s.sch.frame
    let at_ := if (s.part p.val).priv then f.start else match f.windows.find? fun w => w.1 = p.val with
      | some (_, a, _) => f.start + a
      | none => f.start
    let s := s.elapseTo at_
    let s := { s with sch := { s.sch with frame := { s.sch.frame with
      golden := p.val :: s.sch.frame.golden, goldenBad := tput 0 s.sch.frame.goldenBad p.val 0 } } }
    .next ((List.range 64).foldl (fun s sp =>
      if s.inSet p.val sp && !(s.spire sp).quarantined then
        (s.zeroStore sp p.val).modSpire sp fun x => { x with held := some p.val, goldenRun := true }
      else s) s)
  else .next s

/-- A Golden Tile mismatch of one Spire (09 R330): GOLDEN, quarantine; the second in a slot reacts at PARTITION level. -/
def State.goldenMismatch (s : State) (p sp : Nat) : State :=
  let n := tget 0 s.sch.frame.goldenBad p + 1
  let s := { s with sch := { s.sch with frame := { s.sch.frame with goldenBad := tput 0 s.sch.frame.goldenBad p n } } }
  let s := s.record sp 31 (if 2 ≤ n then lvPartition else lvUnit) { part := some p }
  let s := s.quarantine sp
  if 2 ≤ n then s.degrade p else s

/-- GOLDEN_TILE_SIGNATURE (09 R329, R330). -/
def execGoldenTileSignature (sp : Fin 64) (sig : W64) (s : State) : Host.Outcome State Fault Refusal :=
  let x := s.spire sp.val
  match x.goldenRun, x.held with
  | true, some p =>
    let s := s.modSpire sp.val fun x => { x with goldenRun := false }
    match (s.part p).golden with
    | some g => if g.sig = sig then .next s else .next (s.goldenMismatch p sp.val)
    | none => .next s
  | _, _ => .next s

/-- GOLDEN_TILE_SLOT_END (09 R329; 06 R210): a missing signature counts as a mismatch; the slot counts against the
budget and its time goes to the partition's record (06 R232). -/
def execGoldenTileSlotEnd (p : Fin 16) (s : State) : Host.Outcome State Fault Refusal :=
  match (s.part p.val).golden with
  | some g =>
    if p.val ∈ s.sch.frame.golden then
      let at_ := if (s.part p.val).priv then s.sch.frame.start else match s.sch.frame.windows.find? fun w => w.1 = p.val with
        | some (_, a, _) => s.sch.frame.start + a
        | none => s.sch.frame.start
      let s := s.elapseTo (at_ + g.gtUs * 1000)
      let s := (List.range 64).foldl (fun s sp =>
        if (s.spire sp).goldenRun && decide ((s.spire sp).held = some p.val) then
          (s.modSpire sp fun x => { x with goldenRun := false }).goldenMismatch p.val sp else s) s
      let s := (List.range 64).foldl (fun s sp =>
        if (s.spire sp).held = some p.val then
          (s.modPartAcct p.val fun a => { a with engine := satAdd 64 a.engine (engineUnits (g.gtUs * 1000 * (s.spire sp).clk)) }).modSpire
            sp fun x => { x with held := none, used := x.used + g.gtUs * 1000 }
        else s) s
      .next { s with sch := { s.sch with frame := { s.sch.frame with golden := s.sch.frame.golden.erase p.val } } }
    else .next s
  | none => .next s

/-- The Spire and task that advance what `names` picks from a task's declaration: one that runs, or whose save is under way. -/
def State.advancer (s : State) (names : TaskDecl → Bool) : Option (Nat × Nat × Nat) :=
  (List.range 64).findSome? fun sp => match (s.spire sp).job with
    | some (j, i) => if names (s.task j i).decl then some (sp, j, i) else none
    | none => none

/-- Every write a Spire made is held by the controller it went to (03 R97; 07 R247). -/
def State.writesAcked (s : State) (sp : Nat) : Bool :=
  (List.range 64).all fun c => (s.chan c).wwait.all fun q => decide (q.by_.source ≠ sp)

/-- Every read a Spire made of DRAM has been served (03 R101). -/
def State.readsDone (s : State) (sp : Nat) : Bool :=
  (List.range 64).all fun c => ((s.chan c).rq ++ (s.chan c).rwait).all fun q => decide (q.by_.source ≠ sp)

/-- ROW_TOKEN_ADVANCE (03 R97, R99; 02 R75, R81): the band up to `b1` of the running stripe has passed its checks and its writes are
acknowledged: the token becomes the greater of itself and `b1`. Bands come in ascending order up to r_{s+1}; with no such stripe the
update is late (06 R236). -/
def execRowTokenAdvance (dome : Fin 16) (t : Fin 64) (b1 : Nat) (s : State) : Host.Outcome State Fault Refusal :=
  match s.advancer fun d => d.tokens.any fun x => decide (x.1 = dome) && decide (x.2.1 = t) with
  | none => .next (s.stale (srcDome dome.val))
  | some (sp, j, i) =>
    let x := s.task j i
    if (s.spire sp).retry.isNone ∧ s.writesAcked sp ∧ x.band < b1 ∧
        x.decl.tokens.any fun y => decide (y.1 = dome) && decide (y.2.1 = t) && decide (y.2.2.1 < b1) && decide (b1 ≤ y.2.2.2) then
      let s := s.modTask j i fun x => { x with band := b1 }
      .next { s with sch := { s.sch with tokens := tmod 0 s.sch.tokens (64 * dome.val + t.val) fun n => max n (b1 % 2 ^ 16) } }
    else .next s

/-- TOKEN_SHADOW_UPDATE (03 R96, R99): a shadow only increases, up to its token; any other message is late and is dropped (06 R236). -/
def execTokenShadowUpdate (dome src : Fin 16) (t : Fin 64) (v : Nat) (s : State) : Host.Outcome State Fault Refusal :=
  let k := shadowKey dome.val src.val t.val
  if tget 0 s.sch.shadows k < v % 2 ^ 16 ∧ v % 2 ^ 16 ≤ tget 0 s.sch.tokens (64 * src.val + t.val) then
    .next { s with sch := { s.sch with shadows := tput 0 s.sch.shadows k (v % 2 ^ 16) } }
  else .next (s.stale (srcDome dome.val))

/-- RING_READ_TOKEN_ADVANCE (03 R101): the reads of the running consumer's band have been delivered: the `lo` of its next band, or
`hi + 1` after its last. With no such consumer the update is late (06 R236). -/
def execRingReadTokenAdvance (dome : Fin 16) (t : Fin 64) (lo : Option Nat) (hi : Nat) (s : State) :
    Host.Outcome State Fault Refusal :=
  match s.advancer fun d => d.reads.any fun x => decide (x.1 = dome) && decide (x.2.1 = t) with
  | none => .next (s.stale (srcDome dome.val))
  | some (sp, _, _) =>
    if s.readsDone sp then
      .next { s with sch := { s.sch with reads := tput 0 s.sch.reads (64 * dome.val + t.val) ((lo.getD (hi + 1)) % 2 ^ 16) } }
    else .next s

end Sys2Proof.Machine
end

