-- ==== Sys2Proof/Machine/Mem.lean ====
section
/-! DEFINITION. Memory accesses by requester and what faults do (07 R237 to R247; 06 R204; 01 R39 to R42, R523), DMA channels (07 R244
to R246; 01 R15), DRAM channel controllers (07 R248 to R267), bank scrubbing and power. -/

namespace Sys2Proof.Machine

/-- Addresses from here on are offsets of the Spire's own Store (06 R204, log 11). -/
abbrev ownBase : Nat := 2 ^ 52

/-- The device address a task address of Spire `sp` means. -/
def resolve (sp a : Nat) : Nat := if ownBase ≤ a then spireStoreBase + sp * 0x400000 + (a - ownBase) else a

/-- A range meets an image of the partition (13 R442). -/
def Partition.inImage (p : Partition) (a n : Nat) : Bool :=
  p.images.any fun x => match x.2 with
    | some i => decide (a < i.dest + i.bytes) && decide (i.dest < a + n)
    | none => false

/-- A range lies in a partition's KV pool. -/
def Partition.inKv (p : Partition) (a n : Nat) : Bool := decide (a < p.kvDa + p.kvBytes) && decide (p.kvDa < a + n)

/-- A task of partition `p` on Spire `sp` may reach a range (06 R204): its REGION where decoded, its Dome Store or
slice, its own Store by offset; never a loaded image for a write (13 R442). -/
def State.reach (s : State) (p sp a n : Nat) (write : Bool) : Bool :=
  if ownBase ≤ a then decide (a - ownBase + n ≤ 0x400000)
  else
    let x := s.part p
    (match s.kindRange a n with
      | some .dram | some (.towerSram _) | some .host => x.inRegion a n
      | some (.domeStore d) => decide (d = sp / 4) && (x.priv ||
          (decide (domeStoreBase + d * 0x1000000 + x.storeOff * mib ≤ a) &&
            decide (a + n ≤ domeStoreBase + d * 0x1000000 + (x.storeOff + x.storeMib) * mib)))
      | _ => false) && !(write && x.inImage a n)

/-- The partition of the task or Golden Tile a Spire runs; the system partition when it runs none. -/
def State.partOf (s : State) (sp : Nat) : Nat :=
  match (s.spire sp).job with
  | some (j, _) => (s.job j).part
  | none => if (s.spire sp).goldenRun then (s.spire sp).held.getD 0 else 0

/-- The descriptor a DMA channel runs. -/
def State.dmaRun (s : State) (d ch : Nat) : Option DmaJob := (tget {} s.mem.dma (4 * d + ch)).running

/-- A requester's unit number (09 R343). -/
def reqSource : Requester → Nat
  | .spire sp => sp.val
  | .dma d _ _ => srcDome d.val
  | .gather d _ => srcDome d.val
  | .sorter d _ => srcDome d.val
  | .walker t _ => srcTower t.val 0x14
  | .engine e => srcIo e.val 3
  | .ingress side => srcIo side.val 0x0A
  | .cupola side => srcIo side.val 1
  | .lantern l => srcIo l.val 2
  | .host ep _ => srcIo ep.val 5

/-- The Spire whose task a requester acts for. -/
def reqSpire : Requester → Option Nat
  | .spire sp => some sp.val
  | .dma _ _ sp => some sp.val
  | .gather _ sp => some sp.val
  | .sorter _ sp => some sp.val
  | .walker _ sp => some sp.val
  | _ => none

/-- The die a requester sits in (01 R20). -/
def reqDie : Requester → Die
  | .walker t _ => .tower t.val
  | .engine e => .io e.val
  | .ingress side => .io side.val
  | .cupola side => .io side.val
  | .lantern l => .io l.val
  | .host ep _ => .io ep.val
  | r => .tower ((reqSpire r).getD 0 / 16)

/-- The task a requester acts for: of a DMA channel, the one that issued the descriptor it runs. -/
def State.reqTask (s : State) : Requester → Option TaskId
  | .dma d ch _ => (s.dmaRun d.val ch.val).bind (·.task)
  | r => ((reqSpire r).bind fun sp => (s.spire sp).job).map fun x => s.taskId x.1 x.2

/-- The partition a requester acts for. -/
def State.reqPart (s : State) (r : Requester) : Nat :=
  match r with
  | .host _ p => p.val
  | .dma d ch _ => ((s.dmaRun d.val ch.val).map (·.part)).getD 0
  | r => match reqSpire r with
    | some sp => s.partOf sp
    | none => 0

/-- On whose behalf a requester makes an access. The bytes of a task's accesses go to its client; those of page-table walks and Golden
Tiles to the partition (06 R232, R233; log 112). -/
def State.origin (s : State) (r : Requester) : Origin :=
  let t := s.reqTask r
  { part := s.reqPart r, source := reqSource r, die := reqDie r, task := t
    client := match r with
      | .walker _ _ => none
      | _ => t.map fun x => (s.job x.1).mbx
    faults := match r with
      | .host _ _ => false
      | _ => true }

/-- A requester acts: a Spire while it runs a task that does not wait, or a Golden Tile; a unit that works for a task while that task
goes on. A quarantined Spire, one that runs nothing, or one in its test window makes no access (02 R79; 03 R98; 06 R226; 09 R339; log 117). -/
def State.acts (s : State) (r : Requester) : Bool :=
  match r with
  | .spire sp => match s.running sp.val with
    | some (j, i) => (s.task j i).waitSince.isNone && !s.testing (.spire sp)
    | none => (s.spire sp.val).goldenRun && !s.testing (.spire sp)
  | .dma d ch _ => match s.dmaRun d.val ch.val with
    | some x => (x.task.map s.liveRun).getD false
    | none => false
  | r => match reqSpire r with
    | some sp => (s.spire sp).job.isSome
    | none => true

/-- What a requester carries to a record. -/
def State.note (s : State) (r : Requester) (a : Nat) : Note := (s.origin r).note a

/-- A backward task reaches no KV page but by its gathers (04 R154). -/
def State.backwardKv (s : State) (r : Requester) (a n : Nat) : Bool :=
  match s.reqTask r with
  | some (j, i, _) => (s.task j i).decl.backward && (s.part (s.job j).part).inKv a n
  | none => false

/-- The access is decoded and within reach (01 R39, R41; 06 R204; 07 R237, "Reached by"). -/
def State.allowed (s : State) (r : Requester) (a n : Nat) (write : Bool) : Bool :=
  match r with
  | .cupola _ | .lantern _ => match s.kindRange a n with
    | some (.domeStore _) => false
    | some _ => true
    | none => false
  | .engine _ | .ingress _ => s.inOneOf a n || decide (s.kindRange a n = some .host)
  | .host _ p => (s.part p.val).inRegion a n && s.inOneOf a n
  | r => match reqSpire r with
    | some sp => s.reach (s.reqPart r) sp a n write && !s.backwardKv r a n
    | none => false

/-- The task a requester acts for ends with cause FAULT (06 R226). -/
def State.failReq (s : State) (r : Requester) (bit : Nat) : State :=
  match s.reqTask r with
  | some t => s.failRun t (reqSource r) bit
  | none => s

/-- A decode fault (01 R39, R523): the requesting unit records it with the address, and its task ends. -/
def State.decodeFault (s : State) (r : Requester) (a : Nat) : State :=
  (s.record (reqSource r) 11 lvTask (s.note r a)).failReq r 11

/-- A memory fault (07 R242): the requesting unit records it, and its task ends. -/
def State.memFault (s : State) (r : Requester) (a : Nat) : State :=
  (s.record (reqSource r) 17 lvTask (s.note r a)).failReq r 17

/-! ### DMA channels (07 R244 to R246; 01 R15) -/

/-- Channel 3 of a Dome serves no task now (04 R130, R151): it copies the pages of a swap of a partition whose lowest Dome this is, or
walks the page list of a gather. -/
def State.ch3Taken (s : State) (d : Nat) : Bool :=
  (s.seq.seqs.any fun (x : Nat × Seq) => !x.2.copies.isEmpty && (decide (x.2.st = 3) || decide (x.2.st = 5)) &&
      decide (findLow (fun k => (s.setDomes x.2.part).getLsbD k) 16 0 = some d)) ||
    (tget [] s.seq.gathers d).any fun g => (s.part (s.job g.task.1).part).dmaList && s.liveRun g.task

/-- A free channel takes the oldest descriptor of the next of its Dome's Spires that has one (01 R15; log 118). -/
def Dma.grant (x : Dma) : Dma :=
  match x.running with
  | some _ => x
  | none =>
    match (List.range 4).findSome? fun i =>
      let n := (x.last + 1 + i) % 4
      (x.queue.findIdx? fun q => decide (q.sp % 4 = n)).map fun k => (n, k) with
    | some (n, k) => { running := x.queue[k]?, queue := x.queue.eraseIdx k, last := n }
    | none => x

/-- A channel that is free to serve tasks does. -/
def State.grantDma (s : State) (d ch : Nat) : State :=
  if ch = 3 ∧ s.ch3Taken d then s
  else { s with mem := { s.mem with dma := tmod {} s.mem.dma (4 * d + ch) Dma.grant } }

/-- The descriptor a channel runs is over, and the next may run. -/
def State.endDma (s : State) (d ch : Nat) : State :=
  ({ s with mem := { s.mem with dma := tmod {} s.mem.dma (4 * d + ch) fun x => { x with running := none } } }).grantDma d ch

/-- Rows of a descriptor (07 R244): source, destination, pitches, rows, bytes per row, counter, zero fill. -/
structure DmaDesc where
  src : Nat
  dst : Nat
  srcPitch : Nat
  dstPitch : Nat
  rows : Nat
  rowBytes : Nat
  counter : Nat
  zero : Bool
  deriving DecidableEq, Repr

/-- The fields of a DMA_DESC. -/
def dmaFields (ws : List W64) : DmaDesc :=
  let w (i : Nat) : W64 := ws.getD i 0
  { src := bits (w 0) 51 0, dst := bits (w 1) 51 0, srcPitch := bits (w 2) 63 32, dstPitch := bits (w 2) 31 0
    rows := bits (w 3) 63 48 + 1, rowBytes := bits (w 3) 47 28 + 1, counter := bits (w 3) 27 22
    zero := decide (bits (w 3) 1 0 = 1) }

/-- The length of a bounding byte range (07 R245). -/
def boundBytes (rows pitch rowBytes : Nat) : Nat := (rows - 1) * pitch + rowBytes

/-- The checks of 07 R245. -/
def State.dmaOk (s : State) (ws : List W64) (d : DmaDesc) (p sp : Nat) : Bool :=
  let w (i : Nat) : W64 := ws.getD i 0
  let sb := boundBytes d.rows d.srcPitch d.rowBytes
  let db := boundBytes d.rows d.dstPitch d.rowBytes
  decide (bits (w 0) 63 52 = 0) && decide (bits (w 1) 63 52 = 0) && decide (bits (w 3) 21 2 = 0) &&
    decide (bits (w 3) 1 0 ≤ 1) && decide (d.dst < 2 ^ 48) && (d.zero || decide (d.src < 2 ^ 48)) &&
    (d.zero || !(decide (d.src < d.dst + db) && decide (d.dst < d.src + sb))) &&
    s.reach p sp d.dst db true &&
    (d.zero || s.reach p sp d.src sb false)

/-- A DMA channel ends its descriptor with a memory fault (07 R239, R242, R255): it writes nothing further, COUNTER is FAILED, the task
that issued it ends, and so do those that wait on COUNTER. -/
def State.dmaAbort (s : State) (r : Requester) (d ch a : Nat) : State :=
  match s.dmaRun d ch with
  | some x =>
    let s := s.record (srcDome d) 17 lvTask (s.note r a)
    let s := match x.task with
      | some t => s.failRun t (srcDome d) 17
      | none => s
    (s.failMarks x.part [(0, 64 * d + (dmaFields x.ws).counter)] (srcDome d) 17).endDma d ch
  | none => s

/-- The parity of a transfer's control fields fails (09 R307): the transfer is discarded, and the requesting task ends with a memory fault. -/
def State.transferFault (s : State) (r : Requester) (a : Nat) : State :=
  match r with
  | .dma d ch _ => s.dmaAbort r d.val ch.val a
  | r => s.memFault r a

/-- What the receiver does with poisoned data (07 R242; 02 R79). -/
def State.poisoned (s : State) (r : Requester) (a : Nat) : State :=
  match r with
  | .spire sp => if ownBase ≤ a then s.quarantine sp.val else s.memFault r a
  | .dma d ch _ => s.dmaAbort r d.val ch.val a
  | .host _ _ => s
  | r => s.memFault r a

/-- A write could not change an uncorrectable word or line (07 R239, R255): a memory fault; in a Spire's own Store quarantine (02 R79,
07 R242). -/
def State.writeFault (s : State) (r : Requester) (a : Nat) : State := s.poisoned r a

/-- No endpoint reaches host memory (01 R42; 12 R407). -/
def State.hostCut (s : State) (r : Requester) (a n : Nat) : Bool :=
  decide (s.kindRange a n = some .host) &&
    !s.epSends (s.route (reqDie r).near)

/-! ### Unit control space (01 R28, R40, R41) -/

/-- DIE_IDENT as a die presents it (01 R28). Before any sample has been taken it shows the straps of a good package (log 102). -/
def State.dieIdent (s : State) (die : Nat) : Nat :=
  let straps := s.saf.prevStraps.getD die ([0, 1, 2, 3, 0, 4].getD die 0)
  let rot := straps % 4
  let mir := straps / 4 % 2
  let io := decide (4 ≤ die)
  (if io then 2 else 1) * 2 ^ 24 + Config.dieRev die % 256 * 2 ^ 16 + (if io then 7 else rot) * 2 ^ 8 +
    (if io then mir * 128 else 0) + mir * 8 + rot * 2 + (if s.saf.identOk then 1 else 0)

/-- Where DIE_IDENT of each die lies. -/
def identBases : List Nat :=
  [unitBase, unitBase + 0x10000000, unitBase + 0x20000000, unitBase + 0x30000000, unitBase + 0x80000000, unitBase + 0x90000000]

/-- The die whose DIE_IDENT a range lies in. -/
def identDie (a n : Nat) : Option Nat := identBases.findIdx? fun b => decide (b ≤ a) && decide (a + n ≤ b + 8)

/-- A read of unit control space: DIE_IDENT, and zero everywhere else (log 12). -/
def State.unitRead (s : State) (a n : Nat) : List Byte :=
  match identDie a n with
  | some die => ((leBytes 8 (s.dieIdent die)).drop (a - identBases.getD die 0)).take n
  | none => List.replicate n 0

/-- The device address a requester's address means. -/
def reqDa (r : Requester) (a : Nat) : Nat :=
  match reqSpire r with
  | some sp => resolve sp a
  | none => a

/-- A write: words and lines, each whole or by read-merge-write (07 R239, R247, R255); `conds` is what the merge reads of its partial
words or lines find. A write no endpoint takes is lost (01 R42, R523). -/
def State.writeOp (s : State) (r : Requester) (a : Nat) (bs : List Byte) (conds : List EccCond) : State :=
  if !s.acts r then s
  else if s.kindRange a bs.length = some .unit then
    match r with
    | .cupola _ | .lantern _ => s
    | r => s.decodeFault r a
  else if !s.allowed r a bs.length true then s.decodeFault r a
  else if s.hostCut r a bs.length then s
  else if .ctrl ∈ conds then s.transferFault r a
  else
    let da := reqDa r a
    let s := s.store (s.origin r) da bs conds
    if (s.blocked da bs.length).isSome then s.writeFault r a else s

/-- MEMORY_WRITE (07 R239, R247, R255). -/
def execMemoryWrite (req : Requester) (da : Nat) (data : List Byte) (conds : List EccCond) (s : State) :
    Host.Outcome State Fault Refusal := .next (s.writeOp req da data conds)

/-- Banks in the order of the scrubbers' numbers: 16 of each Spire Store, 16 of each Dome Store, 4 of each Tower SRAM;
a bank's lines, and the address of one (07 R237, R240). -/
def bankLines (bank : Nat) : Nat := if bank < 1024 then 256 * 1024 / 64 else if bank < 1280 then mib / 64 else 64 * mib / 64

/-- The address of the first word of a bank's scrub line. -/
def bankLineDa (bank line : Nat) : Nat :=
  if bank < 1024 then spireStoreBase + bank / 16 * 0x400000 + (line * 8 * 16 + bank % 16) * 8
  else if bank < 1280 then domeStoreBase + (bank - 1024) / 16 * 0x1000000 + (line * 8 * 16 + (bank - 1024) % 16) * 8
  else towerSramBase + (bank - 1280) / 4 * 0x10000000 + (bank - 1280) % 4 * 0x4000000 + line * 64

/-- On whose behalf a scrubber reads: the unit itself, for the system partition. -/
def scrubOrigin (src : Nat) : Origin := { source := src, faults := false }

/-- SRAM_SCRUB (07 R240, R243): the bank's scrubber reads its next line of eight words; each error is recorded as a read's, and an
uncorrectable word is left unchanged. -/
def execSramScrub (bank : Nat) (conds : List EccCond) (s : State) : Host.Outcome State Fault Refusal :=
  if bank < 1296 then
    let line := tget 0 s.mem.scrub bank
    let da := bankLineDa bank line
    let step := if bank < 1280 then 16 * 8 else 8
    let words := (List.range 8).map fun w => da + w * step
    let o := scrubOrigin (s.memUnit da)
    let s := { s with mem := { s.mem with scrub := tput 0 s.mem.scrub bank ((line + 1) % bankLines bank) } }
    let s := s.strike o words conds
    .next ((words.filter s.isBad).foldl (fun s w => s.reportUe o w) s)
  else .next s

/-- BANK_POWER_UP (07 R241): the bank zeroes all its words before it accepts an access. -/
def execBankPowerUp (bank : Fin 16) (s : State) : Host.Outcome State Fault Refusal :=
  let a := towerSramBase + bank.val * 0x4000000
  if tget false s.mem.bankOff bank.val then
    let s := s.zero a 0x4000000
    .next { s with mem := { s.mem with bankOff := tput false s.mem.bankOff bank.val false } }
  else .next s

/-! ### DMA commands -/

/-- DMA_DESCRIPTOR (07 R245, R246; 01 R15; 06 R216): a Spire of the Dome that runs a task issues a descriptor to a channel: refused with
a DMA fault, or queued and granted in turn. Any other Spire holds no task that could ask. -/
def execDmaDescriptor (dome : Fin 16) (ch : Fin 4) (words : List W64) (sp : Fin 64) (s : State) :
    Host.Outcome State Fault Refusal :=
  let d := dmaFields words
  match s.running sp.val with
  | some (j, i) =>
    let p := (s.job j).part
    if sp.val / 4 ≠ dome.val ∨ (s.task j i).waitSince.isSome then .next s
    else if s.dmaOk words d p sp.val && !((s.task j i).decl.backward && ((s.part p).inKv d.dst (boundBytes d.rows d.dstPitch d.rowBytes) ||
        (!d.zero && (s.part p).inKv d.src (boundBytes d.rows d.srcPitch d.rowBytes)))) then
      let x : DmaJob := { ws := words, sp := sp.val, part := p, task := some (s.taskId j i) }
      let s := { s with mem := { s.mem with dma := tmod {} s.mem.dma (4 * dome.val + ch.val) fun c => { c with queue := c.queue ++ [x] } } }
      .next (s.grantDma dome.val ch.val)
    else
      .next ((s.record (srcDome dome.val) 18 lvTask { addr := d.dst, part := some p, source := some sp.val }).failTask j i causeFault
        (srcDome dome.val) 18)
  | none => .next s

/-- Move the rows of a descriptor; the first row whose source is uncorrectable, or that meets an uncorrectable word it cannot replace,
ends it (07 R239, R242, R255). -/
def State.dmaRows (s : State) (o : Origin) (d : DmaDesc) : Nat → Nat → State × Option Nat
  | _, 0 => (s, none)
  | i, n + 1 =>
    let src := d.src + i * d.srcPitch
    let dst := d.dst + i * d.dstPitch
    let s := if d.zero then s else s.fetch o src d.rowBytes []
    if !d.zero && s.anyBad src d.rowBytes then (s, some src)
    else
      let s := s.store o dst (if d.zero then List.replicate d.rowBytes 0 else s.rd src d.rowBytes) []
      match s.blocked dst d.rowBytes with
      | some c => (s, some c)
      | none => s.dmaRows o d (i + 1) n

/-- DMA_COMPLETE (07 R246): every write is acknowledged, COUNTER advances by 1 and the next descriptor runs. A descriptor whose launch
has its cause completes nothing any more: late, it is dropped (06 R226, R236). -/
def execDmaComplete (dome : Fin 16) (ch : Fin 4) (s : State) : Host.Outcome State Fault Refusal :=
  match s.dmaRun dome.val ch.val with
  | none => .next (s.grantDma dome.val ch.val)
  | some x =>
    let d := dmaFields x.ws
    let r : Requester := .dma dome ch ⟨x.sp % 64, Nat.mod_lt _ (by decide)⟩
    if !(x.task.map s.liveRun).getD false then .next ((s.stale (srcDome dome.val)).endDma dome.val ch.val)
    else match s.dmaRows (s.origin r) d 0 d.rows with
      | (s, some a) => .next (s.dmaAbort r dome.val ch.val a)
      | (s, none) =>
        let s := { s with sch := { s.sch with ctrs := tmod 0 s.sch.ctrs (64 * dome.val + d.counter) fun n => n + 1 } }
        .next (s.endDma dome.val ch.val)

/-! ### DRAM channel controllers -/

/-- A channel controller runs (07 R248): its Tower is out of reset and its base logic has power; else its devices are in self refresh
or deep sleep. -/
def State.chanUp (s : State) (ch : Nat) : Bool :=
  s.saf.identOk && !s.heat.towersOff && !tget false s.heat.domainOff (160 + ch / 16)

/-- The requester tag of a request as one number (07 R258). -/
def DramReq.tag (q : DramReq) : Nat := q.by_.part * 2 ^ 16 + q.by_.source

/-- The request's bucket holds its cost (07 R263), in units of 1/256 line. -/
def Chan.inCredit (c : Chan) (q : DramReq) : Bool := decide (q.cost * 256 ≤ tget 0 c.credit q.by_.part)

/-- The bank's row is open. -/
def Chan.rowHit (c : Chan) (q : DramReq) : Bool := decide (tget 0 c.rows (bankOf q.line) = rowOf q.line + 1)

/-- A throttled requester's activation in a bank waits: at most one per 200 ns (07 R260). -/
def Chan.held (c : Chan) (now : Nat) (q : DramReq) : Bool :=
  !c.rowHit q && c.lastThrottled.any fun x =>
    decide (x.1 = bankOf q.line) && decide (x.2.1 = q.by_.part) && decide (x.2.2.1 = q.by_.source) && decide (now < x.2.2.2 + 200)

/-- A request may issue: not held, and no earlier one to its line waits in either queue (07 R254, R260). -/
def Chan.can (c : Chan) (now : Nat) (q : DramReq) : Bool :=
  !c.held now q && (c.rq ++ c.wq).all fun x => decide (x.line ≠ q.line) || decide (q.no ≤ x.no)

/-- The request to issue among a queue's (07 R253): in credit, oldest first with row hits passing for at
most 1 µs; then by partition in round robin, oldest first. -/
def Chan.pick (c : Chan) (now : Nat) (qs : List DramReq) : Option DramReq :=
  let can := qs.filter (c.can now)
  match can.filter c.inCredit with
  | o :: t => if o.at_ + 1000 < now then some o else some (((o :: t).find? c.rowHit).getD o)
  | [] => (argmin (fun i => ((can.getD i {}).by_.part + 16 - c.rrNext) % 16 * 2 ^ 16 + i) (List.range can.length)).bind fun i => can[i]?

/-- The channel drains writes: from 48 down to 16 (07 R253). -/
def Chan.draining (c : Chan) : Bool := if c.drain then decide (16 < c.wq.length) else decide (48 ≤ c.wq.length)

/-- The request to issue: of the write queue while it drains, of the read queue else, and of the other where that can issue none (07
R253, R264). -/
def Chan.next (c : Chan) (now : Nat) : Option DramReq :=
  let r := c.pick now c.rq
  let w := c.pick now c.wq
  if c.draining then (match w with
    | some q => some q
    | none => r)
  else match r with
    | some q => some q
    | none => w

/-- The hot-row table after an activation, and the row's count (07 R258). -/
def hotUpdate (t : List (Nat × Nat)) (row : Nat) : List (Nat × Nat) × Nat :=
  match t.find? fun x => x.1 = row with
  | some (_, n) => (t.map fun x => if x.1 = row then (row, n + 1) else x, n + 1)
  | none =>
    if t.length < 32 then (t ++ [(row, 1)], 1)
    else match argmin (fun i => (t.getD i (0, 0)).2) (List.range 32) with
      | some i => (t.set i (row, (t.getD i (0, 0)).2 + 1), (t.getD i (0, 0)).2 + 1)
      | none => (t, 0)

/-- An activation of a row of a bank for a requester (07 R258 to R260, R262): hot row, RFM at multiples of T1, throttle at T2, RAA. A row
that enters the table at a count of T2 or more throttles as well. -/
def State.activate (s : State) (ch bank row : Nat) (o : Origin) (addr : Nat) : State :=
  let c := s.chan ch
  let known := (tget [] c.hot bank).any fun x => decide (x.1 = row)
  let (hot, n) := hotUpdate (tget [] c.hot bank) row
  let raa := tget 0 c.raa bank + 1
  let due := decide (Config.raaLimit ≤ raa)
  let rfm := decide (n % s.mem.t1 = 0)
  let thr := decide (n = s.mem.t2) || (!known && decide (s.mem.t2 ≤ n))
  let who := (bank, o.part, o.source)
  let s := s.modChan ch fun c => { c with
    rows := tput 0 c.rows bank (row + 1), hot := tput [] c.hot bank hot
    raa := tput 0 c.raa bank (if due || rfm then 0 else raa)
    rfms := if due || rfm then c.rfms + 1 else c.rfms
    throttled := if thr then who :: c.throttled else c.throttled
    lastThrottled := if thr || who ∈ c.throttled then
        (bank, o.part, o.source, s.clk.elapsed) :: c.lastThrottled.filter fun x =>
          !(decide (x.1 = bank) && decide (x.2.1 = o.part) && decide (x.2.2.1 = o.source))
      else c.lastThrottled }
  let s := if rfm then s.record (srcChan ch) 24 lvMasked (o.note addr) else s
  if thr then s.record (srcChan ch) 25 lvMasked (o.note addr) else s

/-- A row of a bank is opened where it is not open. -/
def State.openRow (s : State) (ch bank row : Nat) (o : Origin) (addr : Nat) : State :=
  if tget 0 (s.chan ch).rows bank = row + 1 then s else s.activate ch bank row o addr

/-- The 64-byte check line of a data line, as one number (07 R250). -/
def checkKey (a : Nat) : Nat := ((checkOf a).1 * 16 + bankOf a) * 32 + (checkOf a).2 / 64

/-- An access to a data line at the DRAM: its check line first, unless the check cache holds it, then its own row (07 R250, R258; log
119). -/
def State.lineAccess (s : State) (ch a : Nat) (o : Origin) : State :=
  let key := checkKey a
  let s := if (s.chan ch).checks.contains key then s else s.openRow ch (bankOf a) (checkOf a).1 o a
  (s.openRow ch (bankOf a) (rowOf a) o a).modChan ch fun c => { c with checks := (key :: c.checks.erase key).take 256 }

/-- Issue REFpb to idle banks still owed in the round, at most `n` (07 R256). -/
def Chan.refpb (c : Chan) : Nat → Chan
  | 0 => c
  | n + 1 =>
    let busy (b : Nat) : Bool := (c.rq ++ c.wq).any fun q => decide (bankOf q.line = b)
    match (if c.debt = 0 then none else findLow (fun b => c.owed.getLsbD b && !busy b) 16 0) with
    | some b =>
      let owed := c.owed &&& ~~~ BitVec.ofNat 16 (2 ^ b)
      ({ c with debt := c.debt - 1, owed := if owed = 0 then 0xFFFF else owed, rows := tput 0 c.rows b 0 }).refpb n
    | none => c

/-- A read burst met a link error (07 R266): one bit is corrected and counted; else the read is repeated once, and the inline ECC
decides its result, a poisoned line faulting its reader (R242). -/
def State.linkError (s : State) (ch : Nat) (q : DramReq) (cond : EccCond) (link : LinkErr) : State :=
  match link with
  | .none => s
  | .single => (s.modChan ch fun c => { c with linkReads := c.linkReads + 1 }).record (srcChan ch) 7 lvMasked (q.by_.note q.line)
  | .multi =>
    let s := (s.modChan ch fun c => { c with reads := c.reads + 1 }).strike q.by_ [q.da] [cond]
    if cond = .bad then
      let s := s.reportUe q.by_ q.da
      if q.by_.faults then
        let s := s.record q.by_.source 17 lvTask (q.by_.note q.da)
        match q.by_.task with
        | some t => s.failRun t q.by_.source 17
        | none => s
      else s
    else s

/-- DRAM_REQUEST_ISSUE (07 R250, R253 to R264, R266): the chosen request opens its rows, pays what its bucket holds of its cost, and is
done; those that waited for room follow. `cond` is what the inline ECC of a repeated read finds. -/
def execDramRequestIssue (ch : Fin 64) (cond : EccCond) (link : LinkErr) (s : State) : Host.Outcome State Fault Refusal :=
  let c := s.chan ch.val
  if !s.chanUp ch.val || decide (128 ≤ c.debt) then .next s
  else match c.next s.clk.elapsed with
    | none => .next (s.modChan ch.val fun c => c.refpb 1)
    | some q =>
      let s := s.lineAccess ch.val q.line q.by_
      let s := s.modChan ch.val fun c => { c with
        wq := if q.write then c.wq.erase q else c.wq
        rq := if q.write then c.rq else c.rq.erase q
        drain := c.draining && decide (16 < (if q.write then c.wq.erase q else c.wq).length)
        credit := tmod 0 c.credit q.by_.part fun n => n - q.cost * 256
        rrNext := if c.inCredit q then c.rrNext else (q.by_.part + 1) % 16
        reads := c.reads + 1 }
      let s := s.chargeDram q
      let s := if q.write then s else s.linkError ch.val q cond link
      .next (s.modChan ch.val fun c => c.takeIn.refpb 1)

/-- REFRESH_INTERVAL (07 R256): tREFI, which follows the refresh rate MR4 reported, has passed: 16 more owed, and REFpb to idle banks of
the round. -/
def execRefreshInterval (ch : Fin 64) (s : State) : Host.Outcome State Fault Refusal :=
  if !s.chanUp ch.val then .next s
  else
    let s := s.elapse ((s.chan ch.val).refAt - s.clk.elapsed)
    .next (s.modChan ch.val fun c => ({ c with debt := c.debt + 16, refAt := s.clk.elapsed + Config.tRefi c.rate }).refpb 16)

/-- FORCED_REFAB (07 R257). -/
def execForcedRefab (ch : Fin 64) (s : State) : Host.Outcome State Fault Refusal :=
  if s.chanUp ch.val && decide (128 ≤ (s.chan ch.val).debt) then
    .next ((s.modChan ch.val fun c => { c with debt := c.debt % 16, rows := [], owed := 0xFFFF }).record
      (srcChan ch.val) 23 lvMasked {})
  else .next s

/-- MR4_READ (07 R256): tREFI follows the refresh rate the devices report. -/
def execMr4Read (ch : Fin 64) (rate : Fin 4) (s : State) : Host.Outcome State Fault Refusal :=
  if !s.chanUp ch.val then .next s else .next (s.modChan ch.val fun c => ({ c with rate := rate.val }).refpb 1)

/-- LINK_ECC_COUNT_READ (07 R266): the devices' write link-ECC corrections are counted under LINK_CE. -/
def execLinkEccCountRead (ch : Fin 64) (n : Nat) (s : State) : Host.Outcome State Fault Refusal :=
  if n = 0 ∨ !s.chanUp ch.val then .next s
  else .next ((s.modChan ch.val fun c => { c with linkWrites := c.linkWrites + n }).record (srcChan ch.val) 7 lvMasked {})

/-- RH_WINDOW_START (07 R258, R261; 08 R292): tables cleared, throttles lifted, new thresholds in force. -/
def execRhWindowStart (s : State) : Host.Outcome State Fault Refusal :=
  let s := s.elapseTo s.mem.rhNext
  .next { s with mem := { s.mem with
    chans := (List.range 64).foldl (fun t c => tmod {} t c fun (x : Chan) =>
      { x with hot := [], throttled := [], lastThrottled := [] }) s.mem.chans
    t1 := s.mem.nextT1, t2 := s.mem.nextT2, rhBegan := s.clk.elapsed, rhNext := s.mem.rhNext + 32000000 } }

/-- CREDIT of a partition: the system partition's is 16 (07, "Bandwidth credits"). -/
def State.credit (s : State) (p : Nat) : Nat := if p = 0 then 16 else if (s.part p).live then (s.part p).credit else 0

/-- One fill of a bucket at `lines` lines per µs, in units of 1/256 line (07 R263). -/
def fillOf (credit total lines : Nat) : Nat := lines * credit * 256 / (total * 10)

/-- Fill the buckets of one port (07 R263). -/
def State.fill (s : State) (lines : Nat) (b : Tab Nat) : Tab Nat :=
  let total := max 256 (((List.range 16).map s.credit).sum)
  (List.range 16).foldl (fun b p => tmod 0 b p fun n => min (64 * 256) (n + fillOf (s.credit p) total lines)) b

/-- CREDIT_REFILL (07 R263, R265): every 100 ns, at every channel and egress port. -/
def execCreditRefill (s : State) : Host.Outcome State Fault Refusal :=
  let s := s.elapse (s.mem.creditAt - s.clk.elapsed)
  .next { s with mem := { s.mem with
    chans := (List.range 64).foldl (fun t c => tmod {} t c fun (x : Chan) => { x with credit := s.fill 240 x.credit }) s.mem.chans
    egress := (List.range 12).foldl (fun t k => tmod [] t k fun (b : Tab Nat) =>
      s.fill (if k % 3 = 2 then 8000 else 16000) b) s.mem.egress
    creditAt := s.clk.elapsed + 100 } }

/-- Data lines of a channel: 960 MiB (07, "Channel geometry"). -/
abbrev chanLines : Nat := 960 * mib / 64

/-- The device address of a channel data address, where it has one; searched through both maps' inverse (07 R251,
R252). -/
def State.chanDa (s : State) (ch a : Nat) : Option Nat :=
  let gl := (15 - s.mem.lmax) * 64 * mib
  if a < gl then
    let hi := a / 256
    let f := nbits hi 5 0 ^^^ nbits hi 11 6 ^^^ nbits hi 17 12 ^^^ nbits hi 21 18
    some ((hi * 64 + (ch ^^^ f)) * 256 + a % 256)
  else
    let t := ch / 16
    let hi := (a - gl) / 256
    let f := nbits hi 3 0 ^^^ nbits hi 7 4 ^^^ nbits hi 11 8 ^^^ nbits hi 15 12 ^^^ nbits hi 19 16 ^^^ nbits hi 21 20
    let o := (hi * 16 + (ch % 16 ^^^ f)) * 256 + a % 256
    if o < s.mem.loc t * gib then some (s.mem.localStart t * gib + o) else none

/-- The patrol scrubber moves to the next line (07 R267). -/
def Chan.nextScrub (c : Chan) : Chan := { c with scrub := (c.scrub + 1) % chanLines }

/-- What a patrol read of channel data address `a` finds: an error is recorded as a read's, an uncorrectable line is left
unchanged (07 R267). `da` is the device address of the line, where one names it now; the controller keeps the others that are bad. -/
def State.scrubLine (s : State) (ch a : Nat) (da : Option Nat) (cond : EccCond) : State :=
  let o := scrubOrigin (srcChan ch)
  match da with
  | some da =>
    let s := s.strike o [da] [cond]
    if s.isBad da then s.reportUe o da else s
  | none =>
    let s := if cond = .bad ∧ ¬ (s.chan ch).dark.contains a then s.modChan ch fun c => { c with dark := a :: c.dark } else s
    if (s.chan ch).dark.contains a then s.record (srcChan ch) 6 lvTask (o.note a)
    else if cond = .single then s.record (srcChan ch) 5 lvMasked (o.note a) else s

/-- The same, of the line the controller's address names; the read opens its rows with the controller's own tag (07 R258). -/
def State.patrol (s : State) (ch a : Nat) (cond : EccCond) : State :=
  (s.lineAccess ch a (scrubOrigin (srcChan ch))).scrubLine ch a (s.chanDa ch a) cond

/-- DRAM_PATROL_SCRUB (07 R267): the scrubber reads its next line. -/
def execDramPatrolScrub (ch : Fin 64) (cond : EccCond) (s : State) : Host.Outcome State Fault Refusal :=
  if !s.chanUp ch.val then .next s
  else .next ((s.modChan ch.val Chan.nextScrub).patrol ch.val ((s.chan ch.val).scrub * 64) cond)

end Sys2Proof.Machine
end

