-- ==== Sys2Proof/Machine/Pages.lean ====
section
/-! DEFINITION. Sequences, their page tables, the Page Directory and the pools (04 R111 to R119, R135 to R146). -/

namespace Sys2Proof.Machine

abbrev sqFree : Nat := 0
abbrev sqOpen : Nat := 1
abbrev sqInStep : Nat := 2
abbrev sqSwapOut : Nat := 3
abbrev sqSwapped : Nat := 4
abbrev sqSwapIn : Nat := 5
abbrev sqStalled : Nat := 6
abbrev sqClosing : Nat := 7
abbrev pageBytes : Nat := 16384
abbrev hostPpn : Nat := 0x400000

/-- Slot `i`. -/
def State.sq (s : State) (i : Nat) : Seq := tget {} s.seq.seqs i

/-- Change slot `i`. -/
def State.modSeq (s : State) (i : Nat) (f : Seq → Seq) : State :=
  { s with seq := { s.seq with seqs := tmod {} s.seq.seqs i f } }

/-- The active Batch Builder's source unit. -/
def State.srcBb (s : State) : Nat := srcIo s.saf.bbActive 4

/-- The handle of a slot (04 R111). -/
def State.handleOf (s : State) (slot : Nat) : Nat := (s.sq slot).gen * 4096 + slot

/-- The slot a handle names. -/
def slotOf (h : Nat) : Nat := h % 4096

/-- A handle is live for a partition (04 R112). -/
def State.liveHandle (s : State) (p h : Nat) : Bool :=
  let q := s.sq (slotOf h)
  decide (h < 2 ^ 20) && decide (h / 4096 = q.gen) && decide (q.st ≠ sqFree) && decide (q.part = p)

/-- Bytes of a latent row (04 R116). -/
def Seq.rowBytes (q : Seq) : Nat := if q.lfmt = 2 then 128 * q.dc64 else 64 * q.dc64

/-- The slots not FREE, ascending. -/
def State.liveSlots (s : State) : List Nat := (s.seq.seqs.filter fun x => decide (x.2.st ≠ sqFree)).map (·.1)

/-- Tokens per page of a geometry (04 R116). -/
def tppOf (lfmt dc64 : Nat) : Nat := pageBytes / (if lfmt = 2 then 128 * dc64 else 64 * dc64)

/-- Bytes of one page-table copy (04 R119). -/
def ptCopyBytes (ptLen : Nat) : Nat := 64 * ceilDiv ptLen 16

/-- The place of entry `v` of a copy (04 R118, R119). -/
def Seq.pteDa (q : Seq) (copy v : Nat) : Nat := q.ptBase + copy * ptCopyBytes q.ptLen + 4 * v

/-- A page-table entry. -/
def State.pte (s : State) (slot copy v : Nat) : Nat := s.rdNat ((s.sq slot).pteDa copy v) 4

/-- Write a page-table entry. -/
def State.setPte (s : State) (slot copy v e : Nat) : State := s.wr ((s.sq slot).pteDa copy v) (leBytes 4 e)

/-- A reset that wipes a range returns its RETIRED pages to FREE (04 R138, R143). -/
def State.unretire (s : State) (a n : Nat) : State :=
  let here (ppn : Nat) : Bool := decide (a ≤ ppn * 16384) && decide ((ppn + 1) * 16384 ≤ a + n)
  { s with
    seq := { s.seq with pages := s.seq.pages.filter fun (x : Nat × PageEnt) => !(decide (x.2.st = 3) && here x.1) }
    mem := { s.mem with retire := s.mem.retire.filter fun (x : Nat × Bool) => !here x.1 } }

/-- Fields of an entry (04 R118). -/
def pteV (e : Nat) : Bool := e.testBit 31
def pteHost (e : Nat) : Bool := e.testBit 30
def ptePpn (e : Nat) : Nat := e % 2 ^ 24
def mkPte (host : Bool) (ppn : Nat) : Nat := 2 ^ 31 + (if host then 2 ^ 30 else 0) + ppn % 2 ^ 24

/-- The entry an edit writes: V and PPN as given, HOST as it never sets it (04 R118, R135). -/
def editedPte (e : Nat) : Nat := if pteV e then mkPte false (ptePpn e) else ptePpn e

/-- The device address of a physical page (04 R117). -/
def ppnDa (ppn : Nat) : Nat := if ppn < hostPpn then ppn * pageBytes else hostBase + (ppn - hostPpn) * pageBytes

/-- Move past what is taken until the range is clear. -/
def fitPlace (taken : List (Nat × Nat)) (limit bytes : Nat) : Nat → Nat → Option Nat
  | 0, _ => none
  | fuel + 1, a =>
    if limit < a + bytes then none
    else match taken.find? fun t => decide (t.2 ≠ 0) && decide (a < t.1 + t.2) && decide (t.1 < a + bytes) with
      | some t => fitPlace taken limit bytes fuel (roundUp (t.1 + t.2) 64)
      | none => some a

/-- First-fit place for page tables (04 R119, log 16): after every table, image, pool and save area it would meet. -/
def State.ptPlace (s : State) (p bytes : Nat) : Option Nat :=
  let x := s.part p
  let taken : List (Nat × Nat) :=
    (s.seq.seqs.filterMap fun q => if q.2.st ≠ sqFree then some (q.2.ptBase, 2 * ptCopyBytes q.2.ptLen) else none) ++
      (x.images.filterMap fun i => i.2.map fun m => (m.dest, m.bytes)) ++
      [(x.kvDa, x.kvBytes), (x.saveDa, x.saveBytes * x.saveSlots)]
  let sram := x.regions.filter fun r => decide (towerSramBase ≤ r.1) && decide (r.1 < domeStoreBase)
  let rs := if sram.isEmpty then x.regions.filter fun r => decide (r.1 < towerSramBase) else sram
  rs.findSome? fun r => fitPlace taken (r.1 + r.2) bytes (taken.length + 1) r.1

/-! ### The Page Directory -/

/-- A Page Directory entry. -/
def State.page (s : State) (ppn : Nat) : PageEnt := tget {} s.seq.pages ppn

/-- Change one. -/
def State.modPage (s : State) (ppn : Nat) (f : PageEnt → PageEnt) : State :=
  { s with seq := { s.seq with pages := tmod {} s.seq.pages ppn f } }

/-- First page and number of pages of a partition's pool (04 R144). -/
def Partition.poolBase (p : Partition) : Nat := p.kvDa / pageBytes
def Partition.poolPages (p : Partition) : Nat := p.kvBytes / pageBytes

/-- A page lies in a partition's pool. -/
def Partition.inPool (p : Partition) (ppn : Nat) : Bool :=
  decide (p.poolBase ≤ ppn) && decide (ppn < p.poolBase + p.poolPages)

/-- Serial-number order of epochs (04, after R138). -/
def epochLt (a b : Nat) : Bool := decide (a % 2 ^ 32 ≠ b % 2 ^ 32) && decide ((b + 2 ^ 32 - a % 2 ^ 32) % 2 ^ 32 < 2 ^ 31)

/-- The oldest unfinished epoch (04, after R138; R526). -/
def State.oldestEpoch (s : State) : Nat :=
  let run := (s.jobIds.filter fun j => decide ((s.job j).kind = .step)).map fun j => (s.job j).epoch
  match run with
  | [] => (s.seq.epoch + 1) % 2 ^ 32
  | e :: t => t.foldl (fun a b => if epochLt b a then b else a) e

/-- Pages in LIMBO that no running step can still read become FREE, marked ones RETIRED (04 R138, R139, R143). -/
def State.settleLimbo (s : State) : State :=
  let old := s.oldestEpoch
  s.seq.pages.foldl (fun s (x : Nat × PageEnt) =>
    if x.2.st = 2 then
      if tget false s.mem.retire x.1 then s.modPage x.1 fun _ => { st := 3 }
      else if epochLt x.2.freedAt old then s.modPage x.1 fun _ => {}
      else s
    else s) s

/-- Count one more mapping of a page. -/
def State.incPage (s : State) (ppn : Nat) : State := s.modPage ppn fun x => { x with refcnt := x.refcnt + 1 }

/-- Count one mapping less: at zero the page enters LIMBO, or RETIRED when marked (04 R138, R139, R143). -/
def State.decPage (s : State) (ppn : Nat) : State :=
  let x := s.page ppn
  if x.st ≠ 1 then s
  else if 1 < x.refcnt then s.modPage ppn fun x => { x with refcnt := x.refcnt - 1 }
  else if tget false s.mem.retire ppn then s.modPage ppn fun _ => { st := 3 }
  else (s.modPage ppn fun _ => { st := 2, freedAt := s.seq.epoch }).settleLimbo

/-- The pages of a pool that are neither FREE nor LIMBO. -/
def State.poolUsed (s : State) (p : Nat) : Nat :=
  (s.seq.pages.filter fun x => (s.part p).inPool x.1 && (decide (x.2.st = 1) || decide (x.2.st = 3))).length

/-- Reserved pages of a partition's RESIDENT sequences. -/
def State.reserved (s : State) (p : Nat) : Nat :=
  ((s.seq.seqs.filter fun x => decide (x.2.st ≠ sqFree) && decide (x.2.part = p)).map fun x => x.2.reserve).sum

/-- The available count of a pool (04 R145). -/
def State.available (s : State) (p : Nat) : Nat := (s.part p).poolPages - s.poolUsed p - s.reserved p

/-- Up to `n` FREE pages of a pool from page `i` on, in ascending PPN (04 R139). -/
def State.freePages (s : State) : Nat → Nat → Nat → List Nat
  | 0, _, _ => []
  | fuel + 1, i, n =>
    if n = 0 then []
    else if (s.page i).st = 0 then i :: s.freePages fuel (i + 1) (n - 1)
    else s.freePages fuel (i + 1) n

/-- The next `n` pages a pool hands out; fewer when fewer are FREE. -/
def State.takePages (s : State) (p n : Nat) : List Nat := s.freePages (s.part p).poolPages (s.part p).poolBase n

/-- Allocate pages: ALLOC with REFCNT 1 (04 R138). -/
def State.allocPages (s : State) (ps : List Nat) : State := ps.foldl (fun s n => s.modPage n fun _ => { refcnt := 1, st := 1 }) s

/-- A Page Directory word (04 R137). -/
def State.pageWord (s : State) (ppn : Nat) : Nat :=
  let x := s.page ppn
  let owner := (s.users.find? fun p => (s.part p).inPool ppn).getD 0
  x.refcnt * 2 ^ 48 + x.st * 2 ^ 45 + owner * 2 ^ 32 + x.freedAt

/-! ### Copies -/

/-- Copy `n` bytes between memories; what an uncorrectable word or line holds is uncorrectable in the copy (04 R143, 09 R307). -/
def State.copyBytes (s : State) (src dst n : Nat) : State :=
  let bad := s.badCells src n
  let u := s.unitAt src
  let cells := s.mem.bytes.filter fun c => decide (src ≤ c.1) && decide (c.1 < src + n)
  let s := s.zero dst n
  let s := { s with mem := { s.mem with bytes := cells.foldl (fun m c => memSet m (c.1 - src + dst) c.2) s.mem.bytes } }
  bad.foldl (fun s c => (s.cellsOf (c - src + dst) u).foldl (fun s k => s.setBad k true) s) s

/-- Copy a page on behalf of a partition: its lines at the controllers, what its reads find, the bytes (04 R141, R143, R148; 06 R232). -/
def State.copyPage (s : State) (o : Origin) (src dst : Nat) : State :=
  ((s.fetch o src pageBytes []).copyBytes src dst pageBytes).enqueue o dst pageBytes true

/-- Who copies for copy-on-write and forks: the Batch Builder, for the partition (06 R232; log 112). -/
def State.bbOrigin (s : State) (p : Nat) : Origin := { part := p, source := s.srcBb, die := .io s.saf.bbActive, faults := false }

/-- The lowest Dome of a partition's set, whose DMA channel 3 copies its swap pages (04 R151). -/
def State.swapDome (s : State) (p : Nat) : Nat := (findLow (fun k => (s.setDomes p).getLsbD k) 16 0).getD 0

/-- Who copies for swaps: DMA channel 3 of that Dome, for the partition (04 R151; 06 R232). -/
def State.swapOrigin (s : State) (p : Nat) : Origin :=
  { part := p, source := srcDome (s.swapDome p), die := .tower (s.swapDome p / 4), faults := false }

/-- Make a sequence's inactive copy equal to its active one (04 R134). -/
def State.resync (s : State) (slot : Nat) : State :=
  let q := s.sq slot
  let n := ptCopyBytes q.ptLen
  s.copyBytes (q.ptBase + q.active * n) (q.ptBase + (1 - q.active) * n) n

/-- The mapped entries of a copy: (VPN, entry), ascending. -/
def State.mapped (s : State) (slot copy : Nat) : List (Nat × Nat) :=
  let q := s.sq slot
  ((List.range q.ptLen).map fun v => (v, s.pte slot copy v)).filter fun x => pteV x.2

/-- Pages a sequence alone maps: (VPN, PPN) of DRAM pages with REFCNT 1. -/
def State.alone (s : State) (slot : Nat) : List (Nat × Nat) :=
  ((s.mapped slot (s.sq slot).active).filter fun x => !pteHost x.2 && decide ((s.page (ptePpn x.2)).refcnt = 1)).map
    fun x => (x.1, ptePpn x.2)

/-- The inactive copy is in use: it follows a flip, or is to map pages being copied (04 R134, R141). Edits wait for it (R135). -/
def Seq.busyCopy (q : Seq) : Bool := decide (q.inval ≠ 0) || !q.copies.isEmpty || !q.late.isEmpty

/-- An entry as the edits accepted so far leave it: in the inactive copy, or in what that copy will be (04 R135). -/
def State.draftPte (s : State) (slot v : Nat) : Nat :=
  let q := s.sq slot
  match q.late.reverse.find? fun x => x.1 = v with
  | some x => x.2
  | none => s.pte slot (if q.busyCopy then q.active else 1 - q.active) v

/-- An entry of the active copy stays as it is when the edits accepted become active. -/
def State.staysMapped (s : State) (slot : Nat) (x : Nat × Nat) : Bool :=
  let q := s.sq slot
  !q.pending || decide (s.pte slot (1 - q.active) x.1 = x.2)

/-- The entries of the active copy that a pending edit takes out. -/
def State.editedOut (s : State) (slot : Nat) : List (Nat × Nat) :=
  (s.mapped slot (s.sq slot).active).filter fun x => !s.staysMapped slot x

/-- The PPNs of some entries in DRAM, or on the host. -/
def ppnsOf (host : Bool) (es : List (Nat × Nat)) : List Nat := (es.filter fun x => pteHost x.2 == host).map fun x => ptePpn x.2

/-! ### Invalidation and what follows -/

/-- Begin an invalidation at the four Page Walkers and sixteen KV Gather Units (04 R136). -/
def State.startInval (s : State) (slot : Nat) (after : After) (removed hostFree : List Nat) : State :=
  s.modSeq slot fun q => { q with inval := BitVec.allOnes 20, after := after, removed := removed, hostFree := hostFree }

/-- Flip the copies and invalidate (04 R134). -/
def State.flip (s : State) (slot : Nat) (after : After) (removed hostFree : List Nat) : State :=
  (s.modSeq slot fun q => { q with active := 1 - q.active }).startInval slot after removed hostFree

/-- Begin the close of a sequence that is in no step (04 R142): its translations are invalidated, then every mapping of its
active and pending copies is counted out once (log 14) and its host pages are released. -/
def State.startClose (s : State) (slot : Nat) : State :=
  let q := s.sq slot
  let act := s.mapped slot q.active
  let pend := if q.pending then (s.mapped slot (1 - q.active)).filter fun x => decide (x ∉ act) else []
  let late := q.late.filter fun x => pteV x.2 && decide (x ∉ act)
  let all := act ++ pend ++ late
  (s.modSeq slot fun q => { q with st := sqClosing, copies := [], late := [] }).startInval slot .close (ppnsOf false all) (ppnsOf true all)

/-- Tokens still wanted of a handle. -/
def State.wantedTokens (s : State) (h : Nat) : Nat :=
  (s.jobIds.map fun j =>
    if (s.job j).kind = .stepLaunch then (((s.job j).wants.filter fun w => w.handle = h).map (·.tokens)).sum else 0).sum

/-- The slot returns to FREE (04 R112, R142): waiting commands complete, wanted tokens are dropped (06 R528). -/
def State.freeSlot (s : State) (slot : Nat) : State :=
  let h := s.handleOf slot
  let n := s.wantedTokens h
  let s := s.modSeq slot fun q => { gen := (q.gen + 1) % 256 }
  let s := if n = 0 then s else ((s.stale s.srcBb).takeTokens h 0 0 0 n s.jobIds).closeStepLaunches
  let s := s.finishAll (.seqClose slot) stOk 0 []
  let s := (s.finishAll (.edit slot) stStale 0 []).finishAll (.editLate slot) stStale 0 []
  (List.range 64).foldl (fun s m => match (s.mbx m).wait with
    | some (.fork p _) => if p = slot then s.complete m stStale 0 [] else s
    | _ => s) s

/-- Release host pages of a partition's swap area. -/
def State.freeHost (s : State) (p : Nat) (hs : List Nat) : State :=
  s.modPart p fun x => { x with swapUsed := hs.foldl (fun t h => tput false t h false) x.swapUsed }

/-- The edits that waited for the inactive copy are written to it, and their commands wait for it to become active (04 R135). -/
def State.applyLate (s : State) (slot : Nat) : State :=
  let q := s.sq slot
  if q.late.isEmpty ∨ ¬ q.copies.isEmpty then s
  else
    let s := q.late.foldl (fun s x => s.setPte slot (1 - q.active) x.1 x.2) s
    let s := s.modSeq slot fun q => { q with late := [], pending := true }
    (List.range 64).foldl (fun s m =>
      if (s.mbx m).wait = some (.editLate slot) then s.modMbx m fun x => { x with wait := some (.edit slot) } else s) s

/-- What follows an acknowledged invalidation, by what asked for it. -/
def State.followAck (s : State) (slot : Nat) : After → State
  | .close => s.freeSlot slot
  | .edits => s.finishAll (.edit slot) stOk 0 []
  | .unstall =>
    (s.modSeq slot fun q => { q with st := if q.st = sqStalled then sqOpen else q.st, need := 0 }).post 4 s.srcBb 3
      (s.handleOf slot) [] false
  | .swapOut =>
    let s := (s.modSeq slot fun q => { q with st := sqSwapped }).finishAll (.edit slot) stOk 0 []
    if (s.sq slot).closing then s.startClose slot else s
  | .swapIn =>
    let s := (s.modSeq slot fun q => { q with st := sqOpen }).finishAll (.edit slot) stOk 0 []
    if (s.sq slot).closing then s.startClose slot else s
  | .boundary => s
  | .none => s

/-- The invalidation of a slot has been acknowledged by all: the inactive copy follows, released pages are counted out, the sequence goes
on, a close that waited takes effect, and edits that waited are written (04 R134 to R136, R139, R142). -/
def State.afterAck (s : State) (slot : Nat) : State :=
  let q := s.sq slot
  let s := if q.after = .close then s else s.resync slot
  let s := s.modSeq slot fun q => { q with after := .none, removed := [], hostFree := [] }
  let s := q.removed.foldl (fun s n => s.decPage n) s
  let s := (s.freeHost q.part q.hostFree).followAck slot q.after
  let x := s.sq slot
  if q.after = .close then s
  else if x.st = sqClosing ∧ x.copies.isEmpty ∧ x.inval = 0 then s.startClose slot
  else s.applyLate slot

/-! ### Swapping -/

/-- Free host pages of a partition's swap area, at most `n`, ascending. -/
def State.freeHostPages (s : State) (p : Nat) : Nat → Nat → Nat → List Nat
  | 0, _, _ => []
  | fuel + 1, i, n =>
    if n = 0 then []
    else if !tget false (s.part p).swapUsed i then i :: s.freeHostPages p fuel (i + 1) (n - 1)
    else s.freeHostPages p fuel (i + 1) n

/-- Begin the swap-out of a sequence (04 R148); with too few free host pages it returns to OPEN and SWAP_OUT_ABORTED is
posted. One with no page of its own is SWAPPED at once, without a flip, and a pending edit becomes active at the swap's flip; what it
takes out is not copied (log 120). -/
def State.startSwapOut (s : State) (slot : Nat) : State :=
  let q := s.sq slot
  let p := s.part q.part
  let own := (s.alone slot).filter fun x => s.staysMapped slot (x.1, mkPte false x.2)
  let base := (p.swapDa - hostBase) / pageBytes + hostPpn
  let hs := s.freeHostPages q.part (p.swapBytes / pageBytes) base own.length
  if hs.length < own.length ∨ own.length = 0 then
    if own.length = 0 then s.modSeq slot fun q => { q with st := sqSwapped }
    else s.post 4 s.srcBb 1 (s.handleOf slot) [] false
  else
    let s := s.modPart q.part fun x => { x with swapUsed := hs.foldl (fun t h => tput false t h true) x.swapUsed }
    s.modSeq slot fun q => { q with
      st := sqSwapOut, copies := (own.zip hs).map fun x => (x.1.1, x.1.2, x.2) }

/-- A sequence may be pre-empted (04 R146); one that a build has admitted is not (log 15). -/
def State.eligible (s : State) (slot : Nat) : Bool :=
  let q := s.sq slot
  let p := s.part q.part
  decide (q.policy = 0) && decide (q.st = sqOpen) && decide (q.inval = 0) && q.copies.isEmpty && decide (p.cls ≤ 1) && !p.dmaList &&
    !s.seq.builds.any fun b => b.admits.any fun x => decide (x.1 = slot)

/-- Insert a slot in the order of 04 R147. -/
def State.insertVictim (s : State) (x : Nat) : List Nat → List Nat
  | [] => [x]
  | y :: t =>
    let a := s.sq x
    let b := s.sq y
    if a.share < b.share ∨ (a.share = b.share ∧ (epochLt a.lastEpoch b.lastEpoch ∨ (a.lastEpoch = b.lastEpoch ∧ x < y)))
    then x :: y :: t else y :: s.insertVictim x t

/-- The eligible sequences of a partition in the order of 04 R147, of a share below `share` where one is given. -/
def State.victims (s : State) (p : Nat) (share : Option Nat) : List Nat :=
  (s.liveSlots.filter fun i => decide ((s.sq i).part = p) && s.eligible i &&
    (match share with
      | some n => decide ((s.sq i).share < n)
      | none => true)).foldl (fun l i => s.insertVictim i l) []

/-- Start swap-outs until the available count and the pages chosen reach `goal` (04 R147). -/
def State.evict (s : State) (p goal : Nat) : Nat → List Nat → State
  | _, [] => s
  | gained, v :: t =>
    if goal ≤ s.available p + gained then s
    else
      let n := (s.alone v).length
      (s.startSwapOut v).evict p goal (gained + n) t

/-- What eviction aims at for `n` pages: an available count of `n`, and as many pages more as are short of being FREE (04 R147, R150). -/
def State.evictGoal (s : State) (p n : Nat) : Nat := max n (s.available p + (n - (s.takePages p n).length))

/-- Swap-out below the low watermark (04 R147). -/
def State.lowWater (s : State) (p : Nat) : State :=
  if s.available p < (s.part p).lowWm then s.evict p (s.part p).highWm 0 (s.victims p none) else s

/-- Begin the swap-in of a sequence while the watermark allows it, else pre-empt sequences of a lower share and wait (04
R149). -/
def State.startSwapIn (s : State) (slot : Nat) : State :=
  let q := s.sq slot
  let hosts := (s.mapped slot q.active).filter fun x => pteHost x.2 && s.staysMapped slot x
  let n := hosts.length
  let ps := s.takePages q.part n
  let low := (s.part q.part).lowWm
  if q.st ≠ sqSwapped ∨ q.inval ≠ 0 then s
  else if n = 0 then s.modSeq slot fun q => { q with st := sqOpen }
  else if n + low ≤ s.available q.part ∧ ps.length = n then
    (s.allocPages ps).modSeq slot fun q => { q with
      st := sqSwapIn, copies := (hosts.zip ps).map fun x => (x.1.1, ptePpn x.1.2, x.2) }
  else s.evict q.part (s.evictGoal q.part (n + low)) 0 (s.victims q.part (some q.share))

/-- Carry out the copies in progress, map their destinations in the inactive copy, and flip; a pending edit becomes active with them (04
R141, R148, R149). -/
def State.finishCopies (s : State) (slot : Nat) (o : Origin) (host : Bool) (after : After) (removed hostFree : List Nat) : State :=
  let q := s.sq slot
  let gone := (s.editedOut slot).filter fun x => !(q.copies.any fun c => decide (c.1 = x.1))
  let s := q.copies.foldl (fun s (c : Nat × Nat × Nat) =>
    (s.copyPage o (ppnDa c.2.1) (ppnDa c.2.2)).setPte slot (1 - q.active) c.1 (mkPte host c.2.2)) s
  (s.modSeq slot fun q => { q with copies := [], pending := false }).flip slot after (removed ++ ppnsOf false gone) (hostFree ++ ppnsOf true gone)

end Sys2Proof.Machine
end

