-- ==== Sys2Proof/Machine/Steps.lean ====
section
/-! DEFINITION. The Batch Builder's steps (04 R133 to R136, R140 to R150; 06 R229 to R232, R528). -/

namespace Sys2Proof.Machine

/-! ### What host software wants -/

/-- A run of wanted tokens of a sequence: the step launch, its step value where it names one, and tokens. -/
structure Wanted where
  job : Nat
  step : Option Nat
  entry : Nat
  tokens : Nat
  deriving DecidableEq, Repr, Inhabited

/-- The wanted tokens of a handle in the order their step launches were accepted (06 R528). -/
def State.wantedOf (s : State) (p h : Nat) : List Wanted :=
  (s.jobsOf p).filterMap fun j =>
    let b := s.job j
    let n := ((b.wants.filter fun w => w.handle = h).map (·.tokens)).sum
    if b.kind = .stepLaunch ∧ b.startAt.isNone ∧ b.cause.isNone ∧ n ≠ 0 then
      some ⟨j, if b.explicit then some b.step else none, b.entry, n⟩
    else none

/-- The leading run of one step value and one step task: tokens that a single build may serve (08 R290; log 113). -/
def leading : List Wanted → Option (Option Nat × Nat × Nat)
  | [] => none
  | w :: t => some (w.step, w.entry, ((w :: t).takeWhile fun x => decide (x.step = w.step) && decide (x.entry = w.entry)).foldl (fun a x => a + x.tokens) 0)

/-- A slot is in a step that has not completed. -/
def State.inStep (s : State) (slot : Nat) : Bool :=
  let h := s.handleOf slot
  s.jobIds.any fun j => decide ((s.job j).kind = .step) && (s.job j).wants.any fun w => decide (w.handle = h)

/-- A build has admitted the slot. -/
def State.inBuild (s : State) (slot : Nat) : Bool := s.seq.builds.any fun b => b.admits.any fun x => decide (x.1 = slot)

/-- A build has passed the slot's boundary already. -/
def State.builtIn (s : State) (slot : Nat) : Bool :=
  s.seq.builds.any fun b => (b.admits.any fun x => decide (x.1 = slot)) && decide (slot ∉ b.rest)

/-! ### Boundaries -/

/-- The VPNs of the token blocks a sequence reaches when it appends `a` tokens, from the block of its next token on (04 R116, R134). -/
def State.reachVpns (s : State) (slot a : Nat) : List Nat :=
  let q := s.sq slot
  let b0 := q.length / max 1 q.tpp
  let b1 := ceilDiv (q.length + a) (max 1 q.tpp)
  (List.range (b1 - b0)).flatMap fun b => (List.range q.nl).map fun l => (b0 + b) * q.nl + l

/-- New pages a sequence needs to append `a` tokens: those unmapped (04 R134). -/
def State.newVpns (s : State) (slot a : Nat) : List Nat :=
  (s.reachVpns slot a).filter fun v => !pteV (s.pte slot (s.sq slot).active v)

/-- Shared pages a sequence is about to append into: (VPN, PPN) (04 R134, R141). -/
def State.sharedVpns (s : State) (slot a : Nat) : List (Nat × Nat) :=
  (s.reachVpns slot a).filterMap fun v =>
    let e := s.pte slot (s.sq slot).active v
    if pteV e ∧ ¬ pteHost e ∧ 2 ≤ (s.page (ptePpn e)).refcnt then some (v, ptePpn e) else none

/-- What an allocation finds: the pages, a wait for LIMBO pages (04 R145), or none to have. -/
inductive Alloc where
  | ok (ps : List Nat)
  | limbo
  | none

/-- Try to allocate `n` pages for a sequence; a RESIDENT one draws on its reservation first (04 R145). -/
def State.tryAlloc (s : State) (slot n : Nat) : Alloc :=
  let q := s.sq slot
  let ps := s.takePages q.part n
  if n ≤ s.available q.part + min q.reserve n then
    if ps.length = n then .ok ps else if q.policy = 1 then .limbo else .none
  else .none

/-- Take the pages of an allocation: new ones are mapped in the inactive copy, which flips; then shared ones are copied (04 R134, R141).
`after` follows the last flip. -/
def State.takeAlloc (s : State) (slot : Nat) (new : List Nat) (cow : List (Nat × Nat)) (ps : List Nat) (after : After) : State :=
  let s := s.allocPages ps
  let s := s.modSeq slot fun q => { q with
    reserve := q.reserve - ps.length, copies := (cow.zip (ps.drop new.length)).map fun x => (x.1.1, x.1.2, x.2) }
  if new.isEmpty then s
  else
    let c := 1 - (s.sq slot).active
    let s := (new.zip ps).foldl (fun s (x : Nat × Nat) => s.setPte slot c x.1 (mkPte false x.2)) s
    s.flip slot (if cow.isEmpty then after else .none) [] []

/-- Make a fork's child (04 R140) and complete its command; `none` where a check fails. -/
def State.forkChild (s : State) (slot : Nat) : Option (State × Nat) :=
  let q := s.sq slot
  let p := q.part
  let act := s.mapped slot q.active
  let full := act.filter fun x => decide (65535 ≤ (s.page (ptePpn x.2)).refcnt)
  let child := findLow (fun i => decide ((s.sq i).st = sqFree)) 4096 0
  let mine := (s.liveSlots.filter fun i => (s.sq i).part = p).length
  let resv := if q.policy = 1 then q.nl * ceilDiv q.maxLen (max 1 q.tpp) else 0
  let fresh := s.takePages p full.length
  match child with
  | some c =>
    match s.ptPlace p (2 * ptCopyBytes q.ptLen) with
    | some base =>
      if mine < (s.part p).seqQuota ∧ fresh.length = full.length ∧ full.length + resv ≤ s.available p then
        let s := act.foldl (fun s (x : Nat × Nat) => if x ∈ full then s else s.incPage (ptePpn x.2)) s
        let s := s.allocPages fresh
        let gen := (s.sq c).gen
        let s := s.modSeq c fun _ => { q with
          gen := gen, st := sqOpen, active := 0, pending := false, ptBase := base, reserve := resv, inval := 0
          after := .none, removed := [], hostFree := [], copies := [], need := 0, closing := false, lastEpoch := 0
          appended := 0, layers := [], l0 := 0, a := 0, snap := 0, late := [] }
        let n := ptCopyBytes q.ptLen
        let s := s.copyBytes (q.ptBase + q.active * n) base n
        let s := (full.zip fresh).foldl (fun s (x : (Nat × Nat) × Nat) =>
          (s.copyPage (s.bbOrigin p) (ppnDa (ptePpn x.1.2)) (ppnDa x.2)).setPte c 0 x.1.1 (mkPte false x.2)) s
        some (s.copyBytes base (base + n) n, c)
      else none
    | none => none
  | none => none

/-- Process the forks that wait for a parent: those the twin partner forwarded (10 R360), then by mailbox (04 R140). -/
def State.doForks (s : State) (slot : Nat) : State :=
  let n := (s.sq slot).forks
  let s := (List.range n).foldl (fun s _ => match s.forkChild slot with
    | some (t, _) => t
    | none => s) (s.modSeq slot fun q => { q with forks := 0 })
  (List.range 64).foldl (fun s m =>
    if (s.mbx m).wait = some (.fork slot 0) then
      match s.forkChild slot with
      | some (t, c) => t.complete m stOk 0 (le 8 (t.handleOf c))
      | none => s.complete m stNoMemory 0 []
    else s) s

/-- A fork waits for the parent. -/
def State.forkWaits (s : State) (slot : Nat) : Bool := s.waits (.fork slot 0) || decide ((s.sq slot).forks ≠ 0)

/-- What passing a boundary gives: the state, whether the boundary is passed, whether the sequence drops out of the step. -/
structure Passed where
  s : State
  done : Bool := true
  drop : Bool := false

/-- One attempt to pass a sequence's step boundary (04 R134, R149, R150); `a` tokens are to be appended where the step
includes it. A boundary that waits for acknowledgements or copies is tried again when they arrive. -/
def State.boundary (s : State) (slot : Nat) (a : Option Nat) : Passed :=
  let q := s.sq slot
  if q.st = sqFree then { s := s, drop := true }
  else if q.inval ≠ 0 then
    let swap := decide (q.after = .swapOut) || decide (q.after = .swapIn)
    { s := s, done := swap, drop := swap }
  else if !q.copies.isEmpty then { s := s, done := a.isNone || decide (q.st = sqSwapOut) || decide (q.st = sqSwapIn), drop := decide (q.st = sqSwapOut) || decide (q.st = sqSwapIn) }
  else if s.inStep slot || q.st = sqInStep then { s := s, drop := true }
  else if q.st = sqClosing then { s := s.startClose slot, done := false }
  else if q.st = sqSwapped then
    { s := if a.isSome || s.forkWaits slot || decide (s.wantedTokens (s.handleOf slot) ≠ 0) then s.startSwapIn slot else s, drop := true }
  else if q.st = sqSwapOut ∨ q.st = sqSwapIn then { s := s, drop := true }
  else if q.pending then
    let gone := s.editedOut slot
    { s := (s.modSeq slot fun q => { q with pending := false }).flip slot .edits (ppnsOf false gone) (ppnsOf true gone), done := false }
  else if q.st = sqStalled then
    let new := s.newVpns slot q.need
    let cow := s.sharedVpns slot q.need
    let t := match s.tryAlloc slot (new.length + cow.length) with
      | .ok ps => if new.isEmpty && cow.isEmpty then s.followAck slot .unstall else s.takeAlloc slot new cow ps .unstall
      | _ => s
    { s := t.doForks slot, drop := true }
  else match a with
    | none => { s := s.doForks slot, drop := true }
    | some a =>
      let new := s.newVpns slot a
      let cow := s.sharedVpns slot a
      if new.isEmpty && cow.isEmpty then
        let s := s.modSeq slot fun q => { q with
          st := sqInStep, snap := q.active, l0 := q.length, a := a, appended := q.length, layers := [] }
        { s := s.doForks slot }
      else match s.tryAlloc slot (new.length + cow.length) with
        | .ok ps => { s := s.takeAlloc slot new cow ps .boundary, done := false }
        | .limbo => { s := s, done := false }
        | .none =>
          let vs := s.victims q.part none
          let t := s.evict q.part (s.evictGoal q.part (new.length + cow.length)) 0 vs
          if vs.any fun v => decide ((t.sq v).st ≠ sqOpen) then { s := t, drop := true }
          else
            let t := t.modSeq slot fun q => { q with st := sqStalled, need := a }
            { s := t.post 4 t.srcBb 2 (t.handleOf slot) [] false, drop := true }

/-- The tasks of an entry of an image. -/
def ImageFacts_tasks (f : ImageFacts) (entry : Nat) : Option (List TaskSt) :=
  (f.graphs.find? fun g => g.1 = entry).map fun g => g.2.map fun i => { decl := f.tasks.getD i {}, index := i }

/-- The facts of a loaded image. -/
def State.facts (s : State) (p image : Nat) : ImageFacts :=
  match tget none (s.part p).images image with
  | some i => i.facts
  | none => {}

/-- Attribute `n` tokens of a handle to the step launches that want them, in order (06 R232, R528). -/
def State.attribute (s : State) (h : Nat) : Nat → List Nat → List (Nat × Nat)
  | _, [] => []
  | n, j :: t =>
    let b := s.job j
    let have_ := if b.kind = .stepLaunch ∧ b.startAt.isNone then ((b.wants.filter fun w => w.handle = h).map (·.tokens)).sum else 0
    let k := min n have_
    if k = 0 then s.attribute h n t else (j, k) :: s.attribute h (n - k) t

/-- The bytes of a work list (06 R231). -/
def workList (epoch image phase step : Nat) (es : List Want) : List Byte :=
  le 8 (epoch * 2 ^ 32 + image * 2 ^ 24 + phase * 2 ^ 22 + es.length) ++ le 8 ((es.map (·.tokens)).sum * 2 ^ 32) ++
    le 8 step ++ le 40 0 ++ es.flatMap fun w => le 8 (w.handle * 2 ^ 32 + w.l0) ++ le 8 (w.tokens * 2 ^ 32 + w.row)

/-- Rows of a step's batch, in ascending slot order (06 R231). -/
def layRows : Nat → List Want → List Want
  | _, [] => []
  | r, w :: t => { w with row := r } :: layRows (r + w.tokens) t

/-- A task graph starts afresh: its counters and tokens lose their FAILED marks, row tokens and their shadows start at r_s, ring read
tokens at the first lo (03 R97, R99, R101; 06 R227). -/
def State.freshMarks (s : State) (ts : List TaskSt) : State :=
  let cs := ts.flatMap fun t => t.decl.counters.map fun c => 64 * c.1.val + c.2.val
  let tk := ts.flatMap fun t => t.decl.tokens.map fun c => (64 * c.1.val + c.2.1.val, c.2.2.1)
  let rd := ts.flatMap fun t => t.decl.reads.map fun c => (64 * c.1.val + c.2.1.val, c.2.2)
  { s with sch := { s.sch with
    ctrFailed := cs.foldl (fun t (c : Nat) => tput false t c false) s.sch.ctrFailed
    tokFailed := tk.foldl (fun t (c : Nat × Nat) => tput false t c.1 false) s.sch.tokFailed
    readFailed := rd.foldl (fun t (c : Nat × Nat) => tput false t c.1 false) s.sch.readFailed
    tokens := tk.foldl (fun t (c : Nat × Nat) => tput 0 t c.1 c.2) s.sch.tokens
    shadows := tk.foldl (fun t (c : Nat × Nat) => (List.range 16).foldl (fun t d =>
      tput 0 t (shadowKey d (c.1 / 64) (c.1 % 64)) c.2) t) s.sch.shadows
    reads := rd.foldl (fun t (c : Nat × Nat) => tput 0 t c.1 c.2) s.sch.reads } }

/-- Start a built step: it takes the next epoch, its work list is written, entries by ascending slot, and its tasks become a job (04
R134, R526; 06 R231); the standby of a mirrored partition logs it (08 R289), as entry 0x100 + the step task. A place for the list that
leaves the partition's REGION is the Batch Builder's decode fault, and the step fails (01 R39, R523; log 121). -/
def State.startStep (s : State) (b : Build) : State :=
  if b.admits.isEmpty then s
  else
    let epoch := (s.seq.epoch + 1) % 2 ^ 32
    let admits := s.liveSlots.filterMap fun i => b.admits.find? fun x => decide (x.1 = i)
    let es := layRows 0 (admits.map fun x => { handle := s.handleOf x.1, tokens := x.2, l0 := (s.sq x.1).l0 })
    let s := { s with seq := { s.seq with epoch := epoch } }
    let s := b.admits.foldl (fun s x => s.modSeq x.1 fun q => { q with lastEpoch := epoch, phase := b.phase }) s
    let f := s.facts b.part b.image
    let bytes := workList epoch b.image b.phase b.step es
    let placed := (s.part b.part).inRegion f.workList bytes.length && s.inOneOf f.workList bytes.length
    let s := if placed then s.store { s.bbOrigin 0 with part := b.part } f.workList bytes []
      else s.record s.srcBb 11 lvTask { addr := f.workList, part := some b.part, source := some s.srcBb }
    let shares := es.flatMap fun w => s.attribute w.handle w.tokens (s.jobsOf b.part)
    let ts := (ImageFacts_tasks f b.entry).getD []
    let first := (shares.map fun x => (s.job x.1).mbx).min?.getD 0
    let s := shares.foldl (fun s x => s.modJob x.1 fun j => { j with step := b.step }) s
    let s := s.freshMarks ts
    let n := s.sch.nextJob
    let s := { s with sch := { s.sch with nextJob := n + 1 } }
    let s := s.logLaunch b.part first (0x100 + b.entry) b.step bytes
    let s := s.modJob n fun _ => {
      live := true, kind := .step, part := b.part, mbx := first, image := b.image, entry := b.entry
      phase := b.phase, step := b.step, explicit := b.explicit, tasks := ts, wants := es, epoch := epoch, shares := shares }
    if placed then s else s.fail n causeFault s.srcBb 11

/-- Pass the boundaries of a build as far as they go; `none` when it is finished. -/
def State.advance (s : State) (b : Build) : Nat → State × Option Build
  | 0 => (s, some b)
  | fuel + 1 =>
    match b.rest with
    | [] => (s.startStep b, none)
    | slot :: t =>
      let a := (b.admits.find? fun x => x.1 = slot).map (·.2)
      let r := s.boundary slot a
      if r.done then
        r.s.advance { b with rest := t, admits := if r.drop then b.admits.filter fun x => x.1 ≠ slot else b.admits } fuel
      else (r.s, some b)

/-- SWAPPED sequences that host software has submitted for a step, or whose fork waits, start their swap-in as soon as pages allow (04
R140, R149). -/
def State.wakeSwapped (s : State) : State :=
  s.liveSlots.foldl (fun s i =>
    if (s.sq i).st = sqSwapped ∧ s.runs (s.sq i).part ∧ (s.forkWaits i ∨ s.wantedTokens (s.handleOf i) ≠ 0) then s.startSwapIn i else s) s

/-- Advance every build in progress, in the order they were made (06 R229), and swap-ins that wait. -/
def State.runBuilds (s : State) : State :=
  let bs := s.seq.builds
  (bs.foldl (fun s b =>
    let (t, r) := s.advance b (b.rest.length + 1)
    { t with seq := { t.seq with builds := t.seq.builds.flatMap fun x => if x = b then r.toList else [x] } }) s).wakeSwapped

/-- Wanted OPEN sequences of a group: (slot, tokens a build may take of it, its kind, its entry) (06 R229, R230). -/
def State.groupCands (s : State) (p image phase : Nat) : List (Nat × Nat × Option Nat × Nat) :=
  s.liveSlots.filterMap fun i =>
    let q := s.sq i
    let ws := s.wantedOf p (s.handleOf i)
    let total : Nat := (ws.map fun w => w.tokens).sum
    if q.part = p ∧ q.image = image ∧ q.st = sqOpen ∧ ¬ s.inBuild i ∧ total ≠ 0 ∧ phase = (if decide (1 < total) then 0 else 1) then
      (leading ws).map fun l => (i, l.2.2, l.1, l.2.1)
    else none

/-- Admit candidates in order against a budget (06 R230). -/
def admitAll (phase chunk : Nat) : Nat → List (Nat × Nat) → List (Nat × Nat)
  | _, [] => []
  | room, (i, n) :: t =>
    let a := if phase = 0 then min n chunk else 1
    if a ≤ room then (i, a) :: admitAll phase chunk (room - a) t else admitAll phase chunk room t

/-- A group has a step or a build in flight (06 R229). -/
def State.groupBusy (s : State) (p image phase : Nat) : Bool :=
  (s.jobsOf p).any (fun j => decide ((s.job j).kind = .step) && decide ((s.job j).image = image) && decide ((s.job j).phase = phase)) ||
    s.seq.builds.any fun b => decide (b.part = p) && decide (b.image = image) && decide (b.phase = phase)

/-- A group's build is due (06 R229). -/
def State.groupDue (s : State) (p image phase : Nat) : Bool :=
  s.runs p && !s.groupBusy p image phase && !(s.groupCands p image phase).isEmpty

/-- Some group before this one in ascending (partition, image, phase) is due: its build is made first (06 R229). -/
def State.earlierDue (s : State) (p image phase : Nat) : Bool :=
  s.liveSlots.any fun i => [0, 1].any fun ph =>
    let q := s.sq i
    (decide (q.part < p) || (decide (q.part = p) && (decide (q.image < image) || (decide (q.image = image) && decide (ph < phase))))) &&
      s.groupDue q.part q.image ph

/-- STEP_BUILD (06 R229 to R231, 08 R289, R290, 04 R133 to R150): of the first group due. With no wanted OPEN sequence there is nothing
to build, and swap-ins that wait are tried again (R149). -/
def execStepBuild (p : Fin 16) (image : Nat) (phase : Fin 4) (s : State) : Host.Outcome State Fault Refusal :=
  let cands := s.groupCands p.val image phase.val
  if s.groupBusy p.val image phase.val ∨ ¬ s.runs p.val ∨ s.earlierDue p.val image phase.val then .next s
  else
    let f := s.facts p.val image
    let left (i : Nat) : Bool := decide ((p.val, image, phase.val, i) ∈ s.sch.leftOut)
    let order := (cands.filter fun x => left x.1) ++ cands.filter fun x => !left x.1
    match order with
    | [] => .next s.runBuilds
    | c :: _ =>
      let kind := order.filter fun x => decide (x.2.2 = c.2.2)
      let adm := admitAll phase.val f.prefillChunk f.tokenBudget (kind.map fun x => (x.1, x.2.1))
      let step := c.2.2.1.getD (s.part p.val).step
      let s := if c.2.2.1.isSome then s else s.modPart p.val fun x => { x with step := (x.step + 1) % 2 ^ 64 }
      let out := (order.filter fun (x : Nat × Nat × Option Nat × Nat) => !(adm.any fun y => decide (y.1 = x.1))).map fun (x : Nat × Nat × Option Nat × Nat) => (p.val, image, phase.val, x.1)
      let s := { s with sch := { s.sch with
        leftOut := out ++ s.sch.leftOut.filter fun (x : Nat × Nat × Nat × Nat) => !(decide (x.1 = p.val) && decide (x.2.1 = image) && decide (x.2.2.1 = phase.val)) } }
      let rest := s.liveSlots.filter fun i => !s.inStep i && !s.builtIn i
      let b : Build := { part := p.val, image := image, phase := phase.val, step := step, explicit := c.2.2.1.isSome
                         entry := c.2.2.2, admits := adm, rest := rest }
      let s := { s with seq := { s.seq with builds := s.seq.builds ++ [b] } }
      .next ((s.lowWater p.val).runBuilds)

/-- STEP_COMPLETE (04 R113; 06 R528): the mirror holds the completion; lengths advance, sequences are OPEN again, the epoch
ends. A step that failed appends nothing. -/
def State.stepComplete (s : State) (job : Nat) : State :=
  let b := s.job job
  if b.live && decide (b.kind = .step) && b.cause.isSome then
    let ok := decide (b.cause = some causeOk)
    let s := s.chargeStep b
    let s := b.wants.foldl (fun s w =>
      let slot := slotOf w.handle
      if (s.sq slot).gen = w.handle / 4096 ∧ (s.sq slot).st ≠ sqFree then
        let s := s.modSeq slot fun q => { q with
          length := if ok then w.l0 + w.tokens else q.length
          st := if q.st = sqInStep then sqOpen else q.st, a := 0, layers := [] }
        if ok then s.takeTokens w.handle 0 0 0 w.tokens (b.served s.jobIds) else s
      else s.stale s.srcBb) s
    let s := s.modJob job fun _ => {}
    ((s.sendEnd b.part b.step).closeStepLaunches.settleLimbo).runBuilds
  else s

/-- STEP_COMPLETE. -/
def execStepComplete (job : Nat) (s : State) : Host.Outcome State Fault Refusal := .next (s.stepComplete job)

/-- Drop a unit's translations of a slot (04 R128, R136): units 0 to 3 are the Page Walkers, 4 to 19 the KV Gather Units. -/
def State.dropTlb (s : State) (unit slot : Nat) : State :=
  let keep (l : List (Nat × Nat × Nat)) := l.filter fun x => x.1 ≠ slot
  if unit < 4 then
    { s with seq := { s.seq with tlb := (List.range 64).foldl (fun t i => tmod [] t (64 * unit + i) keep) s.seq.tlb } }
  else { s with seq := { s.seq with micro := tmod [] s.seq.micro (unit - 4) keep } }

/-- TLB_INVALIDATION_ACK (04 R136). -/
def execTlbInvalidationAck (unit : Fin 20) (slot : Fin 4096) (s : State) : Host.Outcome State Fault Refusal :=
  let q := s.sq slot.val
  if q.inval.getLsbD unit.val then
    let left := q.inval &&& ~~~ BitVec.ofNat 20 (2 ^ unit.val)
    let s := (s.dropTlb unit.val slot.val).modSeq slot.val fun q => { q with inval := left }
    if left = 0 then .next ((s.afterAck slot.val).runBuilds) else .next s
  else .next s

/-- COPY_ON_WRITE_DONE (04 R141, R142, R150): every write of the copies of a boundary, or of a stalled sequence, is acknowledged; one that
is closing meanwhile closes after it. -/
def execCopyOnWriteDone (slot : Fin 4096) (s : State) : Host.Outcome State Fault Refusal :=
  let q := s.sq slot.val
  if q.copies.isEmpty ∨ q.inval ≠ 0 ∨ ¬ (q.st = sqOpen ∨ q.st = sqStalled ∨ q.st = sqClosing) then .next s
  else .next (s.finishCopies slot.val (s.bbOrigin q.part) false (if q.st = sqStalled then .unstall else .boundary)
    (q.copies.map fun c => c.2.1) [])

/-- The copies of a swap are done on DMA channel 3, which serves tasks again (04 R148, R149, R151). -/
def State.finishSwap (s : State) (slot : Nat) (out : Bool) : State :=
  let q := s.sq slot
  let d := s.swapDome q.part
  if (s.dmaRun d 3).isSome then s
  else
    let ps := q.copies.map fun c => c.2.1
    (s.finishCopies slot (s.swapOrigin q.part) out (if out then .swapOut else .swapIn) (if out then ps else []) (if out then [] else ps)).grantDma
      d 3

/-- SWAP_OUT_COPY_DONE (04 R148, R151). -/
def execSwapOutCopyDone (slot : Fin 4096) (s : State) : Host.Outcome State Fault Refusal :=
  let q := s.sq slot.val
  if q.copies.isEmpty ∨ q.st ≠ sqSwapOut then .next s else .next (s.finishSwap slot.val true)

/-- SWAP_IN_COPY_DONE (04 R149, R151). -/
def execSwapInCopyDone (slot : Fin 4096) (s : State) : Host.Outcome State Fault Refusal :=
  let q := s.sq slot.val
  if q.copies.isEmpty ∨ q.st ≠ sqSwapIn then .next s else .next (s.finishSwap slot.val false)

/-- The East (or West) Batch Builder continues from the mirror: every step whose completion was not committed is issued
again with its step value, its counters and tokens afresh; what units complete for the first run is late (04 R113; 06 R236). -/
def State.reissueSteps (s : State) : State :=
  (s.jobIds.filter fun j => decide ((s.job j).kind = .step)).foldl (fun s j =>
    let n := (s.job j).tasks.length
    let s := (List.range n).foldl (fun s i =>
      if (s.task j i).phase = .done ∨ (s.task j i).phase = .failed then s else s.leaveSpire j i) s
    (s.modJob j fun b => { b with
      cause := none, engine := 0, arith := 0
      tasks := b.tasks.map fun t => { decl := t.decl, index := t.index, run := t.run + 1 } }).freshMarks (s.job j).tasks) s

end Sys2Proof.Machine
end

