-- ==== Sys2Proof/Machine/Functions.lean ====
section
/-! DEFINITION. The vector functions of 02 R71: the results of special inputs, the bound of every other result, and the
value, left open within that bound. -/

namespace Sys2Proof.Machine

/-! ### Exact values in fixed point, in units of 2⁻⁴⁰⁰ -/

/-- The integer square root, by bits from `2 ^ n` down. -/
def isqrtBits (x : Nat) : Nat → Nat → Nat
  | 0, r => r
  | n + 1, r => isqrtBits x n (if (r + 2 ^ n) * (r + 2 ^ n) ≤ x then r + 2 ^ n else r)

/-- The integer square root of a number below `2 ^ 2 n`. -/
def isqrt (n x : Nat) : Nat := isqrtBits x n 0

/-- One. -/
def fxOne : Int := 2 ^ 400

/-- Product, rounded down. -/
def fxMul (a b : Int) : Int := a * b / fxOne

/-- Quotient, rounded down. -/
def fxDiv (a b : Int) : Int := a * fxOne / b

/-- The value of a finite FP32 word, whose exponent is at least −149. -/
def fxOf (neg : Bool) (m : Nat) (e : Int) : Int := unitsAt (-400) neg m e

/-- `x` between `-lim` and `lim`. -/
def fxClamp (lim : Nat) (x : Int) : Int := max (-(lim * fxOne)) (min (lim * fxOne) x)

/-- The series of `e ^ y` for a small `y`, from its term `k` down. -/
def fxExpSeries (y : Int) : Nat → Int → Int
  | 0, r => r
  | k + 1, r => fxExpSeries y k (fxOne + fxMul y r / ((k : Int) + 1))

/-- `n` squarings. -/
def fxSquare : Nat → Int → Int
  | 0, r => r
  | n + 1, r => fxSquare n (fxMul r r)

/-- `e ^ x` for `x` between −128 and 128. -/
def fxExp (x : Int) : Int := fxSquare 8 (fxExpSeries (x / 256) 80 fxOne)

/-- The series of `artanh z / z` in `z ^ 2`, from its term `j` down. -/
def fxArtanhSeries (z2 : Int) : Nat → Int → Int
  | 0, r => r
  | j + 1, r => fxArtanhSeries z2 j (fxOne / (2 * (j : Int) + 1) + fxMul z2 r)

/-- `2 artanh z` for `z` at most one third. -/
def fxArtanh2 (z : Int) : Int := 2 * fxMul z (fxArtanhSeries (fxMul z z) 130 0)

/-- The natural logarithm of `m * 2 ^ e`, `m` positive. -/
def fxLog (m : Nat) (e : Int) : Int :=
  let k := Nat.log2 m
  let t : Int := ((m * 2 ^ 400) >>> k : Nat)
  (e + k) * fxArtanh2 (fxOne / 3) + fxArtanh2 (fxDiv (t - fxOne) (t + fxOne))

/-- What a function would give exactly, for the finite inputs that `vecSpecial` does not settle (02 R71). -/
def vecExact (f : VecFn) (neg : Bool) (m : Nat) (e : Int) : Int :=
  let x := fxOf neg m e
  match f with
  | .exp => fxExp (fxClamp 120 x)
  | .log => fxLog m e
  | .recip => fxDiv fxOne x
  | .rsqrt => isqrt 480 (2 ^ 1200 / x.natAbs)
  | .tanh => let p := fxExp (fxClamp 100 (2 * x)); fxDiv (p - fxOne) (p + fxOne)
  | .gelu =>
    let u := (x + fxMul x (fxMul x x) * 44715 / 1000000) * 79788456 / 100000000
    if 2 * u < -(100 * fxOne) then 0
    else let p := fxExp (fxClamp 100 (2 * u)); fxMul x (fxDiv p (p + fxOne))

/-! ### The bound -/

/-- The error bound of a function in units in the last place (02 R71). -/
def vecUlps : VecFn → Nat
  | .exp | .log => 2
  | .recip | .rsqrt => 1
  | .tanh => 3
  | .gelu => 4

/-- One unit in the last place of FP32 at a value. -/
def fxUlp (v : Int) : Nat := 2 ^ (max (-149) ((Nat.log2 v.natAbs : Int) - 423) + 400).toNat

/-- A result lies within `k` units in the last place of the exact value `v`, or within `slack` of it. An infinity counts as the
value next to the largest finite one. -/
def vecWithin (k : Nat) (slack : Nat) (v : Int) (c : W32) : Bool :=
  let near (x : Int) : Bool := decide ((x - v).natAbs ≤ max slack (k * fxUlp v + 2 ^ 150))
  match ofF32 c with
  | .nan => false
  | .fin neg m e => near (fxOf neg m e)
  | .inf neg => if neg then near (-(2 ^ 528)) || decide (v ≤ -(2 ^ 528)) else near (2 ^ 528) || decide (2 ^ 528 ≤ v)

/-- The result is within the bound of 02 R71. -/
def vecBound (f : VecFn) (v : Int) (c : W32) : Bool := vecWithin (vecUlps f) (if f = .gelu then 2 ^ 274 else 0) v c

/-- The number by which `Config.vecResult` knows a function. -/
def vecNum : VecFn → Nat
  | .exp => 0 | .log => 1 | .recip => 2 | .rsqrt => 3 | .tanh => 4 | .gelu => 5

abbrev qNaN : W32 := 0x7FC00000#32
abbrev pInf : W32 := 0x7F800000#32
abbrev nInf : W32 := 0xFF800000#32

/-- The special inputs of 02 R71: the stated result, where the table states one. -/
def vecSpecial (f : VecFn) : FV → Option W32
  | .nan => some qNaN
  | .inf neg => match f with
    | .exp => some (if neg then 0 else pInf)
    | .log => some (if neg then qNaN else pInf)
    | .recip => some (if neg then 0x80000000#32 else 0)
    | .rsqrt => some (if neg then qNaN else 0)
    | .tanh => some (if neg then 0xBF800000#32 else 0x3F800000#32)
    | .gelu => some (if neg then 0x80000000#32 else pInf)
  | .fin neg m _ => match f with
    | .log => if m = 0 then some nInf else if neg then some qNaN else none
    | .recip => if m = 0 then some (if neg then nInf else pInf) else none
    | .rsqrt => if m = 0 then some (if neg then nInf else pInf) else if neg then some qNaN else none
    | _ => none

/-- A result that 02 R71 only bounds: the open value of `Config.vecResult` where it keeps the bound, the nearest FP32 value
where it does not, so that it is any value within the bound (log 53). -/
def vecOpen (f : VecFn) (neg : Bool) (m : Nat) (e : Int) (c : W32) : W32 :=
  let v := vecExact f neg m e
  if vecBound f v c then c else f32 (.fin (decide (v < 0)) v.natAbs (-400))

/-- A vector function (02 R71): a fixed function of the input bits. -/
def vecFn (f : VecFn) (x : W32) : W32 :=
  match vecSpecial f (ofF32 x), ofF32 x with
  | some r, _ => r
  | none, .fin neg m e => vecOpen f neg m e (Config.vecResult (vecNum f) x)
  | none, _ => qNaN

end Sys2Proof.Machine
end

