-- ==== Sys2Proof/Machine/Geometry.lean ====
section
/-! DEFINITION. Geometry for the checker of the Planning Engines (05 R158, R169 to R171, R173): rotations in fixed point, the convex
bodies of boxes, spheres and triangles, whether two of them come within a distance, and the cells that boxes meet. A length in units
of 2⁻¹⁰ m is a "unit"; vertices are held in 1,024ths of a unit, rotations in units of 2⁻⁶⁴ (log 52). -/

namespace Sys2Proof.Machine

/-! ### Vectors -/

/-- A vector of integers. -/
structure Vec where
  x : Int
  y : Int
  z : Int
  deriving DecidableEq, Repr, Inhabited

def Vec.add (a b : Vec) : Vec := ⟨a.x + b.x, a.y + b.y, a.z + b.z⟩
def Vec.sub (a b : Vec) : Vec := ⟨a.x - b.x, a.y - b.y, a.z - b.z⟩
def Vec.scale (k : Int) (a : Vec) : Vec := ⟨k * a.x, k * a.y, k * a.z⟩
def Vec.dot (a b : Vec) : Int := a.x * b.x + a.y * b.y + a.z * b.z
def Vec.cross (a b : Vec) : Vec := ⟨a.y * b.z - a.z * b.y, a.z * b.x - a.x * b.z, a.x * b.y - a.y * b.x⟩

/-- Squared length. -/
def Vec.sq (a : Vec) : Int := a.dot a

/-- Every component divided, to the nearest. -/
def Vec.shrink (k : Nat) (a : Vec) : Vec := ⟨(a.x + k / 2) / k, (a.y + k / 2) / k, (a.z + k / 2) / k⟩

/-- The least integer not below a square root, of a number below `2 ^ 400`. -/
def ceilSqrt (n : Nat) : Nat :=
  let r := isqrt 200 n
  if r * r = n then r else r + 1

/-! ### Rotations (05 R158) -/

/-- One, in the fixed point of rotations. -/
def rotOne : Int := 2 ^ 64

/-- π in units of 2⁻⁶⁴, rounded down. -/
def rotPi : Int := 0x3243F6A8885A308D3

/-- Product in units of 2⁻⁶⁴. -/
def rotMul (a b : Int) : Int := a * b / rotOne

/-- Cosine and sine of an angle of at most π/4 in units of 2⁻⁶⁴, by their series. -/
def trigSmall (x : Int) : Int × Int :=
  let r := (List.range 24).foldl (fun (a : Int × Int × Int) k =>
    let t := a.2.2
    let next := rotMul t x / ((k : Int) + 1)
    match k % 4 with
    | 0 => (a.1 + t, a.2.1, next)
    | 1 => (a.1, a.2.1 + t, next)
    | 2 => (a.1 - t, a.2.1, next)
    | _ => (a.1, a.2.1 - t, next)) (0, 0, rotOne)
  (r.1, r.2.1)

/-- Cosine and sine of an angle in units of π/32,768 (05 R158), exact at quarter turns. -/
def trig (a : Int) : Int × Int :=
  let q := (a + 8192) / 16384
  let (c, s) := trigSmall ((a - 16384 * q) * rotPi / 32768)
  match q % 4 with
  | 0 => (c, s)
  | 1 => (-s, c)
  | 2 => (-c, -s)
  | _ => (s, -c)

/-- A rotation: where it takes the three axes, in units of 2⁻⁶⁴. -/
structure Rot where
  a : Vec
  b : Vec
  c : Vec
  deriving DecidableEq, Repr, Inhabited

/-- Yaw about z, then pitch about the new y, then roll about the new x (05 R158; the turns right-handed, DEDUCED, log 52). -/
def Rot.of (yaw pitch roll : Int) : Rot :=
  let (cy, sy) := trig yaw
  let (cp, sp) := trig pitch
  let (cr, sr) := trig roll
  let ss := rotMul sp sr
  let sc := rotMul sp cr
  { a := ⟨rotMul cy cp, rotMul sy cp, -sp⟩
    b := ⟨rotMul cy ss - rotMul sy cr, rotMul sy ss + rotMul cy cr, rotMul cp sr⟩
    c := ⟨rotMul cy sc + rotMul sy sr, rotMul sy sc - rotMul cy sr, rotMul cp cr⟩ }

/-- A vector in units, rotated: in units of 2⁻⁶⁴. -/
def Rot.app (m : Rot) (v : Vec) : Vec := ((m.a.scale v.x).add (m.b.scale v.y)).add (m.c.scale v.z)

/-- A rotation within a frame that is itself rotated. -/
def Rot.then_ (m n : Rot) : Rot :=
  let f (v : Vec) : Vec :=
    let u := m.app v
    ⟨u.x / rotOne, u.y / rotOne, u.z / rotOne⟩
  ⟨f n.a, f n.b, f n.c⟩

/-! ### Convex bodies -/

/-- A convex body: corners, edges and triangles of its surface in 1,024ths of a unit, the directions of its faces' normals and of its
edges, whether it encloses a volume, and a radius in units by which it is grown. -/
structure Body where
  pts : List Vec
  edges : List (Vec × Vec) := []
  tris : List (Vec × Vec × Vec) := []
  norms : List Vec := []
  dirs : List Vec := []
  solid : Bool := false
  radius : Nat := 0
  deriving DecidableEq, Repr, Inhabited

/-- A point given in units of 2⁻⁶⁴ units as a corner. -/
def cornerOf (v : Vec) : Vec := v.shrink (2 ^ 54)

/-- A sphere about a centre in units of 2⁻⁶⁴. -/
def sphereBody (c : Vec) (r : Nat) : Body := { pts := [cornerOf c], radius := r }

/-- The eight corners of a box about its centre, in units of 2⁻⁶⁴; bit `k` of a corner's number is its side along axis `k`. -/
def boxCorners (c : Vec) (m : Rot) (hx hy hz : Nat) : List Vec :=
  (List.range 8).map fun k =>
    let g (i h : Nat) : Int := if k.testBit i then (h : Int) else -(h : Int)
    c.add (m.app ⟨g 0 hx, g 1 hy, g 2 hz⟩)

/-- An oriented box of half extents in units. -/
def boxBody (c : Vec) (m : Rot) (hx hy hz : Nat) : Body :=
  let ps := (boxCorners c m hx hy hz).map cornerOf
  let p (i : Nat) : Vec := ps.getD i default
  let axes := [m.a, m.b, m.c].map fun v => v.shrink (2 ^ 34)
  let face (o d e : Nat) : List (Vec × Vec × Vec) := [(p o, p (o + d), p (o + e)), (p (o + d + e), p (o + d), p (o + e))]
  { pts := ps, norms := axes, dirs := axes, solid := true
    edges := [(1, [0, 2, 4, 6]), (2, [0, 1, 4, 5]), (4, [0, 1, 2, 3])].flatMap fun d => d.2.map fun i => (p i, p (i + d.1))
    tris := face 0 2 4 ++ face 1 2 4 ++ face 0 1 4 ++ face 2 1 4 ++ face 0 1 2 ++ face 4 1 2 }

/-- A triangle with corners in units of 2⁻⁶⁴. -/
def triBody (a b c : Vec) : Body :=
  let a := cornerOf a
  let b := cornerOf b
  let c := cornerOf c
  let es := [(a, b), (b, c), (c, a)]
  { pts := [a, b, c], edges := es, tris := [(a, b, c)], norms := [(b.sub a).cross (c.sub a)], dirs := es.map fun e => e.2.sub e.1 }

/-- The bodies lie strictly on two sides of a plane with this normal. -/
def splits (n : Vec) (a b : Body) : Bool :=
  let below (x y : Body) : Bool := match (x.pts.map n.dot).max?, (y.pts.map n.dot).min? with
    | some u, some v => decide (u < v)
    | _, _ => false
  below a b || below b a

/-- The bodies overlap, one of them enclosing a volume: no plane along a face of either or along an edge of each lies between. -/
def bodiesMeet (a b : Body) : Bool :=
  (a.solid || b.solid) &&
    (a.norms ++ b.norms ++ a.dirs.flatMap fun d => b.dirs.map d.cross).all fun n => !splits n a b

/-- Two points lie within a distance. -/
def ptPt (r2 : Int) (p q : Vec) : Bool := decide ((p.sub q).sq ≤ r2)

/-- A point lies beside an edge within a distance. -/
def ptEdge (r2 : Int) (p : Vec) (e : Vec × Vec) : Bool :=
  let d := e.2.sub e.1
  let w := p.sub e.1
  decide (0 < d.sq) && decide (0 ≤ w.dot d) && decide (w.dot d ≤ d.sq) && decide ((w.cross d).sq ≤ r2 * d.sq)

/-- A point lies over a triangle within a distance. -/
def ptTri (r2 : Int) (p : Vec) (t : Vec × Vec × Vec) : Bool :=
  let u := t.2.1.sub t.1
  let v := t.2.2.sub t.1
  let n := u.cross v
  let w := p.sub t.1
  let i := (w.cross v).dot n
  let j := (u.cross w).dot n
  decide (0 < n.sq) && decide (0 ≤ i) && decide (0 ≤ j) && decide (i + j ≤ n.sq) && decide (w.dot n * w.dot n ≤ r2 * n.sq)

/-- Two edges pass each other within a distance. -/
def edgeEdge (r2 : Int) (e f : Vec × Vec) : Bool :=
  let u := e.2.sub e.1
  let v := f.2.sub f.1
  let w := e.1.sub f.1
  let n := u.cross v
  let i := u.dot v * v.dot w - v.sq * u.dot w
  let j := u.sq * v.dot w - u.dot v * u.dot w
  decide (0 < n.sq) && decide (0 ≤ i) && decide (i ≤ n.sq) && decide (0 ≤ j) && decide (j ≤ n.sq) &&
    decide (w.dot n * w.dot n ≤ r2 * n.sq)

/-- Two bodies, without their radii, come within `r` 1,024ths of a unit of each other: they overlap, or two of their corners, edges
and faces do. -/
def withinReach (r : Int) (a b : Body) : Bool :=
  let r2 := r * r
  bodiesMeet a b ||
    (a.pts.any fun p => (b.pts.any fun q => ptPt r2 p q) || (b.edges.any fun e => ptEdge r2 p e) || b.tris.any fun t => ptTri r2 p t) ||
    (b.pts.any fun p => (a.edges.any fun e => ptEdge r2 p e) || a.tris.any fun t => ptTri r2 p t) ||
    (a.edges.any fun e => b.edges.any fun f => edgeEdge r2 e f)

/-- Bodies grown by their radii and `g` units touch: certainly (05 R171: overlapping bodies are never free), certainly not (they stay
16 units apart), or as the reference model says, with a 16th of a unit for rounding at both ends (log 52). -/
def touching (g : Nat) (a b : Body) (model : Bool) : Bool :=
  let r : Int := ((a.radius + b.radius + g : Nat) : Int) * 1024
  withinReach (r + 64) a b || (withinReach (r + 16 * 1024 - 64) a b && model)

/-! ### Cells (05 R173) -/

/-- The axis-aligned box about a body grown by `g` units, in 1,024ths of a unit: its least and greatest corner. -/
def Body.bounds (b : Body) (g : Nat) : Vec × Vec :=
  let r : Int := ((b.radius + g : Nat) : Int) * 1024
  let lo (f : Vec → Int) : Int := (b.pts.map f).min?.getD 0 - r
  let hi (f : Vec → Int) : Int := (b.pts.map f).max?.getD 0 + r
  (⟨lo (·.x), lo (·.y), lo (·.z)⟩, ⟨hi (·.x), hi (·.y), hi (·.z)⟩)

/-- A leg of a motion: its times in ns, the displacement at time 0 extrapolated back along it, in 10⁻⁹ units, and its velocity in units
per second. -/
structure Leg where
  from_ : Int
  until_ : Int
  at0 : Vec
  vel : Vec
  deriving DecidableEq, Repr, Inhabited

/-- The times of a span at which `c + v * t` is not negative. -/
def notNeg (c v : Int) (s : Int × Int) : Int × Int :=
  if v = 0 then (if 0 ≤ c then s else (1, 0))
  else if 0 < v then (max s.1 (-(c / v)), s.2)
  else (s.1, min s.2 (c / (-v)))

/-- At some time of the leg the moving box `b` meets a cell that the resting box `e` meets; a cell is `w` wide and does not hold its
upper faces. -/
def Leg.meets (l : Leg) (w : Int) (b e : Vec × Vec) : Bool :=
  let axis (f : Vec → Int) (s : Int × Int) : Int × Int :=
    let lo := f e.1 / w * w
    let hi := (f e.2 / w + 1) * w
    notNeg ((hi - f b.1) * 1000000000 - 1024 * f l.at0 - 1) (-(1024 * f l.vel))
      (notNeg ((f b.2 - lo) * 1000000000 + 1024 * f l.at0) (1024 * f l.vel) s)
  let s := axis (·.z) (axis (·.y) (axis (·.x) (l.from_, l.until_)))
  decide (s.1 ≤ s.2)

/-- An item of the broad phase: its grown box where its motion starts, and the legs of the motion. -/
structure Item where
  box : Vec × Vec
  legs : List Leg
  deriving DecidableEq, Repr, Inhabited

/-- The item shares a cell of `2 ^ cell` units with a box. -/
def Item.hits (i : Item) (cell : Nat) (e : Vec × Vec) : Bool := i.legs.any fun l => l.meets (2 ^ (cell + 10)) i.box e

end Sys2Proof.Machine
end

