-- ==== Sys2Proof/Machine/Tile.lean ====
section
/-! DEFINITION. What a tile of a matrix task computes and how it is checked (02 R45 to R66, R75 to R79). -/

namespace Sys2Proof.Machine

/-- Plain or MX: the element format of an operand format with the MX type stripped. -/
def isFp8 : Fmt → Bool
  | .e4m3 | .e5m2 => true
  | _ => false

/-- 8-bit MX formats. -/
def isMx8 : Fmt → Bool
  | .mxE4m3 | .mxE5m2 | .mxInt8 => true
  | _ => false

/-- 6-bit MX formats. -/
def isMx6 : Fmt → Bool
  | .mxE2m3 | .mxE3m2 => true
  | _ => false

/-- The operand pairings of 02 R45 and R46, with 2:4 sparsity on B where the row has it. -/
def pairingOk (a b : Fmt) (sparse : Bool) : Bool :=
  (decide (a = .int8) && (decide (b = .int8) || decide (b = .int4))) || (decide (a = .int4) && decide (b = .int4)) ||
    (isFp8 a && isFp8 b) ||
    ((isMx8 a || isFp8 a) && fmtMx b && !(sparse && isMx6 b)) ||
    (isMx6 a && (isMx6 b || decide (b = .mxFp4)) && !sparse) ||
    (decide (a = .mxFp4) && decide (b = .mxFp4)) ||
    (decide (a = .bf16) && decide (b = .bf16) && !sparse) ||
    (decide (a = .fp16) && decide (b = .fp16) && !sparse)

/-- The pairing sums in INT32 (02 R58). -/
def isIntPair (a : Fmt) : Bool := decide (a = .int8) || decide (a = .int4)

/-- The code of element `i` of a packed row (02 R49). -/
def elemCode (row : List Byte) (f : Fmt) (i : Nat) : Nat :=
  match fmtBits f with
  | 4 => (row.getD (i / 2) 0).toNat / 16 ^ (i % 2) % 16
  | 6 => leNat ((row.drop (3 * (i / 4))).take 3) / 64 ^ (i % 4) % 64
  | b => leNat ((row.drop (b / 8 * i)).take (b / 8))

/-- Element codes packed into bytes (02 R49). -/
def packRow (f : Fmt) (codes : List Nat) : List Byte :=
  let all := (List.range codes.length).foldl (fun a i => a + codes.getD i 0 * 2 ^ (fmtBits f * i)) 0
  leBytes (rowBytes f codes.length) all

/-- Exponent of a format's unit: its smallest nonzero magnitude (02 R54). -/
def unitExp (f : Fmt) : Int :=
  match layoutOf f with
  | some l => l.qmin
  | none => if f = .mxInt8 then -6 else 0

/-- An element in units, when finite (02 R54). -/
def unitsOf (f : Fmt) : FV → Int
  | .fin neg m e => unitsAt (unitExp f) neg m e
  | _ => 0

/-- A valid metadata nibble's two positions (02 R51). -/
def nibbleOk (n : Nat) : Bool := decide (n % 4 < n / 4)

/-- The operands of a tile, read from memory: rows of A, columns of B (each the K run of one output channel), metadata,
scales. -/
structure TileData where
  a : List (List Byte)
  b : List (List Byte)
  meta_ : List (List Byte)
  as : List (List Byte)
  bs : List (List Byte)
  deriving Inhabited

/-- Blocks of a tile's K range. -/
def tileBlocks (t : MatTile) : Nat := ceilDiv t.k 32

/-- Ranges a tile reads, as (address, bytes). -/
def tileReads (t : MatTile) : List (Nat × Nat) :=
  let kb := if t.sparse then (t.k + 3) / 4 * 2 else t.k
  (List.range t.m).map (fun i => (t.a + i * t.aPitch, rowBytes t.aFmt t.k)) ++
    (List.range t.n).map (fun j => (t.b + j * t.bPitch, rowBytes t.bFmt kb)) ++
    (if t.sparse then (List.range t.n).map (fun j => (t.metaDa + j * t.metaPitch, ((t.k + 3) / 4 + 1) / 2)) else []) ++
    (if fmtMx t.aFmt then (List.range t.m).map (fun i => (t.aScale + i * t.aScalePitch, (tileBlocks t))) else []) ++
    (if fmtMx t.bFmt then (List.range t.n).map (fun j => (t.bScale + j * t.bScalePitch, (tileBlocks t))) else []) ++
    match t.cin with
    | some c => (List.range t.m).map fun i => (c + i * t.cinPitch, 4 * t.n)
    | none => []

/-- The tile's operands. -/
def State.tileData (s : State) (sp : Nat) (t : MatTile) : TileData :=
  let r (a n : Nat) := s.rd (resolve sp a) n
  let kb := if t.sparse then (t.k + 3) / 4 * 2 else t.k
  { a := (List.range t.m).map fun i => r (t.a + i * t.aPitch) (rowBytes t.aFmt t.k)
    b := (List.range t.n).map fun j => r (t.b + j * t.bPitch) (rowBytes t.bFmt kb)
    meta_ := if t.sparse then (List.range t.n).map fun j => r (t.metaDa + j * t.metaPitch) (((t.k + 3) / 4 + 1) / 2) else []
    as := (List.range t.m).map fun i =>
      if fmtMx t.aFmt then r (t.aScale + i * t.aScalePitch) (tileBlocks t) else List.replicate (tileBlocks t) 127
    bs := (List.range t.n).map fun j =>
      if fmtMx t.bFmt then r (t.bScale + j * t.bScalePitch) (tileBlocks t) else List.replicate (tileBlocks t) 127 }

/-- The present K positions of block `b` for column `n`, each with the index of its value in B's stored run (02 R51,
R52). -/
def TileData.present (d : TileData) (t : MatTile) (n b : Nat) : List (Nat × Nat) :=
  let ks := (List.range 32).map (fun i => 32 * b + i) |>.filter fun k => decide (k < t.k)
  if t.sparse then
    ks.filterMap fun k =>
      let nib := elemCode (d.meta_.getD n []) .int4 (k / 4)
      if k % 4 = nib % 4 then some (k, 2 * (k / 4)) else if k % 4 = nib / 4 then some (k, 2 * (k / 4) + 1) else none
  else ks.map fun k => (k, k)

/-- Some metadata nibble of a tile is invalid (02 R51). -/
def TileData.badNibble (d : TileData) (t : MatTile) : Bool :=
  t.sparse && d.meta_.any fun row => (List.range ((t.k + 3) / 4)).any fun g => !nibbleOk (elemCode row .int4 g)

/-- A block's exact sum with its special-value flags (02 R54). -/
structure BlockSum where
  acc : Int := 0
  nan : Bool := false
  pinf : Bool := false
  ninf : Bool := false
  deriving DecidableEq, Repr, Inhabited

/-- Add one product (02 R54). -/
def BlockSum.step (fa fb : Fmt) (x : BlockSum) (a b : FV) : BlockSum :=
  match a, b with
  | .nan, _ => { x with nan := true }
  | _, .nan => { x with nan := true }
  | .fin sa ma ea, .fin sb mb eb =>
    { x with acc := x.acc + unitsAt (unitExp fa) sa ma ea * unitsAt (unitExp fb) sb mb eb }
  | a, b => match a.mul b with
    | .inf true => { x with ninf := true }
    | .inf false => { x with pinf := true }
    | _ => { x with nan := true }

/-- Block `b` of output element (m, n), with `err` what a fault has added to the sum (02 R54). -/
def TileData.block (d : TileData) (t : MatTile) (m n b : Nat) (err : Int) : BlockSum :=
  let ra := d.a.getD m []
  let rb := d.b.getD n []
  let sum := (d.present t n b).foldl (fun x (k : Nat × Nat) =>
    x.step t.aFmt t.bFmt (decodeFmt t.aFmt (elemCode ra t.aFmt k.1)) (decodeFmt t.bFmt (elemCode rb t.bFmt k.2)))
    ({ acc := err } : BlockSum)
  let sa := (d.as.getD m []).getD b 127
  let sb := (d.bs.getD n []).getD b 127
  if sa = 0xFF ∨ sb = 0xFF then { sum with nan := true } else sum

/-- FP32 addition with FP_OVF where an infinity arises from finite operands (02 R65, R68). R68 names accumulation; the sums of the vector
unit are taken as accumulation too (log 122). -/
def addFlag (a b : W32 × Nat) : W32 × Nat :=
  let r := toF32 ((ofF32 a.1).add (ofF32 b.1))
  (BitVec.ofNat 32 r.code, a.2 ||| b.2 ||| (r.flags &&& fFpOvf))

/-- A block's FP32 value (02 R54, R55): exact scaled sum rounded once. -/
def BlockSum.value (x : BlockSum) (fa fb : Fmt) (sa sb : Nat) : Conv :=
  if x.nan ∨ (x.pinf ∧ x.ninf) then { code := 0x7FC00000 }
  else if x.pinf then { code := 0x7F800000 }
  else if x.ninf then { code := 0xFF800000 }
  else toF32 (FV.ofInt x.acc (unitExp fa + unitExp fb + sa + sb - 254))

/-- Join block values in ascending order by FP32 addition, from C_in or the first block (02 R56), with FP_OVF where an
infinity arose from finite values (R65). -/
def joinBlocks (vals : List Conv) (cin : Option W32) : W32 × Nat :=
  let add (x : W32 × Nat) (v : Conv) : W32 × Nat := addFlag x (BitVec.ofNat 32 v.code, v.flags)
  match cin, vals with
  | some c, vs => vs.foldl add (c, 0)
  | none, v :: vs => vs.foldl add (BitVec.ofNat 32 v.code, v.flags)
  | none, [] => (0, 0)

/-- Errors a fault has added to a tile's block sums: row, column, block, amount. -/
abbrev Errs := List (Nat × Nat × Nat × Int)

/-- The error in one block sum. -/
def errAt (e : Errs) (m n b : Nat) : Int :=
  ((e.filter fun x => decide (x.1 = m) && decide (x.2.1 = n) && decide (x.2.2.1 = b)).map fun x => x.2.2.2).sum

/-- The checksum row and column see the errors (02 R75): some row's or column's sum of errors in a block is not 0. -/
def errsSeen (t : MatTile) (e : Errs) : Bool :=
  (List.range (tileBlocks t)).any fun b =>
    let here := e.filter fun x => decide (x.2.2.1 = b) && decide (x.1 < t.m) && decide (x.2.1 < t.n)
    (here.any fun x => decide (((here.filter fun y => y.1 = x.1).map fun y => y.2.2.2).sum ≠ 0)) ||
      here.any fun x => decide (((here.filter fun y => y.2.1 = x.2.1).map fun y => y.2.2.2).sum ≠ 0)

/-- One FP32 result of a floating-point pairing (02 R56). -/
def TileData.fpElem (d : TileData) (t : MatTile) (e : Errs) (m n : Nat) (cin : Option W32) : W32 × Nat :=
  joinBlocks ((List.range (tileBlocks t)).map fun b =>
    (d.block t m n b (errAt e m n b)).value t.aFmt t.bFmt ((d.as.getD m []).getD b 127).toNat
      ((d.bs.getD n []).getD b 127).toNat) cin

/-- One INT32 result of an integer pairing: the exact total with C_in (02 R58). -/
def TileData.intElem (d : TileData) (t : MatTile) (e : Errs) (m n : Nat) (cin : Option W32) : Int :=
  let blocks := (List.range (tileBlocks t)).map fun b => (d.block t m n b (errAt e m n b)).acc
  blocks.sum + match cin with
    | some c => c.toInt
    | none => 0

/-- The compiler's declaration for an output channel. -/
def quantAt (qs : List Quant) (n : Nat) : Quant := qs.getD n (qs.getD 0 {})

/-- Results converted: element codes, the scale codes of an MX output's blocks, flags, SAT_COUNT's part. -/
structure OutRow where
  codes : List Nat
  scales : List Nat := []
  flags : Nat := 0
  sats : Nat := 0
  deriving Inhabited

/-- The results of one row, exact: an FP32 word, an integer of an integer pairing, or the zero of a pooling window with no tap in range,
which is written as +0 or integer 0 (03 R95). -/
inductive Raw where
  | fp (w : W32)
  | int (i : Int)
  | zero
  deriving DecidableEq, Repr, Inhabited

/-- An integer result times the declared scale, exact (02 R524). -/
def rawScaled (q : Quant) : Raw → FV
  | .fp w => ofF32 w
  | .int i => (FV.ofInt i 0).mul (ofF32 q.scale)
  | .zero => .fin false 0 0

/-- Convert one row of results (02 R58, R61 to R66, R524); `sr` gives the generator's word for an element. -/
def convertRow (f : Fmt) (arith : Nat) (qs : List Quant) (sr : Nat → Nat) (raws : List Raw) : OutRow :=
  let sym := arith.testBit 0
  let ovfNan := arith.testBit 1
  let rnd (i : Nat) : Option Nat := if arith.testBit 2 then some (sr i) else none
  if fmtMx f then
    let vs := (List.range raws.length).map fun i =>
      let c := match raws.getD i (.int 0) with
        | .fp w => ({ code := w.toNat } : Conv)
        | r => toF32 (rawScaled (quantAt qs i) r)
      (ofF32 (BitVec.ofNat 32 c.code), c.flags)
    let blks := (List.range (ceilDiv raws.length 32)).map fun b =>
      mxBlock f ovfNan (fun i => rnd (32 * b + i)) (((vs.map (·.1)).drop (32 * b)).take 32)
    { codes := blks.flatMap fun b => b.2.1
      scales := blks.map (·.1)
      flags := (blks.foldl (fun a b => a ||| b.2.2.1) 0) ||| vs.foldl (fun a v => a ||| v.2) 0
      sats := (blks.map fun b => b.2.2.2).sum }
  else
    let cs := (List.range raws.length).map fun i =>
      let q := quantAt qs i
      match f, raws.getD i (.int 0) with
      | _, .zero => ({ code := 0 } : Conv)
      | .int32, .int v => clampInt .int32 sym v
      | .int8, .int v => requant .int8 sym q v
      | .int4, .int v => requant .int4 sym q v
      | .int32, .fp w => f32ToInt .int32 sym q.scale q.zero w
      | .int8, .fp w => f32ToInt .int8 sym q.scale q.zero w
      | .int4, .fp w => f32ToInt .int4 sym q.scale q.zero w
      | .fp32, .fp w => { code := w.toNat, flags := if ofF32 w = FV.nan then fNanOut else 0 }
      | f, r => match layoutOf f with
        | some l => toFloat l ovfNan (if f = Fmt.fp32 then none else rnd i) (rawScaled q r)
        | none => { code := 0 }
    { codes := cs.map (·.code)
      flags := cs.foldl (fun a c => a ||| c.flags) 0
      sats := (cs.filter (·.sat)).length }

/-- Exact results of one row of a matrix tile. -/
def TileData.rawRow (d : TileData) (t : MatTile) (e : Errs) (m : Nat) (cin : Nat → Option W32) : List Raw × Nat :=
  let xs := (List.range t.n).map fun n =>
    if isIntPair t.aFmt then (Raw.int (d.intElem t e m n (cin n)), 0)
    else let r := d.fpElem t e m n (cin n); (Raw.fp r.1, r.2)
  (xs.map (·.1), xs.foldl (fun a x => a ||| x.2) 0)

/-- What a tile gives: writes (address, bytes), flags, SAT_COUNT's part. -/
structure TileOut where
  writes : List (Nat × List Byte) := []
  flags : Nat := 0
  sats : Nat := 0
  deriving Inhabited

/-- Why a tile is not written. -/
inductive TileFail where
  | operandFormat
  | windowDesc
  | decode (a : Nat)
  | poison (a : Nat)
  deriving DecidableEq, Repr

/-- The seed, step and ARITH_CTRL a task runs with. -/
structure TaskEnv where
  part : Nat
  sp : Nat
  seed : Nat
  step : Nat
  arith : Nat
  deriving DecidableEq, Repr

/-- Read ranges in order, up to the first that is out of reach or uncorrectable (06 R204; 04 R154; 07 R242). -/
def State.readRanges (s : State) (r : Requester) (sp : Nat) : List (Nat × Nat) → State × Option TileFail
  | [] => (s, none)
  | (a, n) :: t =>
    if n = 0 then s.readRanges r sp t
    else if !s.allowed r a n false then (s, some (.decode a))
    else
      let s := s.fetch (s.origin r) (resolve sp a) n []
      if s.anyBad (resolve sp a) n then (s, some (.poison a)) else s.readRanges r sp t

/-- What a matrix tile whose operands have been read gives (02): a failure, or what it writes. -/
def State.runMat (s : State) (e : TaskEnv) (t : MatTile) (errs : Errs) : TileFail ⊕ TileOut :=
  let d := s.tileData e.sp t
  if d.badNibble t then .inl .operandFormat
  else
    let rows := (List.range t.m).map fun m =>
      let cin (n : Nat) : Option W32 := t.cin.map fun c =>
        BitVec.ofNat 32 (leNat (s.rd (resolve e.sp (c + m * t.cinPitch + 4 * n)) 4))
      let raw := d.rawRow t errs m cin
      let o := convertRow t.outFmt e.arith t.quant (fun i => generator e.seed e.step t.tensor (t.idx0 + m * t.idxPitch + i)) raw.1
      (m, o, raw.2)
    .inr { writes := rows.flatMap fun r =>
             (t.out + r.1 * t.outPitch, packRow t.outFmt r.2.1.codes) ::
               if r.2.1.scales.isEmpty then []
               else [(t.outScale + r.1 * t.outScalePitch, r.2.1.scales.map (BitVec.ofNat 8))]
           flags := rows.foldl (fun a r => a ||| r.2.1.flags ||| r.2.2) 0
           sats := (rows.map fun r => r.2.1.sats).sum }

end Sys2Proof.Machine
end

