-- ==== Sys2Proof/Machine/Window.lean ====
section
/-! DEFINITION. Sliding-window tasks (03 R90 to R96): what taps feed, the K order, pooling. -/

namespace Sys2Proof.Machine

/-- The code of an input element. -/
def State.elemAt (s : State) (t : Tensor) (c y x : Nat) : Nat :=
  let b := fmtBits t.fmt
  let first := if b = 6 then 3 * (x / 4) else x * b / 8
  let len := if b = 6 then 3 else max 1 (b / 8)
  leNat (s.rd (t.rowDa c y + first) len) / 2 ^ (if b = 4 then 4 * (x % 2) else if b = 6 then 6 * (x % 4) else 0) % 2 ^ b

/-- The value a tap feeds for channel `c`, when it is present (03 R90, R92). -/
def State.tapValue (s : State) (w : Win) (t : Tensor) (c : Nat) : Tap → Option FV
  | .absent => none
  | .const => some (decodeFmt t.fmt (padValue t.fmt w.padConst))
  | .at_ y x => some (decodeFmt t.fmt (s.elemAt t c y x))

/-- The metadata nibble of group `g` of column `j` (02 R51). -/
def State.winNibble (s : State) (t : WinTile) (j g : Nat) : Nat := (s.byte (t.metaDa + j * t.metaPitch + g / 2)).toNat / 16 ^ (g % 2) % 16

/-- Where position `k` of the K order of 03 R92 or R93 stands in the stored column `j`, for output channel `oc0 + j`: under 2:4 sparsity
only two positions of a group of four are present (02 R51, R52). -/
def State.stored (s : State) (t : WinTile) (j k : Nat) : Option Nat :=
  if t.sparse then
    let nib := s.winNibble t j (k / 4)
    if k % 4 = nib % 4 then some (2 * (k / 4)) else if k % 4 = nib / 4 then some (2 * (k / 4) + 1) else none
  else some k

/-- The weight at position `k` of column `j`, where it is present. -/
def State.weight (s : State) (t : WinTile) (j k : Nat) : Option FV :=
  (s.stored t j k).map fun i =>
    decodeFmt t.wFmt (elemCode (s.rd (t.w + j * t.wPitch + rowBytes t.wFmt (i / 4 * 4)) 16) t.wFmt (i % 4))

/-- The block sums of one output element of a convolution or depthwise task, with the scale bytes of each block (03 R92,
R93). -/
def State.winBlocks (s : State) (t : WinTile) (w : Win) (i o : Tensor) (oc oy ox : Nat) (e : Errs) (mrow : Nat) :
    List (BlockSum × Nat × Nat) :=
  let j := oc - t.oc0
  let wsc (b : Nat) : Nat := if fmtMx t.wFmt then (s.byte (t.wScale + j * t.wScalePitch + b)).toNat else 127
  let tap (n : Nat) : Tap := tapOf w i.h i.w oy ox (n / w.kw) (n % w.kw)
  let run (b : Nat) (ks : List (Nat × FV)) (sa : Nat) : BlockSum × Nat × Nat :=
    let ks := ks.filterMap fun k => (s.weight t j k.1).map fun v => (k.2, v)
    let sum := ks.foldl (fun x (k : FV × FV) => x.step i.fmt t.wFmt k.1 k.2) ({ acc := errAt e mrow j b } : BlockSum)
    let bad := !ks.isEmpty && (decide (sa = 0xFF) || decide (wsc b = 0xFF))
    (if bad then { sum with nan := true } else sum, sa, wsc b)
  if w.op = 1 then
    (List.range (ceilDiv (w.kh * w.kw) 32)).map fun b =>
      run b ((List.range 32).filterMap fun r =>
        let n := 32 * b + r
        if n < w.kh * w.kw then (s.tapValue w i (oc / w.mult) (tap n)).map fun v => (n, v) else none) 127
  else
    let cg := i.c / w.groups
    let cb := ceilDiv cg 32
    let g := oc / (o.c / w.groups)
    (List.range (w.kh * w.kw * cb)).map fun b =>
      let n := b / cb
      let tp := tap n
      let ks := (List.range 32).filterMap fun r =>
        let c := b % cb * 32 + r
        if c < cg then (s.tapValue w i (g * cg + c) tp).map fun v => (n * (32 * cb) + c, v) else none
      let sa := match tp with
        | .at_ y x => if fmtMx i.fmt then (s.byte (i.scaleDa (g * cg / 32 + b % cb) y x)).toNat else 127
        | _ => 127
      run b ks sa

/-- FP32 of 1 / d, rounded to nearest-even (03 R95). -/
def recipOf (d : Nat) : W32 :=
  let n := 2 ^ 80 / d
  f32 (.fin false (2 * n + if 2 ^ 80 % d = 0 then 0 else 1) (-81))

/-- The greater of two values by the rules of 03 R95. -/
def FV.max2 (a b : FV) : FV :=
  if a = .nan ∨ b = .nan then .nan
  else if a.le b && b.le a then (match a with
    | .fin true _ _ => b
    | _ => a)
  else if a.le b then b else a

/-- One pooled element: its result, exact; for a maximum, its value; the flags of an average's sum (03 R95). -/
def State.pool (s : State) (w : Win) (i : Tensor) (c oy ox : Nat) : Raw × FV × Nat :=
  let taps := (List.range (w.kh * w.kw)).map fun n => tapOf w i.h i.w oy ox (n / w.kw) (n % w.kw)
  let asInt (v : FV) : Int := match v with
    | .fin neg m e => unitsAt 0 neg m e
    | _ => 0
  match taps.filterMap fun t => s.tapValue w i c t with
  | [] => (.zero, .fin false 0 0, 0)
  | v :: vs =>
    if w.op = 2 then
      let m := vs.foldl FV.max2 v
      (if fmtInt i.fmt then .int (asInt m) else .fp (f32 m), m, 0)
    else if fmtInt i.fmt then (.int (((v :: vs).map asInt).sum), .fin false 0 0, 0)
    else
      let d := if w.mode = 0 ∧ ¬ w.inclPad then vs.length + 1 else w.kh * w.kw
      let sum := vs.foldl (fun a x => addFlag a (f32 x, 0)) (f32 v, 0)
      (.fp (fmul sum.1 (recipOf d)), .fin false 0 0, sum.2)

/-- Encode a value that is one of a format's own (03 R95: maximum in the input format). -/
def encodeSame (f : Fmt) (v : FV) : Nat :=
  match layoutOf f, v with
  | some l, v => (toFloat l false none v).code
  | none, .fin neg m e => ofSigned (fmtBits f) (unitsAt 0 neg m e)
  | none, _ => 0

/-- An integer pool's exact sum or maximum is requantised for every integer output, INT32 too (03 R95). -/
def poolRaw (f : Fmt) (q : Quant) : Raw → Raw
  | .int v => .int (if f = .int32 then shiftRne ((v + q.bias) * q.mult) q.shift + q.zero else v)
  | r => r

/-- Positions of a tile. -/
def winPositions (t : WinTile) (o : Tensor) : List (Nat × Nat) :=
  (List.range t.npos).map fun n => ((t.pos0 + n) / o.w, (t.pos0 + n) % o.w)

/-- Results of one position over the tile's channels, converted (03 R95, 02 R61 to R66). A C_in holds a 4-byte word for each element
of the tile, position by position and within one channel by channel; the manual does not lay it out (log 123). -/
def State.winPos (s : State) (e : TaskEnv) (t : WinTile) (w : Win) (i o : Tensor) (errs : Errs) (n : Nat) (oy ox : Nat) :
    OutRow × Nat :=
  let chans := (List.range t.noc).map fun j => t.oc0 + j
  let sr (j : Nat) := generator e.seed e.step t.tensor (((t.oc0 + j) * o.h + oy) * o.w + ox)
  if 2 ≤ w.op then
    let xs := chans.map fun c => s.pool w i c oy ox
    let flags := xs.foldl (fun a x => a ||| x.2.2) 0
    if w.op = 2 ∧ o.fmt = i.fmt then
      ({ codes := xs.map fun x => encodeSame o.fmt x.2.1
         flags := if xs.any fun x => decide (x.2.1 = .nan) then fNanOut else 0 }, flags)
    else (convertRow o.fmt e.arith t.quant sr ((List.range t.noc).map fun j => poolRaw o.fmt (quantAt t.quant j) ((xs.map (·.1)).getD j .zero)), flags)
  else
    let xs := chans.map fun oc =>
      let cin : Option W32 := t.cin.map fun c => BitVec.ofNat 32 (s.rdNat (c + 4 * (n * t.noc + (oc - t.oc0))) 4)
      let bl := s.winBlocks t w i o oc oy ox errs n
      if isIntPair i.fmt then
        (Raw.int ((bl.map fun b => b.1.acc).sum + match cin with
          | some c => c.toInt
          | none => 0), 0)
      else
        let r := joinBlocks (bl.map fun b => b.1.value i.fmt t.wFmt b.2.1 b.2.2) cin
        (Raw.fp r.1, r.2)
    (convertRow o.fmt e.arith t.quant sr (xs.map (·.1)), xs.foldl (fun a x => a ||| x.2) 0)

/-- The write of one element of a planar tensor, merging what else its bytes hold (02 R49, 03 R85). -/
def State.elemWrite (s : State) (t : Tensor) (c y x code : Nat) : Nat × List Byte :=
  let b := fmtBits t.fmt
  let first := if b = 6 then 3 * (x / 4) else x * b / 8
  let len := if b = 6 then 3 else max 1 (b / 8)
  let sh := if b = 4 then 4 * (x % 2) else if b = 6 then 6 * (x % 4) else 0
  let a := t.rowDa c y + first
  let old := s.rdNat a len
  let keep := old - old / 2 ^ sh % 2 ^ b * 2 ^ sh
  (a, leBytes len (keep + code % 2 ^ b * 2 ^ sh))

/-- Positions of a column of weights: the K range of the task (03 R92, R93). -/
def winK (w : Win) (i : Tensor) : Nat :=
  if w.op = 1 then w.kh * w.kw else w.kh * w.kw * (32 * ceilDiv (i.c / max 1 w.groups) 32)

/-- The input channels that feed output channel `oc` (03 R92, R93, R95). -/
def winChans (w : Win) (i o : Tensor) (oc : Nat) : List Nat :=
  match w.op with
  | 0 => (List.range (i.c / w.groups)).map fun c => oc / (o.c / w.groups) * (i.c / w.groups) + c
  | 1 => [oc / w.mult]
  | _ => [oc]

/-- Some tap of some position of the tile reads column `x` of row `y`. -/
def tapped (w : Win) (i : Tensor) (ps : List (Nat × Nat)) (y x : Nat) : Bool :=
  ps.any fun p => (List.range (w.kh * w.kw)).any fun n => decide (tapOf w i.h i.w p.1 p.2 (n / w.kw) (n % w.kw) = .at_ y x)

/-- Join ranges that touch the one before. -/
def joinRanges : List (Nat × Nat) → List (Nat × Nat) → List (Nat × Nat)
  | acc, [] => acc.reverse
  | (a, n) :: acc, (b, m) :: t =>
    if a ≤ b ∧ b ≤ a + n then joinRanges ((a, max n (b + m - a)) :: acc) t else joinRanges ((b, m) :: (a, n) :: acc) t
  | [], r :: t => joinRanges [r] t

/-- Ranges a window tile reads: the elements its taps read, row by row, with their scale bytes; weights, metadata, scales, C_in. Nothing
else of the input tensor is read (03 R91, R96). -/
def winReads (t : WinTile) (w : Win) (i o : Tensor) : List (Nat × Nat) :=
  let ps := winPositions t o
  let chans := ((List.range t.noc).flatMap fun j => winChans w i o (t.oc0 + j)).dedup
  let rows := (List.range i.h).map fun y => (y, (List.range i.w).filter (tapped w i ps y))
  let b := fmtBits i.fmt
  let elem (x : Nat) : Nat × Nat := if b = 6 then (3 * (x / 4), 3) else (x * b / 8, max 1 (b / 8))
  let k := winK w i
  (chans.flatMap fun c => rows.flatMap fun r =>
      joinRanges [] (r.2.map fun x => (i.rowDa c r.1 + (elem x).1, (elem x).2))) ++
    (if fmtMx i.fmt then (chans.map (· / 32)).dedup.flatMap fun j => rows.flatMap fun r =>
      joinRanges [] (r.2.map fun x => (i.scaleDa j r.1 x, 1)) else []) ++
    (if w.op ≤ 1 then
      (List.range t.noc).map (fun j => (t.w + j * t.wPitch, rowBytes t.wFmt (if t.sparse then (k + 3) / 4 * 2 else k))) ++
      (if t.sparse then (List.range t.noc).map fun j => (t.metaDa + j * t.metaPitch, ((k + 3) / 4 + 1) / 2) else []) ++
      (if fmtMx t.wFmt then (List.range t.noc).map fun j => (t.wScale + j * t.wScalePitch, ceilDiv k 32) else [])
    else []) ++
    match t.cin with
    | some c => [(c, 4 * t.npos * t.noc)]
    | none => []

/-- The same task with its own-Store offsets made device addresses. -/
def resolveWin (sp : Nat) (t : WinTile) : WinTile :=
  { t with w := resolve sp t.w, wScale := resolve sp t.wScale, metaDa := resolve sp t.metaDa, cin := t.cin.map (resolve sp) }

/-- The descriptors of a window tile, its tensors in their row rings (03 R84 to R87, R101). -/
def winDescs (t : WinTile) : Option (Tensor × Tensor × Win) :=
  match tensorOf t.inDesc, tensorOf t.outDesc, winOf t.winDesc with
  | some i, some o, some w => if winChecks w i o then some ({ i with ring := t.inRing }, { o with ring := t.outRing }, w) else none
  | _, _, _ => none

/-- The tile lies in its output tensor, and holds whole blocks of an MX output: blocks scale channels 32j to 32j + 31, the last those to
C − 1 (03 R85). No task has another tile (log 124). -/
def winFits (t : WinTile) (o : Tensor) : Bool :=
  decide (t.oc0 + t.noc ≤ o.c) && decide (t.pos0 + t.npos ≤ o.h * o.w) &&
    (!fmtMx o.fmt || (decide (t.oc0 % 32 = 0) && (decide (t.noc % 32 = 0) || decide (t.oc0 + t.noc = o.c))))

/-- Why a window tile is refused before it reads (02 R45; 03 R87). -/
def winRefused (t : WinTile) : Option TileFail :=
  match winDescs t with
  | none => some .windowDesc
  | some (i, o, w) =>
    if (w.op ≤ 1 ∧ !pairingOk i.fmt t.wFmt t.sparse) ∨ !winFits t o then some .operandFormat else none

/-- Some metadata nibble of a window tile is invalid (02 R51). -/
def State.winBadNibble (s : State) (t : WinTile) (w : Win) (i : Tensor) : Bool :=
  t.sparse && decide (w.op ≤ 1) && (List.range t.noc).any fun j =>
    (List.range ((winK w i + 3) / 4)).any fun g => !nibbleOk (s.winNibble t j g)

/-- Join writes that touch or overlap the one before; a later byte replaces an earlier. -/
def joinWrites : List (Nat × List Byte) → List (Nat × List Byte) → List (Nat × List Byte)
  | acc, [] => acc.reverse
  | (a, x) :: acc, (b, y) :: t =>
    if a ≤ b ∧ b ≤ a + x.length then joinWrites ((a, x.take (b - a) ++ y ++ x.drop (b - a + y.length)) :: acc) t
    else joinWrites ((b, y) :: (a, x) :: acc) t
  | [], r :: t => joinWrites [r] t

/-- What a window tile whose operands have been read gives (03): a failure, or what it writes. Elements of one byte merge one after the
other, so writes are made into the state as they come. -/
def State.runWin (s : State) (e : TaskEnv) (t : WinTile) (errs : Errs) : TileFail ⊕ TileOut :=
  match winDescs t with
  | none => .inl .windowDesc
  | some (i, o, w) =>
    let t := resolveWin e.sp t
    if s.winBadNibble t w i then .inl .operandFormat
    else
      let ps := winPositions t o
      let res := (List.range ps.length).map fun n =>
        let p := ps.getD n (0, 0)
        (p, s.winPos e t w i o errs n p.1 p.2)
      let ws := ((List.range t.noc).foldl (fun (st : State × List (Nat × List Byte)) j =>
        res.foldl (fun (st : State × List (Nat × List Byte)) r =>
          let x := st.1.elemWrite o (t.oc0 + j) r.1.1 r.1.2 (r.2.1.codes.getD j 0)
          (st.1.wr x.1 x.2, x :: st.2)) st) (s, [])).2
      let scales := (List.range (if fmtMx o.fmt then ceilDiv t.noc 32 else 0)).flatMap fun b => res.map fun r =>
        (o.scaleDa (t.oc0 / 32 + b) r.1.1 r.1.2, [BitVec.ofNat 8 (r.2.1.scales.getD b 0)])
      .inr { writes := joinWrites [] (ws.reverse ++ scales)
             flags := res.foldl (fun a r => a ||| r.2.1.flags ||| r.2.2) 0
             sats := (res.map fun r => r.2.1.sats).sum }

end Sys2Proof.Machine
end

