-- ==== Sys2Proof/Machine/Vector.lean ====
section
/-! DEFINITION. The vector unit's work (02 R70 to R74; 04 R152, R153; 08 R287, R288; 09 R333, R334), how a tile is
checked, held, recomputed and written (02 R75 to R79), and sums across Spires and atomic operations (08 R279 to
R282). -/

namespace Sys2Proof.Machine

/-! ### Reductions -/

/-- Elements `j, j + 256, …` of a row combined in ascending order (02 R72). -/
def laneSum (xs : List W32) (j : Nat) : W32 × Nat :=
  match (List.range (ceilDiv (xs.length - j) 256)).map fun i => xs.getD (j + 256 * i) 0 with
  | [] => (0, 0)
  | v :: t => t.foldl (fun a x => addFlag a (x, 0)) (v, 0)

/-- One level of the tree: position `2 i` on the left of `2 i + 1` (02 R72). -/
def treeLevel : List (W32 × Nat) → List (W32 × Nat)
  | a :: b :: t => addFlag a b :: treeLevel t
  | t => t

/-- Levels of a tree. -/
def treeLevels : Nat → List (W32 × Nat) → List (W32 × Nat)
  | 0, xs => xs
  | n + 1, xs => treeLevels n (treeLevel xs)

/-- The fixed-order sum of a row (02 R72), with FP_OVF. -/
def treeSum (xs : List W32) : W32 × Nat := (treeLevels 8 ((List.range 256).map (laneSum xs))).getD 0 (0, 0)

/-- The maximum of a row (02 R73). -/
def rowMax : List W32 → W32
  | [] => nInf
  | v :: t => t.foldl fmax (fmax v v)

/-- NAN_OUT of words written (02 R68). -/
def nanFlag (ws : List W32) : Nat := if ws.any fun w => decide (ofF32 w = .nan) then fNanOut else 0

/-- FP32 words as bytes. -/
def wordBytes (ws : List W32) : List Byte := ws.flatMap fun w => leBytes 4 w.toNat

/-! ### Vector operations -/

/-- FP32 words of a task's address. -/
def State.rdWords (s : State) (sp a n : Nat) : List W32 :=
  (List.range n).map fun i => BitVec.ofNat 32 (s.rdNat (resolve sp a + 4 * i) 4)

/-- Ranges a piece of vector work reads. -/
def vecReads : VecOp → List (Nat × Nat)
  | .map _ src _ n => [(src, 4 * n)]
  | .fma a b c _ n => [(a, 4 * n), (b, 4 * n), (c, 4 * n)]
  | .sum src _ n => [(src, 4 * n)]
  | .softmax src _ n _ => [(src, 4 * n)]
  | .layerNorm src _ n g b _ _ => [(src, 4 * n), (g, 4 * n), (b, 4 * n)]
  | .rmsNorm src _ n g _ _ => [(src, 4 * n), (g, 4 * n)]
  | .convert src f sc _ _ _ n _ _ _ => (src, rowBytes f n) :: if fmtMx f then [(sc, ceilDiv n 32)] else []
  | .uniform _ _ _ _ => []
  | .keep _ _ _ _ _ => []
  | .backward sc st d o dp _ n w => [(sc, 4 * n), (st, 8), (d, 4 * w), (o, 4 * w), (dp, 4 * n)]

/-- One write of FP32 words. -/
def outWords (dst : Nat) (ws : List W32) (flags : Nat) : TileOut :=
  { writes := [(dst, wordBytes ws)], flags := flags ||| nanFlag ws }

/-- Softmax of a row with its two statistics (02 R73). -/
def softmaxRow (x : List W32) : List W32 × W32 × W32 × Nat :=
  let mx := rowMax x
  if mx = nInf then (x.map fun _ => 0, mx, nInf, 0)
  else
    let e := x.map fun v => vecFn .exp (fsub v mx)
    let s := treeSum e
    let q := vecFn .recip s.1
    (e.map fun v => fmul v q, mx, fadd mx (vecFn .log s.1), s.2)

/-- Layer normalisation (02 R74). -/
def layerNormRow (x g b : List W32) (recipN eps : W32) : List W32 × Nat :=
  let sum := treeSum x
  let mean := fmul sum.1 recipN
  let d := x.map fun v => fsub v mean
  let sq := treeSum (d.map fun v => fmul v v)
  let rs := vecFn .rsqrt (fadd (fmul sq.1 recipN) eps)
  ((List.range x.length).map fun i => ffma (fmul (d.getD i 0) rs) (g.getD i 0) (b.getD i 0), sum.2 ||| sq.2)

/-- RMS normalisation (02 R74). -/
def rmsNormRow (x g : List W32) (recipN eps : W32) : List W32 × Nat :=
  let sq := treeSum (x.map fun v => fmul v v)
  let rs := vecFn .rsqrt (fadd (fmul sq.1 recipN) eps)
  ((List.range x.length).map fun i => fmul (fmul (x.getD i 0) rs) (g.getD i 0), sq.2)

/-- One query row of the attention backward pass (04 R153): `ds`, then the recomputed probabilities. -/
def backwardRow (sc : List W32) (mx lse : W32) (dO o dp : List W32) : List W32 × List W32 × Nat :=
  let p := if mx = nInf then sc.map fun _ => 0
    else
      let dl := fsub lse mx
      sc.map fun v => vecFn .exp (fsub (fsub v mx) dl)
  let dd := treeSum ((List.range dO.length).map fun i => fmul (dO.getD i 0) (o.getD i 0))
  ((List.range sc.length).map fun i => fmul (p.getD i 0) (fsub (dp.getD i 0) dd.1), p, dd.2)

/-- Elements of a format widened to FP32 (02, "The vector unit"). -/
def widen (f : Fmt) (row scales : List Byte) (n : Nat) : List W32 :=
  (List.range n).map fun i =>
    let sc := (scales.getD (i / 32) 127).toNat
    if fmtMx f ∧ sc = 0xFF then qNaN
    else match decodeFmt f (elemCode row f i) with
      | .fin neg m e => f32 (.fin neg m (if fmtMx f then e + sc - 127 else e))
      | v => f32 v

/-- The formats the vector unit widens on input. Of a conversion from an integer format the manual says nothing: the model ends it with an
operand-format fault (log 34). -/
def vecInput (f : Fmt) : Bool := !(decide (f = .int8) || decide (f = .int4) || decide (f = .int32))

/-- What a piece of vector work whose operands have been read writes. -/
def State.runVec (s : State) (e : TaskEnv) (v : VecOp) : TileOut :=
  let rd := s.rdWords e.sp
  match v with
  | .map f src dst n => (outWords dst ((rd src n).map (vecFn f)) 0)
  | .fma a b c dst n =>
    let x := rd a n
    let y := rd b n
    let z := rd c n
    (outWords dst ((List.range n).map fun i => ffma (x.getD i 0) (y.getD i 0) (z.getD i 0)) 0)
  | .sum src dst n =>
    let r := treeSum (rd src n)
    (outWords dst [r.1] r.2)
  | .softmax src dst n stats =>
    let (y, mx, lse, fl) := softmaxRow (rd src n)
    let o := outWords dst y fl
    (match stats with
      | some a => { o with writes := o.writes ++ [(a, wordBytes [mx, lse])], flags := o.flags ||| nanFlag [mx, lse] }
      | none => o)
  | .layerNorm src dst n g b recipN eps =>
    let r := layerNormRow (rd src n) (rd g n) (rd b n) recipN eps
    (outWords dst r.1 r.2)
  | .rmsNorm src dst n g recipN eps =>
    let r := rmsNormRow (rd src n) (rd g n) recipN eps
    (outWords dst r.1 r.2)
  | .convert src f sc dst df dsc n tensor idx0 quant =>
    let x := widen f (s.rd (resolve e.sp src) (rowBytes f n)) (if fmtMx f then s.rd (resolve e.sp sc) (ceilDiv n 32) else []) n
    let o := convertRow df e.arith quant (fun i => generator e.seed e.step tensor (idx0 + i)) (x.map Raw.fp)
    { writes := (dst, packRow df o.codes) ::
        (if o.scales.isEmpty then [] else [(dsc, o.scales.map (BitVec.ofNat 8))])
      flags := o.flags, sats := o.sats }
  | .uniform dst n tensor idx0 =>
    (outWords dst ((List.range n).map fun i =>
      f32 (.fin false (generator e.seed e.step tensor (idx0 + i) / 256) (-24))) 0)
  | .keep dst n tensor idx0 thr =>
    { writes := [(dst, (List.range n).map fun i =>
      if generator e.seed e.step tensor (idx0 + i) < thr.toNat then 1 else 0)] }
  | .backward sc st d o dp dst n w =>
    let stw := rd st 2
    let (ds, p, fl) := backwardRow (rd sc n) (stw.getD 0 0) (stw.getD 1 0) (rd d w) (rd o w) (rd dp n)
    { writes := [(dst, wordBytes ds), (dst + 4 * n, wordBytes p)], flags := fl ||| nanFlag ds ||| nanFlag p }

/-! ### Compare and signature tasks (09 R333, R334) -/

/-- The absolute value of an FP32 word. -/
def fabs (x : W32) : W32 := x &&& 0x7FFFFFFF#32

/-- FP32 greater-than: false with a NaN. -/
def fgt (a b : W32) : Bool := decide (ofF32 a ≠ .nan) && decide (ofF32 b ≠ .nan) && !(ofF32 a).le (ofF32 b)

/-- An element is outside tolerance (09 R334). -/
def outsideTol (absTol relTol x y : W32) : Bool :=
  decide (ofF32 x = .nan) || decide (ofF32 y = .nan) || fgt (fabs (fsub x y)) (fadd absTol (fmul relTol (fabs x)))

/-! ### Running a tile -/

/-- The environment a Spire's task computes in: its partition, the image's SEED, the job's step value, its ARITH_CTRL. -/
def State.taskEnv (s : State) (sp j i : Nat) : TaskEnv :=
  let b := s.job j
  let seed := match tget none (s.part b.part).images b.image with
    | some x => x.facts.seed
    | none => 0
  { part := b.part, sp := sp, seed := seed, step := b.step, arith := (s.task j i).decl.arith }

/-- Why a tile is refused before it reads (02 R45, R70; 03 R87). -/
def opRefused : TileOp → Option TileFail
  | .mat t => if pairingOk t.aFmt t.bFmt t.sparse then none else some .operandFormat
  | .win t => winRefused t
  | .vec (.convert _ f _ _ _ _ _ _ _ _) => if vecInput f then none else some .operandFormat
  | _ => none

/-- Ranges a tile reads. -/
def opReads : TileOp → List (Nat × Nat)
  | .mat t => tileReads t
  | .win t => match winDescs t with
    | some (i, o, w) => winReads t w i o
    | none => []
  | .vec v => vecReads v
  | .compare x y n _ _ _ => [(x, 4 * n), (y, 4 * n)]
  | .signature rs _ => rs

/-- What a tile whose operands have been read gives: a failure, or what it writes. -/
def State.runTile (s : State) (e : TaskEnv) (op : TileOp) (errs : Errs) : TileFail ⊕ TileOut :=
  match op with
  | .mat t => s.runMat e t errs
  | .win t => s.runWin e t errs
  | .vec v => .inr (s.runVec e v)
  | .compare x y n a r dst =>
    let xs := s.rdWords e.sp x n
    let ys := s.rdWords e.sp y n
    .inr { writes := [(dst, leBytes 8 ((List.range n).filter fun i => outsideTol a r (xs.getD i 0) (ys.getD i 0)).length)] }
  | .signature rs dst => .inr { writes := [(dst, rs.flatMap fun r => leBytes 8 (crc64 (s.rd (resolve e.sp r.1) r.2)))] }

/-- The checks of a tile see its faults (02 R75 to R77). -/
def tileMismatch (op : TileOp) (f : TileFaults) : Bool :=
  f.dup || match op with
    | .mat t => errsSeen t f.errs
    | .win t => errsSeen { aFmt := .int8, bFmt := .int8, m := t.npos, n := t.noc, k := 32 * (f.errs.foldl (fun a x => max a (x.2.2.1 + 1)) 0)
                           a := 0, aPitch := 0, b := 0, bPitch := 0, out := 0, outPitch := 0, outFmt := .int32 } f.errs
    | _ => false

/-- A tile that cannot be computed: the Spire records why and its task ends with cause FAULT (02 R51, 03 R87, 07 R242, 01
R39); an uncorrectable word of its own Store quarantines it (02 R79). -/
def State.tileFail (s : State) (sp : Fin 64) (f : TileFail) : State :=
  let n : Note := { part := some (s.partOf sp.val), source := some sp.val }
  match f with
  | .operandFormat => (s.record sp.val 12 lvTask n).failSpire sp.val sp.val 12
  | .windowDesc => (s.record sp.val 13 lvTask n).failSpire sp.val sp.val 13
  | .decode a => s.decodeFault (.spire sp) a
  | .poison a => s.poisoned (.spire sp) a

/-- Account a tile in its task's ARITH_STATUS, an element once over a rerun (02 R68, R69). -/
def TaskSt.tile (t : TaskSt) (o : TileOut) (retried : Bool) : TaskSt :=
  let sats := if t.tiles < t.counted then 0 else o.sats
  { t with
    arith := arithMerge t.arith (BitVec.ofNat 32 (min 0xFFFF sats * 2 ^ 16 + (if retried then 256 else 0) + o.flags))
    tiles := t.tiles + 1, counted := max t.counted (t.tiles + 1) }

/-- Write a tile's results (02 R75, R78) and account them; nothing is written when a write is out of reach, and nothing more once a write
has ended the task or stopped the Spire (02 R79; 07 R239). -/
def State.tileWrite (s : State) (sp : Fin 64) (j i : Nat) (o : TileOut) (retried : Bool) : State :=
  match o.writes.find? fun w => !s.allowed (.spire sp) w.1 w.2.length true with
  | some w => s.tileFail sp (.decode w.1)
  | none => o.writes.foldl (fun s (w : Nat × List Byte) => s.writeOp (.spire sp) w.1 w.2 []) (s.modTask j i fun t => t.tile o retried)

/-- Read a tile's operands and go on, unless the tile cannot be computed. -/
def State.tileRead (s : State) (sp : Fin 64) (op : TileOp) (go : State → State) : State :=
  match opRefused op with
  | some why => s.tileFail sp why
  | none => match s.readRanges (.spire sp) sp.val (opReads op) with
    | (s, some why) => s.tileFail sp why
    | (s, none) => go s

/-- Compute a tile from the operands read, and write it. -/
def State.tileDone (s : State) (sp : Fin 64) (j i : Nat) (op : TileOp) (f : TileFaults) (retried : Bool) : State :=
  match s.runTile (s.taskEnv sp.val j i) op f.errs with
  | .inl why => s.tileFail sp why
  | .inr o => s.tileWrite sp j i o retried

/-- TILE_COMPLETE (02 R75 to R79): the checks pass and the results are written, or the tile is held for its
recomputation; an uncorrectable error of its Store quarantines the Spire. An address generator mismatch is a tile's too (09
R308). A task that waits completes no tile (03 R98). -/
def execTileComplete (sp : Fin 64) (op : TileOp) (faults : TileFaults) (dt : Nat) (s : State) :
    Host.Outcome State Fault Refusal :=
  match s.running sp.val with
  | some (j, i) =>
    if (s.spire sp.val).retry.isSome ∨ (s.task j i).waitSince.isSome ∨ s.testing (.spire sp) then .next s
    else
      let s := (s.elapse dt).settle sp.val
      if faults.storeUe then .next ((s.record sp.val 6 lvTask {}).quarantine sp.val)
      else .next (s.tileRead sp op fun s =>
        if tileMismatch op faults || (s.spire sp.val).mismatch then
          s.modSpire sp.val fun x => { x with retry := some ⟨op, (s.task j i).charge⟩, mismatch := false }
        else s.tileDone sp j i op faults false)
  | none => .next s

/-- TILE_RETRY_DONE (02 R78, R79; 06 R222 RETRY_TIME): the recomputation passes and the fault is masked, or the Spire is quarantined; more
than 16 masked mismatches within 1 s quarantine it too. -/
def execTileRetryDone (sp : Fin 64) (faults : TileFaults) (dt : Nat) (s : State) : Host.Outcome State Fault Refusal :=
  match s.running sp.val, (s.spire sp.val).retry with
  | some (j, i), some h =>
    if s.testing (.spire sp) then .next s else
    let s := (s.elapse dt).settle sp.val
    if faults.storeUe then .next ((s.record sp.val 6 lvTask {}).quarantine sp.val)
    else if tileMismatch h.op faults || (s.spire sp.val).mismatch then .next (s.quarantine sp.val)
    else
      let now := s.clk.elapsed
      let s := s.modTask j i fun t => { t with retry := t.retry + (t.charge - h.charge) / 16 }
      let s := s.modSpire sp.val fun x => { x with
        retry := none, masked := now :: x.masked.filter fun t => decide (now < t + 1000000000) }
      let s := s.record sp.val 21 lvMasked { part := some (s.job j).part, source := some sp.val }
      let s := s.tileRead sp h.op fun s => s.tileDone sp j i h.op faults true
      if 16 < (s.spire sp.val).masked.length then .next (s.quarantine sp.val) else .next s
  | _, _ => .next s

/-! ### Sums across Spires and atomic operations -/

/-- The fixed tree of 08 R280 over a power of two of partials. -/
def reduceTree : Nat → List W32 → List W32
  | 0, xs => xs
  | n + 1, xs => reduceTree n (pairs xs)
where
  /-- One level. -/
  pairs : List W32 → List W32
    | a :: b :: t => fadd a b :: pairs t
    | t => t

/-- The result of 08 R280 for partials in the order of their numbers. -/
def detReduce (p : List W32) : W32 :=
  let lv := (findLow (fun l => decide (p.length ≤ 2 ^ l)) 64 0).getD 0
  (reduceTree lv (p ++ List.replicate (2 ^ lv - p.length) 0)).getD 0 0

/-- A task on a Spire that does not wait reads ranges, and goes on with what it read. -/
def State.taskReads (s : State) (sp : Fin 64) (rs : List (Nat × Nat)) (go : State → State) : State :=
  if !s.acts (.spire sp) then s
  else match s.readRanges (.spire sp) sp.val rs with
    | (s, some why) => s.tileFail sp why
    | (s, none) => go s

/-- DET_REDUCTION (08 R280): the reduction's task, on Spire `src.sp`, writes element `i` of the result from element `i` of every partial. -/
def execDetReduction (src : DetSource) (out n : Nat) (s : State) : Host.Outcome State Fault Refusal :=
  .next (s.taskReads src.sp (src.das.map fun a => (a, 4 * n)) fun s =>
    s.writeOp (.spire src.sp) out ((List.range n).flatMap fun i =>
      leBytes 4 (detReduce (src.das.map fun a => BitVec.ofNat 32 (s.rdNat (resolve src.sp.val a + 4 * i) 4))).toNat) [])

/-- ARRIVAL_ORDER_ADD (08 R278, R281): with DET_MODE clear, the task on Spire `sp` adds an arrival to the running sum, which starts as
+0. -/
def execArrivalOrderAdd (sp : Fin 64) (da : Nat) (v : W32) (s : State) : Host.Outcome State Fault Refusal :=
  if s.saf.det then .next s
  else .next (s.taskReads sp [(da, 4)] fun s =>
    s.writeOp (.spire sp) da (leBytes 4 (fadd (BitVec.ofNat 32 (s.rdNat (resolve sp.val da) 4)) v).toNat) [])

/-- The minimum under 08 R282: any NaN gives the canonical NaN, min(+0, −0) as log 13 says. -/
def atomicApply : AtomicOp → W32 → W32 → W32
  | .addI32, a, b => a + b
  | .minI32, a, b => if a.toInt ≤ b.toInt then a else b
  | .maxI32, a, b => if a.toInt ≤ b.toInt then b else a
  | .minF32, a, b => fmin a b
  | .maxF32, a, b => fmax a b
  | .addF32, a, b => fadd a b

/-- ATOMIC_OP (08 R281, R282): one word at a memory unit is read, combined and stored, unless it is uncorrectable; the FP32 addition
never runs with DET_MODE set. Outside memory units, in unit control space, there is none (log 125). -/
def execAtomicOp (req : Requester) (op : AtomicOp) (da : Nat) (v : W32) (s : State) : Host.Outcome State Fault Refusal :=
  if !s.acts req ∨ (op = .addF32 ∧ s.saf.det) then .next s
  else if !s.allowed req da 4 true ∨ s.kindRange da 4 = some .unit then .next (s.decodeFault req da)
  else if s.hostCut req da 4 then .next (s.memFault req da)
  else
    let a := reqDa req da
    let old : W32 := BitVec.ofNat 32 (s.rdNat a 4)
    let s := s.store (s.origin req) a (leBytes 4 (atomicApply op old v).toNat) []
    if (s.blocked a 4).isSome then .next (s.poisoned req da) else .next (s.answer (leBytes 4 old.toNat) false)

end Sys2Proof.Machine
end

