-- ==== Sys2Proof/Machine/World.lean ====
section
/-! DEFINITION. The world of the Planning Engines and the checker (05 R157 to R174), FP32 division and square root, and the
smoother (05 R187, R188). -/

namespace Sys2Proof.Machine

/-! ### FP32 division and square root (05 R188) -/

/-- FP32 division, one rounding. -/
def fdiv (a b : W32) : W32 :=
  match ofF32 a, ofF32 b with
  | .nan, _ => qNaN
  | _, .nan => qNaN
  | .inf _, .inf _ => qNaN
  | .inf sa, .fin sb _ _ => f32 (.inf (sa != sb))
  | .fin sa _ _, .inf sb => f32 (.fin (sa != sb) 0 0)
  | .fin sa ma ea, .fin sb mb eb =>
    if mb = 0 then (if ma = 0 then qNaN else f32 (.inf (sa != sb)))
    else
      let q := ma * 2 ^ 64 / mb
      f32 (.fin (sa != sb) (2 * q + if ma * 2 ^ 64 % mb = 0 then 0 else 1) (ea - eb - 65))

/-- FP32 square root, one rounding. -/
def fsqrt (a : W32) : W32 :=
  match ofF32 a with
  | .nan => qNaN
  | .inf true => qNaN
  | .inf false => pInf
  | .fin neg m e =>
    if m = 0 then a
    else if neg then qNaN
    else
      let (m, e) := if e % 2 = 0 then (m, e) else (2 * m, e - 1)
      let x := m * 2 ^ 64
      let r := isqrt 64 x
      f32 (.fin false (2 * r + if r * r = x then 0 else 1) (e / 2 - 33))

/-- A signed integer in units of `2 ^ e` as FP32. -/
def ffix (i : Int) (e : Int) : W32 := f32 (FV.ofInt i e)

/-! ### Records -/

/-- A signed field of a word. -/
def sfld (w : W64) (hi lo : Nat) : Int := toSigned (hi + 1 - lo) (bits w hi lo)

/-- Words of a record in memory. -/
def State.words (s : State) (da n : Nat) : List W64 := (List.range n).map fun i => BitVec.ofNat 64 (s.rdNat (da + 8 * i) 8)

/-- Fields of a primitive record (05 R159). -/
def primType (ws : List W64) : Nat := bits (ws.getD 0 0) 63 62
def primDyn (ws : List W64) : Bool := (ws.getD 0 0).getLsbD 61
def primSegs (ws : List W64) : Nat := bits (ws.getD 0 0) 60 58 + 1
def primMesh (ws : List W64) : Nat := bits (ws.getD 0 0) 53 48
def primTref (ws : List W64) : Nat := (ws.getD 4 0).toNat

/-- A primitive record and its segments are well formed (05 R159, R160). -/
def primOk (ws : List W64) : Bool :=
  let w (i : Nat) : W64 := ws.getD i 0
  let ty := primType ws
  let ext := [bits (w 3) 47 32, bits (w 3) 31 16, bits (w 3) 15 0]
  let starts := (List.range (primSegs ws)).map fun k => bits (w (9 + 2 * k)) 31 0
  decide (ty ≠ 3) && decide (bits (w 0) 57 54 = 0) && (primDyn ws || decide (bits (w 0) 60 58 = 0)) &&
    !(primDyn ws && decide (ty = 2)) && (decide (ty = 2) || decide (primMesh ws = 0)) &&
    (decide (ty ≠ 2) || decide (ext = [0, 0, 0])) && (decide (ty ≠ 1) || decide (ext.drop 1 = [0, 0])) &&
    decide (w 5 = 0) && decide (w 6 = 0) && decide (w 7 = 0) &&
    (!primDyn ws || (decide (starts.getD 0 1 = 0) &&
      (List.range (starts.length - 1)).all fun k => decide (starts.getD k 0 < starts.getD (k + 1) 0)))

/-- Words of the edit at a place, and its length in words (05 R164). -/
def State.edit (s : State) (da : Nat) : Edit × Nat :=
  let w : W64 := BitVec.ofNat 64 (s.rdNat da 8)
  let rsv := decide (bits w 31 17 = 0)
  let idx := bits w 45 32
  let gen := bits w 59 52
  let rec8 := s.words (da + 8) 8
  let n := if primDyn rec8 then 8 + 2 * primSegs rec8 else 8
  let ws := s.words (da + 8) n
  let tris := bits w 16 0
  if !rsv then (.bad, 1)
  else match bits w 63 60 with
    | 1 => (if primOk ws then .add ws else .bad, 1 + n)
    | 2 => (if primOk ws then .replace gen idx ws else .bad, 1 + n)
    | 3 => (.remove gen idx, 1)
    | 4 =>
      if 1 ≤ tris ∧ tris ≤ 65536 then
        let ts := (List.range tris).map fun i => s.words (da + 8 + 40 * i) 5
        (if ts.all fun t => decide (bits (t.getD 4 0) 31 0 = 0) then .meshDefine (bits w 51 46) ts else .bad, 1 + 5 * tris)
      else (.bad, 1)
    | 5 => (.meshDelete (bits w 51 46), 1)
    | 6 => (.clearAll, 1)
    | 7 =>
      let p : W64 := BitVec.ofNat 64 (s.rdNat (da + 8) 8)
      let hz := bits p 63 48
      let cl := bits p 3 0
      (if 100 ≤ hz ∧ hz ≤ 60000 ∧ 9 ≤ cl ∧ cl ≤ 15 ∧ bits p 47 4 = 0 then .setParams hz cl else .bad, 2)
    | _ => (.bad, 1)

/-- An edit list and its length in bytes (05 R164). -/
def State.edits (s : State) : Nat → Nat → List Edit × Nat
  | _, 0 => ([], 0)
  | da, n + 1 =>
    let (e, k) := s.edit da
    let (t, b) := s.edits (da + 8 * k) n
    (e :: t, 8 * k + b)

/-! ### Changing the world (05 R162 to R167) -/

/-- Slot `i` of a world. -/
def World.slot (w : World) (i : Nat) : PrimSlot := tget {} w.slots i

/-- The triangles of a mesh slot. -/
def World.mesh (w : World) (i : Nat) : List (List W64) := tget [] w.meshes i

/-- Triangles in use. -/
def World.tris (w : World) : Nat := (w.meshes.map fun m => m.2.length).sum

/-- Some version of some primitive places a mesh. -/
def World.meshUsed (w : World) (id : Nat) : Bool :=
  w.slots.any fun x => [x.2.cur, x.2.prior].any fun v => match v with
    | some p => decide (primType p.ws = 2) && decide (primMesh p.ws = id)
    | none => false

/-- The world holds no primitive. -/
def World.bare (w : World) : Bool := w.slots.all fun x => x.2.cur.isNone

/-- The lowest free slot (05 R162). -/
def World.free (w : World) : Option Nat := findLow (fun i => (w.slot i).cur.isNone) 16384 0

/-- Why an edit is refused at its place in a list (05 R165). -/
def World.refuses (w : World) : Edit → Option Nat
  | .add ws =>
    if primType ws = 2 ∧ w.mesh (primMesh ws) = [] then some stArg
    else if w.free.isNone then some stNoMemory else none
  | .replace g i ws =>
    if primType ws = 2 ∧ w.mesh (primMesh ws) = [] then some stArg
    else if (w.slot i).cur.isSome ∧ (w.slot i).gen = g then none else some stStale
  | .remove g i => if (w.slot i).cur.isSome ∧ (w.slot i).gen = g then none else some stStale
  | .meshDefine id ts =>
    if w.mesh id ≠ [] then some stArg else if 65536 < w.tris + ts.length then some stNoMemory else none
  | .meshDelete id => if w.mesh id = [] ∨ w.meshUsed id then some stArg else none
  | .clearAll => none
  | .setParams _ _ => if w.bare then none else some stArg
  | .bad => some stArg

/-- The later of two epochs. -/
def epochMax (a b : Nat) : Nat := if epochLt a b then b else a

/-- A log entry; the oldest of 256 is overwritten, and the log covers nothing before the latest epoch overwritten or marked (05
R166). -/
def World.logPut (w : World) (ep h : Nat) : World :=
  if w.log.length < 256 then { w with log := (ep, h) :: w.log }
  else { w with log := (ep, h) :: w.log.take 255, cover := epochMax w.cover (w.log.getD 255 (0, 0)).1 }

/-- An epoch lies in the interval a version held. -/
def Prim.holds (p : Prim) (e : Nat) : Bool := !epochLt e p.since && epochLt e p.until_

/-- A prior version is kept while a deterministic search that started before it was replaced runs (05 R167). -/
def Prim.kept (p : Prim) (searches : List Nat) : Bool := searches.any fun e => epochLt e p.until_

/-- Drop the prior versions that no running deterministic search keeps (05 R163, R167). -/
def World.prune (w : World) (searches : List Nat) : World :=
  { w with slots := w.slots.foldl (fun t x =>
      tput {} t x.1 { x.2 with prior := x.2.prior.filter fun p => p.kept searches }) [] }

/-- Make the current version of a slot its prior version while a deterministic search that started before `ep` runs (05
R167); also the start epochs that lose a version they need. -/
def World.retire (w : World) (ep : Nat) (searches : List Nat) (i : Nat) : PrimSlot × List Nat :=
  let x := w.slot i
  let lost := match x.prior with
    | some p => searches.filter p.holds
    | none => []
  let keep := searches.any fun e => epochLt e ep
  ({ x with cur := none, prior := if keep then x.cur.map fun c => { c with until_ := ep } else none }, lost)

/-- Apply an edit with the update's epoch, given the start epochs of the running deterministic searches; also those that now
lack a version. -/
def World.apply (w : World) (ep : Nat) (searches : List Nat) : Edit → World × List Nat
  | .add ws =>
    match w.free with
    | some i =>
      let x := w.slot i
      (({ w with slots := tput {} w.slots i { x with cur := some { ws := ws, since := ep } } }).logPut ep (x.gen * 16384 + i), [])
    | none => (w, [])
  | .replace _ i ws =>
    let (x, lost) := w.retire ep searches i
    (({ w with slots := tput {} w.slots i { x with cur := some { ws := ws, since := ep } } }).logPut ep (x.gen * 16384 + i), lost)
  | .remove _ i =>
    let (x, lost) := w.retire ep searches i
    ({ w with slots := tput {} w.slots i { x with gen := (x.gen + 1) % 256 } }, lost)
  | .meshDefine id ts => ({ w with meshes := tput [] w.meshes id ts }, [])
  | .meshDelete id => ({ w with meshes := tput [] w.meshes id [] }, [])
  | .clearAll =>
    ({ w with
      slots := w.slots.foldl (fun t (x : Nat × PrimSlot) =>
        tput {} t x.1 { gen := if x.2.cur.isSome then (x.2.gen + 1) % 256 else x.2.gen }) []
      cover := ep }, searches)
  | .setParams h c => ({ w with horizon := h, cell := c, cover := ep }, searches)
  | .bad => (w, [])

/-- Apply a whole list as one epoch (05 R165). -/
def World.update (w : World) (searches : List Nat) (es : List Edit) : World × List Nat :=
  let ep := (w.epoch + 1) % 2 ^ 32
  let r := es.foldl (fun (a : World × List Nat) e =>
    let b := a.1.apply ep searches e
    (b.1, a.2 ++ b.2)) (w, [])
  ({ r.1 with epoch := ep }, r.2)

/-- The first edit of a list that is refused: its index and status (05 R165), given the start epochs of the running deterministic
searches, whose prior versions count (R163). -/
def World.firstRefused (w : World) (searches : List Nat) : Nat → List Edit → Option (Nat × Nat)
  | _, [] => none
  | i, e :: t =>
    match w.refuses e with
    | some st => some (i, st)
    | none => (w.apply ((w.epoch + 1) % 2 ^ 32) searches e).1.firstRefused searches (i + 1) t

/-- The log covers `(v, e]` (05 R166). -/
def World.covers (w : World) (v : Nat) : Bool := !epochLt v w.cover

/-! ### The checker (05 R161, R168 to R173) -/

/-- Nearest integer of a quotient (ties to even). -/
def roundDiv (a : Int) (d : Nat) : Int :=
  let q := a / d
  let r := a % d
  if (d : Int) < 2 * r ∨ (2 * r = d ∧ q % 2 = 1) then q + 1 else q

/-- Three signed 32-bit coordinates. -/
def coords (a b : W64) : Vec := ⟨sfld a 63 32, sfld a 31 0, sfld b 63 32⟩

/-- Position of a primitive at T_REF. -/
def primPos (ws : List W64) : Vec := coords (ws.getD 1 0) (ws.getD 2 0)

/-- Velocity and start, in ns after T_REF, of a segment (05 R160). -/
def segVel (ws : List W64) (k : Nat) : Vec := coords (ws.getD (8 + 2 * k) 0) (ws.getD (9 + 2 * k) 0)
def segStart (ws : List W64) (k : Nat) : Nat := 1000 * bits (ws.getD (9 + 2 * k) 0) 31 0

/-- The displacement that the segments give in `dt` ns, in 10⁻⁹ units: segment `k` runs from its start to the next one's, the last
without end. -/
def moved (ws : List W64) (dt : Nat) : Vec :=
  let n := primSegs ws
  (List.range n).foldl (fun (a : Vec) k =>
    let hi := if k + 1 = n then dt else min dt (segStart ws (k + 1))
    a.add ((segVel ws k).scale ((hi - segStart ws k : Nat) : Int))) ⟨0, 0, 0⟩

/-- Where a primitive stands at a CTC time, and its inflation (05 R161). -/
def primAt (ws : List W64) (t : Nat) : Vec × Nat :=
  let dt := t - primTref ws
  if dt = 0 then (primPos ws, 0)
  else
    let d := if primDyn ws then moved ws dt else ⟨0, 0, 0⟩
    ((primPos ws).add ⟨roundDiv d.x 1000000000, roundDiv d.y 1000000000, roundDiv d.z 1000000000⟩,
      ceilDiv (bits (ws.getD 0 0) 31 16 * dt) 1000000000 + 1)

/-- What a check depends on besides poses and world: T_PLAN, CLEARANCE and the ego parts. -/
structure EgoShape where
  tPlan : Nat
  clearance : Nat
  parts : List (W64 × W64)
  deriving DecidableEq, Repr

/-- A pose's position, time and orientation (05 R168). -/
def poseXyz (p : List W64) : Vec := coords (p.getD 0 0) (p.getD 1 0)
def poseT (p : List W64) : Nat := bits (p.getD 2 0) 31 0
def poseYaw (p : List W64) : Int := sfld (p.getD 1 0) 31 16
def posePitch (p : List W64) : Int := sfld (p.getD 1 0) 15 0
def poseRoll (p : List W64) : Int := sfld (p.getD 2 0) 63 48
def poseRot (p : List W64) : Rot := Rot.of (poseYaw p) (posePitch p) (poseRoll p)

/-- Offset of an ego part in units, its extents in units, and its yaw in the ego frame (05 R169). -/
def partOff (p : W64 × W64) : Vec := ⟨4 * sfld p.2 63 48, 4 * sfld p.2 47 32, 4 * sfld p.2 31 16⟩
def partExt (p : W64 × W64) : Nat × Nat × Nat := (4 * bits p.1 47 32, 4 * bits p.1 31 16, 4 * bits p.1 15 0)
def partRot (p : W64 × W64) : Rot := Rot.of (sfld p.2 15 0) 0 0

/-- R_EGO of one part: the greatest distance of its points from the ego origin, rounded up (05 R169). -/
def partReach (p : W64 × W64) : Nat :=
  let (hx, hy, hz) := partExt p
  if bits p.1 63 62 = 1 then ceilSqrt (partOff p).sq.toNat + hx
  else
    (boxCorners ((partOff p).scale rotOne) (partRot p) hx hy hz).foldl (fun m v => max m (ceilDiv (ceilSqrt v.sq.toNat) (2 ^ 64))) 0

/-- R_EGO (05 R169). -/
def rEgo (s : EgoShape) : Nat := s.parts.foldl (fun m p => max m (partReach p)) 0

/-- Wrapped angle difference, absolute. -/
def angDiff (a b : Int) : Nat := (toSigned 16 (ofSigned 16 (a - b))).natAbs

/-- `d(i, j)` of 05 R170 in units of 2⁻⁶⁴, rounded up. -/
def stepLen (r : Nat) (a b : List W64) : Nat :=
  let ang := angDiff (poseYaw a) (poseYaw b) + angDiff (posePitch a) (posePitch b) + angDiff (poseRoll a) (poseRoll b)
  ceilSqrt (((poseXyz b).sub (poseXyz a)).sq.toNat * 2 ^ 128) + ceilDiv (r * ang * (rotPi.toNat + 1)) 32768

/-- `e_i` of 05 R170; a missing neighbour is the pose itself. -/
def growEgo (r : Nat) (prev cur next : List W64) : Nat := ceilDiv (max (stepLen r prev cur) (stepLen r cur next)) (2 ^ 65)

/-- `f_i` of 05 R170, for a dynamic primitive. -/
def growPrim (tPlan : Nat) (prev cur next : List W64) (ws : List W64) : Nat :=
  let at_ (p : List W64) : Vec := (primAt ws (tPlan + 1000 * poseT p)).1
  let d (a b : List W64) : Nat := ceilSqrt ((at_ b).sub (at_ a)).sq.toNat
  if primDyn ws then ceilDiv (max (d prev cur) (d cur next)) 2 else 0

/-- An ego part where a pose places it. -/
def partBody (pose : List W64) (p : W64 × W64) : Body :=
  let m := poseRot pose
  let c := ((poseXyz pose).scale rotOne).add (m.app (partOff p))
  let (hx, hy, hz) := partExt p
  if bits p.1 63 62 = 1 then sphereBody c hx else boxBody c (m.then_ (partRot p)) hx hy hz

/-- Vertex `k` of a triangle record (05 R163). -/
def triVertex (t : List W64) (k : Nat) : Vec :=
  let c (i : Nat) : Int := if i % 2 = 0 then sfld (t.getD (i / 2) 0) 63 32 else sfld (t.getD (i / 2) 0) 31 0
  ⟨c (3 * k), c (3 * k + 1), c (3 * k + 2)⟩

/-- The bodies of a primitive placed at a position: one, or the triangles of its mesh (05 R159, R170). -/
def primBodies (w : World) (ws : List W64) (p : Vec) : List Body :=
  let m := Rot.of (sfld (ws.getD 2 0) 31 16) (sfld (ws.getD 2 0) 15 0) (sfld (ws.getD 3 0) 63 48)
  let c := p.scale rotOne
  let x := ws.getD 3 0
  if primType ws = 2 then (w.mesh (primMesh ws)).map fun t =>
    let v (k : Nat) : Vec := c.add (m.app (triVertex t k))
    triBody (v 0) (v 1) (v 2)
  else if primType ws = 1 then [sphereBody c (4 * bits x 47 32)]
  else [boxBody c m (4 * bits x 47 32) (4 * bits x 31 16) (4 * bits x 15 0)]

/-- CLEAR of a primitive in units. -/
def primClear (ws : List W64) : Nat := 4 * bits (ws.getD 0 0) 15 0

/-- Pose `cur` of a sequence touches a primitive (05 R170, R171): some ego part, grown by `e_i` and CLEARANCE, and some body of the
primitive, grown by its inflation, `f_i` and CLEAR. -/
def touches (w : World) (s : EgoShape) (prev cur next : List W64) (ws : List W64) : Bool :=
  let (x, u) := primAt ws (s.tPlan + 1000 * poseT cur)
  let g := growEgo (rEgo s) prev cur next + 4 * s.clearance + u + growPrim s.tPlan prev cur next ws + primClear ws
  let bs := primBodies w ws x
  s.parts.any fun p => (List.range bs.length).any fun i =>
    touching g (partBody cur p) (bs.getD i default)
      (Config.touch ([s.tPlan, s.clearance, p.1.toNat, p.2.toNat, i] ++ (prev ++ cur ++ next ++ ws).map (·.toNat) ++
        if primType ws = 2 then ((w.mesh (primMesh ws)).getD i []).map (·.toNat) else []))

/-! ### The broad phase (05 R173) -/

/-- The legs of a primitive over its horizon: from T_REF to HORIZON_MS later (DEDUCED, log 52). -/
def primLegs (ws : List W64) (h : Nat) : List Leg :=
  if primDyn ws then
    let n := primSegs ws
    (List.range n).map fun k =>
      let lo := segStart ws k
      { from_ := lo, until_ := if k + 1 = n then h else min h (segStart ws (k + 1)), vel := segVel ws k
        at0 := (moved ws lo).sub ((segVel ws k).scale lo) }
  else [{ from_ := 0, until_ := 0, at0 := ⟨0, 0, 0⟩, vel := ⟨0, 0, 0⟩ }]

/-- The items of a primitive: its body or each triangle, its box grown by CLEAR and the inflation at the end of the horizon. -/
def primItems (w : World) (ws : List W64) : List Item :=
  let h := 1000000 * w.horizon
  let g := primClear ws + (primAt ws (primTref ws + h)).2
  (primBodies w ws (primPos ws)).map fun b => { box := b.bounds g, legs := primLegs ws h }

/-- The hits of a candidate (05 R173): triples of a pose, an ego part and an item that share a cell. -/
def hitCount (w : World) (prims : List (List W64)) (s : EgoShape) (ps : List (List W64)) : Nat :=
  let items := prims.flatMap (primItems w)
  let r := rEgo s
  ((List.range ps.length).map fun i =>
    let cur := ps.getD i []
    let g := growEgo r (ps.getD (i - 1) cur) cur (ps.getD (i + 1) cur) + 4 * s.clearance
    (s.parts.map fun p =>
      let e := (partBody cur p).bounds g
      (items.filter fun x => x.hits w.cell e).length).sum).sum

/-- The latest time a world describes: the earliest T_REF of a dynamic primitive plus the horizon (05 R172). -/
def horizonEnd (w : World) (prims : List (List W64)) : Option Nat :=
  ((prims.filter primDyn).map primTref).min?.map fun t => t + w.horizon * 1000000

/-- Pose `i` of a sequence is not free of some primitive, or lies beyond the horizon (05 R170, R172). -/
def poseHit (w : World) (prims : List (List W64)) (s : EgoShape) (ps : List (List W64)) (i : Nat) : Bool :=
  let cur := ps.getD i []
  let late := match horizonEnd w prims with
    | some t => decide (t < s.tPlan + 1000 * poseT cur)
    | none => false
  late || prims.any fun x => touches w s (ps.getD (i - 1) cur) cur (ps.getD (i + 1) cur) x

/-- A candidate's verdict (05 R170, R173): the first colliding pose, and whether it exceeded the hit limit, which counts as colliding
at its first pose without a narrow-phase test. -/
def checkCand (w : World) (prims : List (List W64)) (s : EgoShape) (ps : List (List W64)) : Option Nat × Bool :=
  if 16384 < hitCount w prims s ps then (some 0, true) else (findLow (poseHit w prims s ps) ps.length 0, false)

/-- Pieces of 64 poses, each anchored on the last pose of the piece before it (05, "Checking a candidate"). -/
def pieces (ps : List (List W64)) : List (List (List W64)) :=
  if ps.length ≤ 1 then [ps] else (List.range (ceilDiv (ps.length - 1) 64)).map fun k => (ps.drop (64 * k)).take 65

/-- A path's verdict, piece by piece: free, and whether a piece exceeded the hit limit. -/
def checkPath (w : World) (prims : List (List W64)) (s : EgoShape) (ps : List (List W64)) : Bool × Bool :=
  let r := (pieces ps).map (checkCand w prims s)
  (r.all fun x => x.1.isNone, r.any fun x => x.2)

/-- The primitives of the current world. -/
def World.now (w : World) : List (List W64) := w.slots.filterMap fun x => x.2.cur.map (·.ws)

/-- The primitives as of an epoch, through prior versions (05 R167, R184). -/
def World.asOf (w : World) (e : Nat) : List (List W64) :=
  w.slots.filterMap fun x => match x.2.cur with
    | some c => if !epochLt e c.since then some c.ws else (match x.2.prior with
      | some p => if p.holds e then some p.ws else none
      | none => none)
    | none => match x.2.prior with
      | some p => if p.holds e then some p.ws else none
      | none => none

/-- The primitives logged after an epoch, at their current versions (05 R190). -/
def World.since (w : World) (v : Nat) : List (List W64) :=
  (w.log.filter fun x => epochLt v x.1).filterMap fun x =>
    let sl := w.slot (x.2 % 16384)
    if sl.gen = x.2 / 16384 then sl.cur.map (·.ws) else none

/-! ### Smoothing and time-scaling (05 R187, R188) -/

/-- A pose with its position replaced. -/
def posePut (p : List W64) (q : Vec) : List W64 :=
  let w1 := (p.getD 1 0).toNat % 2 ^ 32
  [BitVec.ofNat 64 (ofSigned 32 q.x * 2 ^ 32 + ofSigned 32 q.y), BitVec.ofNat 64 (ofSigned 32 q.z * 2 ^ 32 + w1),
    p.getD 2 0, p.getD 3 0]

/-- A pose with its time replaced. -/
def poseTime (p : List W64) (t : Nat) : List W64 :=
  [p.getD 0 0, p.getD 1 0, BitVec.ofNat 64 ((p.getD 2 0).toNat / 2 ^ 32 * 2 ^ 32 + t % 2 ^ 32), p.getD 3 0]

/-- One smoothing pass of one axis; `p` holds the first positions (05 R187). -/
def smoothPass (dev : Int) (p q : List Int) : List Int :=
  (List.range q.length).map fun i =>
    if i = 0 ∨ i + 1 = q.length then q.getD i 0
    else
      let r := q.getD i 0 + (q.getD (i - 1) 0 + q.getD (i + 1) 0 - 2 * q.getD i 0) / 4
      max (p.getD i 0 - dev) (min (p.getD i 0 + dev) r)

/-- Eight passes of one axis. -/
def smoothAxis (dev : Int) (p : List Int) : List Int := (List.range 8).foldl (fun q _ => smoothPass dev p q) p

/-- The smoothing filter (05 R187). -/
def smooth (dev : Nat) (ps : List (List W64)) : List (List W64) :=
  let d : Int := ((4 * dev : Nat) : Int)
  let xs := smoothAxis d (ps.map fun p => (poseXyz p).x)
  let ys := smoothAxis d (ps.map fun p => (poseXyz p).y)
  let zs := smoothAxis d (ps.map fun p => (poseXyz p).z)
  (List.range ps.length).map fun i => posePut (ps.getD i []) ⟨xs.getD i 0, ys.getD i 0, zs.getD i 0⟩

/-- The limits of a request (05 R175), converted exactly. -/
structure Limits where
  vMax : W32
  aMax : W32
  dMax : W32
  jMax : W32
  aLat : W32
  kMax : W32
  v0 : W32
  vEnd : W32
  deriving DecidableEq, Repr

/-- Distance of two poses in metres. -/
def poseDist (a b : List W64) : W32 :=
  let p := poseXyz a
  let q := poseXyz b
  let dx := ffix (q.x - p.x) (-10)
  let dy := ffix (q.y - p.y) (-10)
  let dz := ffix (q.z - p.z) (-10)
  fsqrt (fadd (fadd (fmul dx dx) (fmul dy dy)) (fmul dz dz))

/-- Curvature at a pose (05 R188). -/
def curvature (a b c : List W64) : W32 :=
  let p := poseXyz a
  let q := poseXyz b
  let r := poseXyz c
  let cross := fsub (fmul (ffix (q.x - p.x) (-10)) (ffix (r.y - q.y) (-10))) (fmul (ffix (q.y - p.y) (-10)) (ffix (r.x - q.x) (-10)))
  fdiv (fmul 0x40000000#32 (fabs cross)) (fmul (fmul (poseDist a b) (poseDist b c)) (poseDist a c))

/-- The lesser of two FP32 values that are not NaN. -/
def fless (a b : W32) : W32 := if fgt a b then b else a

/-- The forward pass (05 R188); `prev` are the speeds already set. -/
def forward (l : Limits) (s vl : List W32) (prev : Option (List W32)) : Nat → Nat → W32 → List W32
  | _, 0, _ => []
  | i, n + 1, v =>
    let reach := fsqrt (fadd (fmul v v) (fmul (fmul 0x40000000#32 l.aMax) (s.getD i 0)))
    let cap := match prev with
      | some p => fless (vl.getD (i + 1) 0) (p.getD (i + 1) 0)
      | none => vl.getD (i + 1) 0
    let v' := fless cap reach
    v' :: forward l s vl prev (i + 1) n v'

/-- The backward pass from the last speed (05 R188). -/
def backward (l : Limits) (s : List W32) : Nat → List W32 → List W32
  | _, [] => []
  | _, [v] => [v]
  | i, v :: t =>
    let t := backward l s (i + 1) t
    let n := t.getD 0 0
    fless v (fsqrt (fadd (fmul n n) (fmul (fmul 0x40000000#32 l.dMax) (s.getD i 0)))) :: t

/-- Lower the speeds where the jerk limit is broken, in order (05 R188); whether any was. -/
def jerkPass (l : Limits) (s : List W32) (n : Nat) (v : List W32) : List W32 × Bool :=
  (List.range (n - 2)).foldl (fun (a : List W32 × Bool) k =>
    let i := k + 1
    let x (j : Nat) := a.1.getD j 0
    let dt0 := fdiv (fmul 0x40000000#32 (s.getD (i - 1) 0)) (fadd (x (i - 1)) (x i))
    let dt1 := fdiv (fmul 0x40000000#32 (s.getD i 0)) (fadd (x i) (x (i + 1)))
    let jerk := fabs (fsub (fdiv (fsub (x (i + 1)) (x i)) dt1) (fdiv (fsub (x i) (x (i - 1))) dt0))
    if fgt jerk (fmul (fmul l.jMax 0x3F000000#32) (fadd dt0 dt1)) then (a.1.set i (fmul (x i) 0x3F700000#32), true) else a) (v, false)

/-- Rounds of the speed profile, at most 16; `none` where it fails (05 R188). -/
def profile (l : Limits) (s vl : List W32) (n : Nat) : Nat → Option (List W32) → Option (List W32)
  | 0, _ => none
  | fuel + 1, prev =>
    let v0 := match prev with
      | some p => p.getD 0 l.v0
      | none => l.v0
    let f := v0 :: forward l s vl prev 0 (n - 1) v0
    let f := f.set (n - 1) (fless (f.getD (n - 1) 0) l.vEnd)
    let b := backward l s 0 f
    if fgt l.v0 (b.getD 0 0) ∨ (List.range (n - 1)).any (fun i => decide (fadd (b.getD i 0) (b.getD (i + 1) 0) &&& 0x7FFFFFFF#32 = 0))
    then none
    else
      let (v, jerk) := jerkPass l s n b
      if jerk then profile l s vl n fuel (some v) else some v

/-- The least integer not below an FP32 value; 0 where it is not a positive number. -/
def fceil (x : W32) : Nat :=
  match ofF32 x with
  | .fin false m e => if 0 ≤ e then m * 2 ^ e.toNat else ceilDiv m (2 ^ (-e).toNat)
  | _ => 0

/-- Time-scaling of a path (05 R188): the poses with their times, or `none` where it fails. -/
def timeScale (l : Limits) (ps : List (List W64)) : Option (List (List W64)) :=
  let n := ps.length
  let p (i : Nat) := ps.getD i []
  let s := (List.range (n - 1)).map fun i => poseDist (p i) (p (i + 1))
  let k := (List.range n).map fun i => if i = 0 ∨ i + 1 = n then 0 else curvature (p (i - 1)) (p i) (p (i + 1))
  let vl := k.map fun x => if fgt x 0 then fless l.vMax (fsqrt (fdiv l.aLat x)) else l.vMax
  if s.any (fun x => decide (x = 0)) ∨ k.any (fun x => fgt x l.kMax) ∨ fgt l.v0 (vl.getD 0 0) then none
  else (profile l s vl n 16 none).map fun v =>
    let ts := (List.range (n - 1)).foldl (fun (a : List Nat × Nat) i =>
      let dt := fceil (fdiv (fmul 0x49F42400#32 (s.getD i 0)) (fadd (v.getD i 0) (v.getD (i + 1) 0)))
      (a.1 ++ [a.2 + dt], a.2 + dt)) ([poseT (p 0)], poseT (p 0))
    (List.range n).map fun i => poseTime (p i) (ts.1.getD i 0)

end Sys2Proof.Machine
end

