-- ==== Sys2Proof/Machine/Plan.lean ====
section
/-! DEFINITION. Plan requests, search and publication of the Planning Engines (05 R156, R157, R175 to R199). -/

namespace Sys2Proof.Machine

/-- Planning Engine `e`. -/
def State.eng (s : State) (e : Nat) : Engine := tget {} s.plan.eng e

/-- Change an engine. -/
def State.modEng (s : State) (e : Nat) (f : Engine → Engine) : State :=
  { s with plan := { s.plan with eng := tmod {} s.plan.eng e f } }

/-- Change the search an engine runs. -/
def State.modSearch (s : State) (e : Nat) (f : Search → Search) : State :=
  s.modEng e fun x => { x with cur := x.cur.map f }

/-- An engine is out of service (05 R199). -/
def State.engOut (s : State) (e : Nat) : Bool := tget false s.saf.engineOut e

/-! ### PLAN_DESC (05 R175) -/

/-- A word of a request. -/
def PlanReq.w (r : PlanReq) (i : Nat) : W64 := r.desc.getD i 0

def PlanReq.tPlan (r : PlanReq) : Nat := (r.w 0).toNat
def PlanReq.deadline (r : PlanReq) : Nat := (r.w 1).toNat
def PlanReq.budget (r : PlanReq) : Nat := bits (r.w 2) 63 32
def PlanReq.batchSize (r : PlanReq) : Nat := bits (r.w 2) 31 26 + 1
def PlanReq.maxChild (r : PlanReq) : Nat := bits (r.w 2) 25 22 + 1
def PlanReq.engine (r : PlanReq) : Nat := bits (r.w 2) 21 20
def PlanReq.isFree (r : PlanReq) : Bool := (r.w 2).getLsbD 19
def PlanReq.isDual (r : PlanReq) : Bool := (r.w 2).getLsbD 18
def PlanReq.smoothEn (r : PlanReq) : Bool := (r.w 2).getLsbD 17
def PlanReq.nEgo (r : PlanReq) : Nat := bits (r.w 2) 16 14 + 1
def PlanReq.rootDa (r : PlanReq) : Nat := bits (r.w 3) 51 0
def PlanReq.mrtDa (r : PlanReq) : Nat := bits (r.w 4) 51 0
def PlanReq.outDa (r : PlanReq) : Nat := bits (r.w 5) 51 0
def PlanReq.workDa (r : PlanReq) : Nat := bits (r.w 6) 51 0
def PlanReq.mrtPoses (r : PlanReq) : Nat := bits (r.w 7) 63 48
def PlanReq.maxPath (r : PlanReq) : Nat := bits (r.w 7) 47 32
def PlanReq.image (r : PlanReq) : Nat := bits (r.w 7) 31 24
def PlanReq.task (r : PlanReq) : Nat := bits (r.w 7) 23 8

/-- Bytes of one proposer buffer (05 R181). -/
def PlanReq.buf (r : PlanReq) : Nat := 8256 + 64 * r.maxChild * 2112

/-- What its checks depend on. -/
def PlanReq.shape (r : PlanReq) : EgoShape :=
  { tPlan := r.tPlan, clearance := bits (r.w 10) 47 32, parts := (List.range r.nEgo).map fun i => (r.w (12 + 2 * i), r.w (13 + 2 * i)) }

/-- A u16 in units of 2⁻⁸, or of `2 ^ e`. -/
def lim (n : Nat) (e : Int) : W32 := ffix n e

/-- Its limits. -/
def PlanReq.limits (r : PlanReq) : Limits :=
  { vMax := lim (bits (r.w 8) 63 48) (-8), aMax := lim (bits (r.w 8) 47 32) (-8), dMax := lim (bits (r.w 8) 31 16) (-8)
    jMax := lim (bits (r.w 8) 15 0) (-8), aLat := lim (bits (r.w 9) 63 48) (-8), kMax := lim (bits (r.w 9) 47 32) (-12)
    v0 := lim (bits (r.w 9) 31 16) (-8), vEnd := lim (bits (r.w 9) 15 0) (-8) }

/-- Pose records in memory. -/
def State.poses (s : State) (da n : Nat) : List (List W64) := (List.range n).map fun i => s.words (da + 32 * i) 4

/-- A pose record's reserved fields are zero (05 R168). -/
def poseOk (p : List W64) : Bool := decide (bits (p.getD 2 0) 47 32 = 0) && decide (p.getD 3 0 = 0)

/-- Times strictly increase. -/
def timesRise (ps : List (List W64)) : Bool :=
  (List.range (ps.length - 1)).all fun i => decide (poseT (ps.getD i []) < poseT (ps.getD (i + 1) []))

/-- An ego part is well formed (05 R169). -/
def egoOk (p : W64 × W64) : Bool :=
  decide (bits p.1 63 62 ≤ 1) && decide (bits p.1 61 48 = 0) && (decide (bits p.1 63 62 = 0) || decide (bits p.1 31 0 = 0))

/-- The checks of 05 R176 that give ST_E_ARG. -/
def State.planOk (s : State) (p : Nat) (r : PlanReq) : Bool :=
  let x := s.part p
  let mrt := s.poses r.mrtDa r.mrtPoses
  let das := [3, 4, 5, 6]
  das.all (fun i => decide (bits (r.w i) 63 52 = 0) && decide (bits (r.w i) 5 0 = 0)) && decide (bits (r.w 2) 13 0 = 0) &&
    decide (bits (r.w 7) 7 0 = 0) && decide (bits (r.w 10) 31 0 = 0) && decide (r.w 11 = 0) &&
    (r.isFree || decide (1 ≤ r.budget)) && decide (r.engine ≤ 2) &&
    decide (1 ≤ r.mrtPoses ∧ r.mrtPoses ≤ 4096) && decide (2 ≤ r.maxPath ∧ r.maxPath ≤ 4096) &&
    [bits (r.w 8) 63 48, bits (r.w 8) 47 32, bits (r.w 8) 31 16, bits (r.w 8) 15 0, bits (r.w 9) 63 48, bits (r.w 9) 47 32].all
      (fun n => decide (n ≠ 0)) &&
    r.shape.parts.all egoOk && ((List.range (16 - 2 * r.nEgo)).all fun i => decide (r.w (12 + 2 * r.nEgo + i) = 0)) &&
    mrt.all poseOk && timesRise mrt && poseOk (s.words r.rootDa 4) && !(r.isFree && s.saf.det) &&
    x.inRegion r.rootDa 64 && x.inRegion r.mrtDa (32 * r.mrtPoses) && x.inRegion r.outDa (64 + 32 * max r.maxPath r.mrtPoses) &&
    x.inRegion r.workDa (2 * r.buf) &&
    match tget none x.images r.image with
      | some i => decide (r.task < i.facts.tasks.length)
      | none => false

/-- Requests running and queued at an engine. -/
def Engine.load (x : Engine) : Nat := x.queue.length + (if x.cur.isSome then 1 else 0)

/-- The engine a request goes to (05 R176). -/
def State.pickEngine (s : State) (r : PlanReq) : Nat :=
  if r.engine < 2 then r.engine
  else if s.engOut 0 then 1 else if s.engOut 1 then 0
  else if (s.eng 1).load < (s.eng 0).load then 1 else 0

/-- A plan request ID is in use. -/
def State.planIdUsed (s : State) (i : Nat) : Bool :=
  (List.range 2).any fun e => ((s.eng e).queue.any fun r => decide (r.id = i)) || (match (s.eng e).cur with
    | some c => decide (c.req.id = i)
    | none => false)

/-- Partition `p` holds the dual-check claim (05 R196; the claim table is 11's). -/
def State.holdsDual (s : State) (p : Nat) : Bool :=
  s.claims.any fun c => decide (c.res = 6) && decide (c.part = p)

/-- The body of PLAN_REQUEST (05 R156, R157, R176; 13 R450). -/
def planRequestBody (c : Ctx) (s : State) : LmpRes :=
  let da := c.u64 0
  let x := s.part c.part
  if x.role = 0 then .refuse stAuth 0 s
  else checked s [(c.daOk 0 && decide (da % 64 = 0) && x.inRegion da 224, 0)] [] fun _ =>
    let r : PlanReq := { mbx := c.m, part := c.part, desc := s.words da 28 }
    let e := s.pickEngine r
    match findLow (fun i => !s.planIdUsed i) 65536 0 with
    | none => .refuse stNoMemory 0 s
    | some id =>
      checked s [(s.planOk c.part r, 0xFFFF)]
        [(decide (9 ≤ (s.eng e).load), stBusy, 0x8000 + e), (s.engOut e, stState, 0),
          (r.isDual && !s.holdsDual c.part, stState, 0)] fun _ =>
        let g := tget 0 s.plan.gens id
        .done stOk 0 (le 2 id ++ le 1 g ++ le 1 e ++ le 4 0)
          (s.modEng e fun x => { x with queue := x.queue ++ [{ r with id := id, gen := g }] })

/-- PLAN_REQUEST. -/
def execPlanRequest (m : Fin 64) (s : State) : Host.Outcome State Fault Refusal := .next (s.lmp m.val (isOp 0x61) planRequestBody)

/-- The search is deterministic and still runs: it may yet need the world of its start epoch (05 R167). -/
def Search.isDet (c : Search) : Bool :=
  !c.req.isFree && !c.fallback && decide (c.phase ≠ .written) && decide (c.phase ≠ .queued)

/-- Start epochs of the running deterministic searches (05 R167). -/
def State.detSearches (s : State) : List Nat :=
  (List.range 2).filterMap fun e => match (s.eng e).cur with
    | some c => if c.isDet then some c.e0 else none
    | none => none

/-- Prior versions that no running deterministic search keeps are gone (05 R163, R167). -/
def State.prunePriors (s : State) : State :=
  let es := s.detSearches
  (List.range 2).foldl (fun s e => s.modEng e fun x => { x with world := x.world.prune es }) s

/-- The ID's generation advances (05 R177, 06 R235). -/
def State.endPlanId (s : State) (id : Nat) : State :=
  { s with plan := { s.plan with gens := tmod 0 s.plan.gens id fun g => (g + 1) % 256 } }

/-- End the proposer jobs of an engine's search. -/
def State.dropBatches (s : State) (e : Nat) : State :=
  match (s.eng e).cur with
  | some c => c.out.foldl (fun s b => ((s.fail b.job causeAborted 0 0).modJob b.job fun _ => {})) s
  | none => s

/-- The request an engine runs ends with no record and no event. -/
def State.dropSearch (s : State) (e id : Nat) : State :=
  (((s.dropBatches e).modEng e fun y => { y with cur := none }).endPlanId id).prunePriors

/-- The body of PLAN_CANCEL (05 R177). -/
def planCancelBody (c : Ctx) (s : State) : LmpRes :=
  let id := c.u16 0
  let mine (r : PlanReq) : Bool := decide (r.id = id) && decide (r.gen = c.u8 2) && decide (r.part = c.part)
  checked s [(decide (c.u8 3 = 0), 3), (decide (c.u32 4 = 0), 4)] [] fun _ =>
    match (List.range 2).find? fun e => ((s.eng e).queue.any mine) || (match (s.eng e).cur with
        | some x => mine x.req
        | none => false) with
    | none => .refuse stStale 0 s
    | some e =>
      match (s.eng e).cur with
      | some x =>
        if mine x.req then
          match x.phase with
          | .round | .locked | .written | .queued => .refuse stState 2 s
          | _ => .done stOk 0 [] (s.dropSearch e id)
        else .done stOk 0 [] ((s.modEng e fun y => { y with queue := y.queue.filter fun r => !mine r }).endPlanId id)
      | none => .done stOk 0 [] ((s.modEng e fun y => { y with queue := y.queue.filter fun r => !mine r }).endPlanId id)

/-- PLAN_CANCEL. -/
def execPlanCancel (m : Fin 64) (s : State) : Host.Outcome State Fault Refusal := .next (s.lmp m.val (isOp 0x62) planCancelBody)

/-! ### World updates (05 R165, R190, R191) -/

/-- The world after every update an engine has accepted. -/
def Engine.ahead (x : Engine) (searches : List Nat) : World := x.updates.foldl (fun w es => (w.update searches es).1) x.world

/-- The engine whose copy an update is validated on: the first in service. -/
def State.liveEngine (s : State) : Nat := if s.engOut 0 then 1 else 0

/-- The body of WORLD_UPDATE (05 R157, R165; 13 R450): the list is validated whole, then held at each engine in service. -/
def worldUpdateBody (c : Ctx) (s : State) : LmpRes :=
  let x := s.part c.part
  let da := c.u64 0
  let n := c.u16 8
  if x.role ≠ 1 then .refuse stAuth 0 s
  else checked s [(c.daOk 0 && decide (da % 8 = 0), 0), (decide (1 ≤ n ∧ n ≤ 1024), 8), (decide (c.fld 10 6 = 0), 10)] [] fun _ =>
    let (es, bytes) := s.edits da n
    if !x.inRegion da bytes then .refuse stArg 0 s
    else
      let ds := s.detSearches
      let w := (s.eng s.liveEngine).ahead ds
      match w.firstRefused ds 0 es with
      | some (i, st) => .refuse st (0x8000 + i) s
      | none =>
        let s := (List.range 2).foldl (fun s e => if s.engOut e then s else s.modEng e fun y => { y with updates := y.updates ++ [es] }) s
        .wait (.world ((w.epoch + 1) % 2 ^ 32)) s

/-- WORLD_UPDATE. -/
def execWorldUpdate (m : Fin 64) (s : State) : Host.Outcome State Fault Refusal := .next (s.lmp m.val (isOp 0x60) (shared 0x60 ofClient worldUpdateBody))

/-- Complete the updates that every engine in service now holds (05 R165). -/
def State.worldDone (s : State) : State :=
  (List.range 64).foldl (fun s m => match (s.mbx m).wait with
    | some (.world ep) =>
      if (List.range 2).all (fun e => s.engOut e || !epochLt (s.eng e).world.epoch ep) then s.complete m stOk 0 (le 8 ep) else s
    | _ => s) s

/-! ### Search (05 R178 to R186) -/

/-- The primitives a search's candidates are checked against (05 R184, R185). -/
def Search.view (c : Search) (w : World) : List (List W64) := if c.req.isFree then w.now else w.asOf c.e0

/-- Note checks of this request: HIT_OVERFLOW. -/
def Search.note (c : Search) (overflow : Bool) : Search := if overflow then { c with flags := c.flags ||| 4 } else c

/-- The test window of an engine's checker is open (05 R198). -/
def State.ownWindow (s : State) (e : Nat) : Bool :=
  s.saf.test.windows.any fun u => match u with
    | .engine i => decide (i.val = e)
    | _ => false

/-- A test window of either checker is open (05 R198). -/
def State.planWindow (s : State) : Bool := s.ownWindow 0 || s.ownWindow 1

/-- An engine's checks wait for its own test window; a dual-check request's are made by the other engine in service (05 R198). -/
def State.checksWait (s : State) (e : Nat) (r : PlanReq) : Bool := s.ownWindow e && (!r.isDual || s.engOut (1 - e))

/-- Both engines check the candidates of a request: dual-check, the other engine in service, no window open (05 R196, R198). -/
def State.dualNow (s : State) (e : Nat) (r : PlanReq) : Bool := r.isDual && !s.engOut (1 - e) && !s.planWindow

/-- The engines disagree on a candidate (05 R197): recorded; a second time within 16 major frames every ASIL partition
with a planning role reacts at PARTITION level (09 R313). -/
def State.peDisagree (s : State) (e : Nat) : State :=
  let now := s.sch.frame.no
  let again := s.saf.peDis.any fun f => decide (now < f + 16)
  let s := { s with saf := { s.saf with peDis := now :: s.saf.peDis.filter fun f => decide (now < f + 16) } }
  let s := s.record (srcIo e 3) 29 (if again then lvPartition else lvMasked) {}
  let s := s.modSearch e fun c => { c with flags := c.flags ||| 8 }
  if again then s.users.foldl (fun s p => if 1 ≤ (s.part p).cls ∧ (s.part p).role ≠ 0 then s.degrade p else s) s else s

/-- Flags of the checks of the published poses (05 R194, R198): DUAL_CHECKED, SINGLE_WINDOW, and bit 20 for a check that the engine made
alone. -/
def State.dualFlags (s : State) (e : Nat) (c : Search) (pub : Nat) : Nat :=
  if c.req.isDual then
    if s.planWindow then (pub ||| 16) else if s.engOut (1 - e) then pub ||| 2 ^ 20 else pub ||| 32
  else pub

/-- PLAN_SEARCH_START (05 R178, R179): E0 is fixed, the minimum-risk trajectory is checked, the root enters the heap. `v.otherDiffers`
says that the other engine's checker answered differently (R197). -/
def execPlanSearchStart (v : EngineEvent) (s : State) : Host.Outcome State Fault Refusal :=
  let x := s.eng v.e.val
  match x.cur, x.queue with
  | none, r :: rest =>
    if s.checksWait v.e.val r then .next s
    else
      let differs := s.dualNow v.e.val r && v.otherDiffers
      let root : Node := { pose := s.words r.rootDa 4, st := s.words (r.rootDa + 32) 4 }
      let m := checkPath x.world x.world.now r.shape (s.poses r.mrtDa r.mrtPoses)
      let c : Search := { req := r, e0 := x.world.epoch, mrtFree := m.1 && !differs, nodes := [root], heap := [(0, 0)] }
      let c := { c.note m.2 with mrtFlags := s.dualFlags v.e.val c 0 }
      let t := s.modEng v.e.val fun y => { y with cur := some c, queue := rest }
      .next (if differs then t.peDisagree v.e.val else t)
  | _, _ => .next s

/-- The least entry of a heap: least key, then lower node (05 R179). -/
def heapMin : List (Nat × Nat) → Option (Nat × Nat)
  | [] => none
  | x :: t => match heapMin t with
    | some y => if x.1 < y.1 ∨ (x.1 = y.1 ∧ x.2 < y.2) then some x else some y
    | none => some x

/-- The next pop would yield a GOAL node. -/
def Search.nextGoal (c : Search) : Bool := match heapMin c.heap with
  | some x => (c.nodes.getD x.2 {}).goal
  | none => false

/-- The first stop condition that holds at a pop, or with an empty heap and no batch outstanding (05 R186). -/
def Search.stop (c : Search) (now : Nat) : Option Nat :=
  if c.parity then some 6
  else if c.peFault then some 4
  else if c.churn then some 5
  else if c.req.deadline ≠ 0 ∧ c.req.deadline < now then some 2
  else if ¬ c.req.isFree ∧ c.expansions = c.req.budget ∧ ¬ c.nextGoal then some 3
  else if c.heap.isEmpty ∧ c.out.isEmpty ∧ c.batch.isEmpty ∧ c.kids.isEmpty then some 1
  else none

/-- End the search phase with a cause: the fallback goes to publication, LOCKED at once where the kept verdict already
failed (05 R186, R192). -/
def Search.endSearch (c : Search) (mrt : List (List W64)) (cause : Nat) : Search :=
  { c with cause := cause, fallback := true, path := mrt, v := c.e0, rounds := 0, smoothFlags := 0, pubFlags := c.mrtFlags
           batch := [], kids := [], phase := if c.mrtFree then .round else .locked, mustFull := !c.mrtFree }

/-- The engine's search ends now with a cause. -/
def State.endSearch (s : State) (e cause : Nat) : State :=
  match (s.eng e).cur with
  | some c =>
    let s := s.dropBatches e
    (s.modSearch e fun x => { x.endSearch (s.poses c.req.mrtDa c.req.mrtPoses) cause with out := [] }).prunePriors
  | none => s

/-- The search, its recheck or an unlocked round of a deterministic search's path goes on with a version lost (05 R167): a search phase
ends before its next pop (R186), what follows it at once. -/
def Search.churned (c : Search) : Bool :=
  c.churn && c.isDet && (match c.phase with
    | .recheckSmooth | .recheckPlain | .round => true
    | _ => false)

/-- WORLD_UPDATE_APPLY (05 R165 to R167, R190): the oldest update an engine holds, unless it is LOCKED; a deterministic search
that loses a version it needs ends with WORLD_CHURN. -/
def execWorldUpdateApply (e : Fin 2) (s : State) : Host.Outcome State Fault Refusal :=
  let x := s.eng e.val
  let locked := match x.cur with
    | some c => decide (c.phase = .locked)
    | none => false
  match x.updates with
  | [] => .next s
  | es :: rest =>
    if locked || s.engOut e.val then .next s
    else
      let (w, lost) := x.world.update s.detSearches es
      let s := s.modEng e.val fun y => { y with world := w, updates := rest }
      let s := s.modSearch e.val fun c => { c with churn := c.churn || (c.isDet && decide (c.e0 ∈ lost)) }
      let ends := match (s.eng e.val).cur with
        | some c => c.churned
        | none => false
      .next (if ends then s.endSearch e.val 5 else s).worldDone

/-- The path from the root to a node: poses in order (05, "Smoothing and time-scaling"). -/
def Search.pathTo (c : Search) (n : Nat) : Nat → List (List W64)
  | 0 => []
  | fuel + 1 =>
    let x := c.nodes.getD n {}
    if n = 0 then [x.pose] else c.pathTo x.parent fuel ++ x.edge

/-- What filling a batch comes to: a full or last batch, a popped GOAL node, or an ended search. -/
inductive PopEnd where
  | batch | goal (n : Nat) | stop (cause : Nat)

/-- Pop nodes into the batch (05 R180, R184, R186). -/
def Search.pops (c : Search) (now : Nat) : Nat → Search × PopEnd
  | 0 => (c, .batch)
  | fuel + 1 =>
    if c.batch.length = c.req.batchSize then (c, .batch)
    else if c.heap.isEmpty ∧ ¬ (c.batch.isEmpty ∧ c.out.isEmpty ∧ c.kids.isEmpty) then (c, .batch)
    else match c.stop now with
      | some cause => (c, .stop cause)
      | none => match heapMin c.heap with
        | none => (c, .batch)
        | some x =>
          let c := { c with heap := c.heap.erase x }
          if (c.nodes.getD x.2 {}).goal then ({ c with goal := x.2 }, .goal x.2)
          else ({ c with batch := c.batch ++ [x.2], expansions := c.expansions + 1 }).pops now fuel

/-- The bytes of a node record (05 R181). -/
def nodeBytes (c : Search) (n : Nat) : List Byte :=
  let x := c.nodes.getD n {}
  le 8 (n * 2 ^ 48 + x.parent * 2 ^ 32 + x.depth * 2 ^ 16) ++ le 8 (x.g * 2 ^ 32 + x.h) ++
    (x.pose ++ x.st).flatMap (fun w => le 8 w.toNat) ++ le 48 0

/-- A buffer that holds no outstanding batch. -/
def Search.freeBuf (c : Search) : Option Nat :=
  let lim := if c.req.isFree then 2 else 1
  if lim ≤ c.out.length ∨ (¬ c.req.isFree ∧ ¬ c.kids.isEmpty) then none
  else findLow (fun b => !c.out.any fun x => decide (x.buf = b)) lim 0

/-- Write the batch into its buffer and launch the proposer task (05 R181, R183). -/
def State.sendBatch (s : State) (e : Nat) (c : Search) (b : Nat) : State :=
  let base := c.req.workDa + b * c.req.buf
  let s := s.wr base (le 8 (c.batchNo * 2 ^ 32 + c.batch.length))
  let s := (List.range c.batch.length).foldl (fun s i => s.wr (base + 64 + 128 * i) (nodeBytes c (c.batch.getD i 0))) s
  let f := s.facts c.req.part c.req.image
  let n := s.sch.nextJob
  let s := { s with sch := { s.sch with nextJob := n + 1 } }
  let s := s.modJob n fun _ => {
    live := true, kind := .proposer, part := c.req.part, mbx := c.req.mbx, image := c.req.image, entry := c.req.task
    argsDa := base, tasks := [{ decl := f.tasks.getD c.req.task {} }], e := e }
  s.modEng e fun x => { x with cur := some { c with
    batch := [], batchNo := c.batchNo + 1, out := c.out ++ [⟨b, c.batchNo, c.batch, n⟩] } }

/-- The popped GOAL node's path goes to smoothing and recheck (05 R180, R187). -/
def Search.toRecheck (c : Search) : Search :=
  { c with path := c.pathTo c.goal (c.nodes.length + 1), smoothFlags := 0, pubFlags := 0
           phase := if c.req.smoothEn then .recheckSmooth else .recheckPlain }

/-- PROPOSER_BATCH_SEND (05 R180 to R186). -/
def execProposerBatchSend (e : Fin 2) (s : State) : Host.Outcome State Fault Refusal :=
  match (s.eng e.val).cur with
  | some c =>
    match c.phase, c.freeBuf with
    | .search, some b =>
      match c.pops s.clk.ctc 65 with
      | (c, .batch) => if c.batch.isEmpty then .next s else .next (s.sendBatch e.val c b)
      | (c, .goal _) => .next (s.modEng e.val fun x => { x with cur := some c.toRecheck })
      | (c, .stop cause) => .next ((s.modEng e.val fun x => { x with cur := some c }).endSearch e.val cause)
    | _, _ => .next s
  | none => .next s

/-- The child slots of a batch in (node, slot) order (05 R182, R184). -/
def State.readKids (s : State) (c : Search) (b : Batch) : List (Nat × List W64) :=
  let base := c.req.workDa + b.buf * c.req.buf
  (List.range b.nodes.length).flatMap fun i =>
    (List.range c.req.maxChild).filterMap fun j =>
      let da := base + 8256 + 2112 * (i * c.req.maxChild + j)
      let h := s.words da 8
      if (h.getD 0 0).getLsbD 63 then some (b.nodes.getD i 0, h ++ s.words (da + 64) (4 * (bits (h.getD 0 0) 61 56 + 1))) else none

/-- The poses of a child slot. -/
def kidPoses (ws : List W64) : List (List W64) :=
  (List.range (bits (ws.getD 0 0) 61 56 + 1)).map fun i => (ws.drop (8 + 4 * i)).take 4

/-- Poses of the path to a node. -/
def Search.pathLen (c : Search) (n : Nat) : Nat := (c.pathTo n (c.nodes.length + 1)).length

/-- A child is not invalid (05 R183). -/
def Search.kidOk (c : Search) (k : Nat × List W64) : Bool :=
  let w (i : Nat) : W64 := k.2.getD i 0
  let ps := kidPoses k.2
  decide (bits (w 0) 55 32 = 0) && decide (bits (w 1) 31 0 = 0) && decide (w 2 = 0) && decide (w 3 = 0) && ps.all poseOk &&
    timesRise ((c.nodes.getD k.1 {}).pose :: ps) && decide (c.pathLen k.1 + ps.length ≤ c.req.maxPath)

/-- The search phase with an empty heap and nothing outstanding: its end is decided without a pop (05 R186). -/
def Search.idle (c : Search) : Bool :=
  decide (c.phase = .search) && c.heap.isEmpty && c.out.isEmpty && c.kids.isEmpty && c.batch.isEmpty

/-- A proposer's job ended badly, or overran its WCET budget under REPORT (05 R183). -/
def Job.proposerBad (b : Job) : Bool := decide (b.cause ≠ some causeOk) || b.tasks.any (·.overran)

/-- PROPOSER_COMPLETE (05 R183, R186): the token of the oldest ended batch arrives; its valid children wait for their checks, and a
fault ends the search before its next pop. -/
def execProposerComplete (e : Fin 2) (fault : Bool) (s : State) : Host.Outcome State Fault Refusal :=
  match (s.eng e.val).cur with
  | some c =>
    match c.out.find? fun b => (s.job b.job).cause.isSome || fault with
    | some b =>
      let bad := fault || (s.job b.job).proposerBad
      let s := if (s.job b.job).cause.isNone then s.fail b.job causeFault 0 0 else s
      let s := (s.modJob b.job fun _ => {}).modSearch e.val fun x => { x with out := x.out.erase b }
      if bad then
        let s := s.modSearch e.val fun x => { x with peFault := true }
        .next (if { c with out := c.out.erase b }.idle then s.endSearch e.val (if c.parity then 6 else 4) else s)
      else
        let ks := s.readKids c b
        let ok := ks.filter c.kidOk
        .next (s.modSearch e.val fun x => { x with
          kids := x.kids ++ ok, invalid := satAdd 16 x.invalid (ks.length - ok.length) })
    | none => .next s
  | none => .next s

/-- Insert a checked child (05 R179). -/
def Search.insert (c : Search) (k : Nat × List W64) (free : Bool) : Search :=
  if 65536 ≤ c.nodes.length then { c with dropped := satAdd 16 c.dropped 1 }
  else
    let p := c.nodes.getD k.1 {}
    let w (i : Nat) : W64 := k.2.getD i 0
    let ps := kidPoses k.2
    let g := satAdd 32 p.g (bits (w 0) 31 0)
    let n := c.nodes.length
    let x : Node := { parent := k.1, depth := p.depth + 1, g := g, h := bits (w 1) 63 32, goal := (w 0).getLsbD 62
                      pose := ps.getLastD [], st := [w 4, w 5, w 6, w 7], edge := ps }
    { c with nodes := c.nodes ++ [x], heap := if free then (satAdd 32 g x.h, n) :: c.heap else c.heap }

/-- CANDIDATE_CHECK_DONE (05 R170 to R174, R179, R184, R185, R196, R197): the next child's verdict; in FREE mode the order in which
checks complete is open. `otherDiffers` says that the other engine's checker answered differently. -/
def execCandidateCheckDone (e : Fin 2) (otherDiffers : Bool) (s : State) : Host.Outcome State Fault Refusal :=
  let x := s.eng e.val
  match x.cur with
  | some c =>
    match c.kids with
    | [] => .next s
    | _ :: _ =>
      if s.checksWait e.val c.req then .next s else
      let (r, s) := if c.req.isFree then s.draw 64 else (0, s)
      let i := r % c.kids.length
      let k := c.kids.getD i (0, [])
      let v := checkCand x.world (c.view x.world) c.req.shape ((c.nodes.getD k.1 {}).pose :: kidPoses k.2)
      let differs := s.dualNow e.val c.req && otherDiffers
      let s := if differs then s.peDisagree e.val else s
      .next (s.modSearch e.val fun c =>
        ({ c with kids := c.kids.eraseIdx i }.note v.2).insert k (v.1.isNone && !differs))
  | none => .next s

/-- PLAN_DEADLINE (05 R186): the CTC passes DEADLINE; a search that stands before a pop ends, another one ends before its next. -/
def execPlanDeadline (e : Fin 2) (s : State) : Host.Outcome State Fault Refusal :=
  match (s.eng e.val).cur with
  | some c =>
    if c.req.deadline = 0 then .next s
    else
      let s := s.elapseTo (c.req.deadline + 1)
      if c.phase = .search ∧ c.out.isEmpty ∧ c.kids.isEmpty then
        match c.stop s.clk.ctc with
        | some cause => .next (s.endSearch e.val cause)
        | none => .next s
      else .next s
  | none => .next s

/-! ### Recheck and publication (05 R189 to R195) -/

/-- Discard the GOAL node and resume the search (05 R189, R190). -/
def Search.reject (c : Search) : Search := { c with rejected := satAdd 32 c.rejected 1, phase := .search, path := [] }

/-- PATH_RECHECK_DONE (05 R187 to R189): one attempt; the smoothed path first where smoothing is on. `v.otherDiffers` says that the
other engine's checker answered differently (R197). -/
def execPathRecheckDone (v : EngineEvent) (s : State) : Host.Outcome State Fault Refusal :=
  let x := s.eng v.e.val
  match x.cur with
  | some c =>
    let r := c.req
    let full := c.pathTo c.goal (c.nodes.length + 1)
    let differs := s.dualNow v.e.val r && v.otherDiffers
    let t := if differs then s.peDisagree v.e.val else s
    let good (ps : List (List W64)) : Bool × Bool :=
      let g := checkPath x.world (c.view x.world) r.shape ps
      (g.1 && !differs, g.2)
    let publish (ps : List (List W64)) (status : Nat) (o : Bool) : State :=
      t.modSearch v.e.val fun c => { (c.note o) with
        path := ps, status := status, phase := .round, rounds := 0, fallback := false, mustFull := false
        v := if r.isFree then x.world.epoch else c.e0, pubFlags := s.dualFlags v.e.val c 0 }
    if s.checksWait v.e.val r then .next s else
    match c.phase with
    | .recheckSmooth =>
      match timeScale r.limits (smooth (bits (r.w 10) 63 48) full) with
      | none => .next (s.modSearch v.e.val fun c => { c with phase := .recheckPlain, smoothFlags := c.smoothFlags ||| 128 })
      | some ps =>
        let g := good ps
        if g.1 then .next (publish ps 1 g.2)
        else .next (t.modSearch v.e.val fun c => { (c.note g.2) with phase := .recheckPlain, smoothFlags := c.smoothFlags ||| 64 })
    | .recheckPlain =>
      match timeScale r.limits full with
      | none => .next (s.modSearch v.e.val Search.reject)
      | some ps =>
        let g := good ps
        if g.1 then .next (publish ps (if r.smoothEn then 2 else 1) g.2)
        else .next (t.modSearch v.e.val fun c => (c.note g.2).reject)
    | _ => .next s
  | none => .next s

/-- A check of a path in publication (05 R190, R194): whether the path passes, exceeded the hit limit, and whether a delta check or a
full recheck ran. -/
structure PubCheck where
  ok : Bool
  overflow : Bool := false
  delta : Bool := false
  full : Bool := false
  deriving DecidableEq, Repr

/-- The check of a path from its verdict epoch to the engine's (05 R190). -/
def Search.pubCheck (c : Search) (w : World) : PubCheck :=
  if w.epoch = c.v then ⟨true, false, false, false⟩
  else if w.covers c.v then
    let r := checkPath w (w.since c.v) c.req.shape c.path
    ⟨r.1, r.2, true, false⟩
  else
    let r := checkPath w w.now c.req.shape c.path
    ⟨r.1, r.2, false, true⟩

/-- Something was checked. -/
def PubCheck.ran (k : PubCheck) : Bool := k.delta || k.full

/-- The flags of a publication check: HIT_OVERFLOW, DELTA_CHECKED and FULL_RECHECK. -/
def PubCheck.bits (k : PubCheck) : Nat := (if k.overflow then 4 else 0) + (if k.delta then 512 else 0) + (if k.full then 256 else 0)

/-- A search with a publication check noted; its poses were checked as `pub` says. -/
def Search.checked (c : Search) (k : PubCheck) (pub : Nat) : Search :=
  { c with flags := c.flags ||| k.bits, pubFlags := if k.ran then pub else c.pubFlags }

/-- PUBLISH_ROUND (05 R190, R192, R197). -/
def execPublishRound (v : EngineEvent) (s : State) : Host.Outcome State Fault Refusal :=
  let x := s.eng v.e.val
  match x.cur with
  | some c =>
    if c.phase = .round then
      let k := c.pubCheck x.world
      let differs := k.ran && s.dualNow v.e.val c.req && v.otherDiffers
      if k.ran && s.checksWait v.e.val c.req then .next s
      else
        let t := if differs then s.peDisagree v.e.val else s
        .next (t.modSearch v.e.val fun c' =>
          let c' := c'.checked k (s.dualFlags v.e.val c c.pubFlags)
          if !k.ok || differs then (if c'.fallback then { c' with phase := .locked, mustFull := true } else c'.reject)
          else if !k.ran then { c' with phase := .locked }
          else { c' with v := x.world.epoch, rounds := c'.rounds + 1, phase := if 3 ≤ c'.rounds + 1 then .locked else .round })
    else .next s
  | none => .next s

/-- The result record (05 R194). -/
def State.planRecord (s : State) (e : Nat) (c : Search) (status poses pre epoch : Nat) : List Byte :=
  let late := c.req.deadline ≠ 0 ∧ c.req.deadline < s.clk.ctc
  let pub := if c.pubFlags.testBit 20 then c.pubFlags &&& 16 else if c.pubFlags.testBit 4 then c.pubFlags &&& 16 else c.pubFlags &&& 48
  let fl := (if late then 1024 else 0) ||| c.flags ||| c.smoothFlags ||| pub ||| (if c.req.isFree then 0 else 2) ||| e
  le 8 (status * 2 ^ 60 + c.cause * 2 ^ 56 + c.req.gen * 2 ^ 48 + c.req.id * 2 ^ 32 + poses * 2 ^ 16 + pre) ++
    le 8 (epoch * 2 ^ 32 + c.e0) ++ le 8 (c.expansions % 2 ^ 32 * 2 ^ 32 + c.nodes.length) ++
    le 8 ((if c.fallback then 0 else (c.nodes.getD c.goal {}).g) * 2 ^ 32 + c.dropped * 2 ^ 16 + c.invalid) ++
    le 8 s.clk.ctc ++ le 8 fl ++ le 8 c.rejected ++ le 8 0

/-- Write the record and its poses (05 R194). -/
def State.writeResult (s : State) (e : Nat) (c : Search) (status pre : Nat) (ps : List (List W64)) : State :=
  let s := s.wr c.req.outDa (s.planRecord e c status ps.length pre (s.eng e).world.epoch)
  let s := s.wr (c.req.outDa + 64) (ps.flatMap fun p => p.flatMap fun w => le 8 w.toNat)
  (s.modSearch e fun x => { x with phase := .written, status := status }).prunePriors

/-- The full check of the minimum-risk trajectory at the held epoch (05 R192): its free prefix, and whether it exceeded the hit
limit. The whole trajectory is free where the prefix is all of it. -/
def Search.mrtPrefix (c : Search) (w : World) : Nat × Bool :=
  let r := checkPath w w.now c.req.shape c.path
  let free := (findLow (poseHit w w.now c.req.shape c.path) c.path.length 0).getD c.path.length
  (if r.1 then c.path.length else if free = c.path.length then 0 else free, r.2)

/-- PUBLISH_LOCKED (05 R190, R192, R197): updates are held; the last check runs and the record is written, or the search
resumes. Where the engines disagree on the fallback's full check, the trajectory counts as colliding from a pose that the spec leaves
open (log 135). -/
def execPublishLocked (v : EngineEvent) (s : State) : Host.Outcome State Fault Refusal :=
  let x := s.eng v.e.val
  match x.cur with
  | some c =>
    if c.phase = .locked then
      let w := x.world
      let k := if c.mustFull then ⟨false, false, false, false⟩ else c.pubCheck w
      let ran := c.mustFull || k.ran
      let differs := ran && s.dualNow v.e.val c.req && v.otherDiffers
      if ran && s.checksWait v.e.val c.req then .next s
      else
        let t := if differs then s.peDisagree v.e.val else s
        let fl := s.dualFlags v.e.val c c.pubFlags
        let c := { c.checked k fl with flags := c.flags ||| k.bits ||| (if differs then 8 else 0) }
        if k.ok && !differs then
          .next ((t.modEng v.e.val fun y => { y with cur := some c }).writeResult v.e.val c (if c.fallback then 3 else c.status) 0 c.path)
        else if !c.fallback then .next (t.modEng v.e.val fun y => { y with cur := some c.reject })
        else
          let (n, ov) := c.mrtPrefix w
          let c := { c.note ov with pubFlags := fl }
          let (j, t) := if differs then (let (d, t) := t.draw 16; (d % (n + 1), t)) else (n, t)
          let t := t.modEng v.e.val fun y => { y with cur := some c }
          if n = c.path.length ∧ ¬ differs then .next (t.writeResult v.e.val c 3 0 c.path)
          else .next (t.writeResult v.e.val c 4 j (c.path.take j))
    else .next s
  | none => .next s

/-- The payload of a planning event (05 R194). -/
def PlanReq.payload (r : PlanReq) (cause : Nat) : Nat := r.gen * 2 ^ 24 + r.id * 2 ^ 8 + cause

/-- The planning event of a request's record. -/
def Search.event (c : Search) (e : Nat) : W64 := sqWord (eventWord 3 (srcIo e 3) c.status (c.req.payload c.cause)) false

/-- The head words of an engine's result Spill Queue pass to the Event Queue, oldest first (05 R194); a word whose parity failed or whose
backing read was poisoned passes on poisoned (07 R270). -/
def State.passResults (s : State) (e : Fin 2) : Nat → State
  | 0 => s
  | n + 1 =>
    match (s.q (QueueId.plan e).key).head with
    | [] => s
    | (w, bp) :: _ =>
      (((s.takeHead (.plan e) w bp).pushGroup [sqWord w.toNat (parityOf w.toNat 64 || bp || w.getLsbD 62)])).passResults e n

/-- A word waits in a queue or at its producer. -/
def SpillQ.holds (q : SpillQ) (w : W64) : Bool :=
  (q.head.any fun x => decide (x.1 = w)) || decide (w ∈ q.mid) || decide (w ∈ q.tail) || decide (w ∈ q.stalled)

/-- Once its event has left the engine's result Spill Queue a request is DONE and its ID's generation advances (05 R177, R194). -/
def State.resultsDone (s : State) (e : Fin 2) : State :=
  match (s.eng e.val).cur with
  | some c =>
    if c.phase = .queued ∧ ¬ (s.q (QueueId.plan e).key).holds (c.event e.val) then
      (s.modEng e.val fun y => { y with cur := none }).endPlanId c.req.id
    else s
  | none => s

/-- RESULT_PUBLISHED (05 R177, R194; 07 R271, R276): the writes of a record are acknowledged, its event enters the engine's result
Spill Queue, and the queue's head passes to the Event Queue. -/
def execResultPublished (e : Fin 2) (s : State) : Host.Outcome State Fault Refusal :=
  let s1 : State := match (s.eng e.val).cur with
    | some c =>
      if c.phase = .written then
        (s.setQ (QueueId.plan e).key ((s.q (QueueId.plan e).key).push (c.event e.val))).modSearch e.val fun x => { x with phase := PlanPhase.queued }
      else s
    | none => s
  .next ((s1.passResults e 16).resultsDone e)

/-- Quarantine an engine (05 R199): its requests end with no record and an event names each; its world receives no
updates. -/
def State.engineQuarantine (s : State) (e : Nat) : State :=
  if s.engOut e then s
  else
    let s := s.record (srcIo e 3) 22 lvUnit {}
    let done := (s.eng e).cur.filter fun c => decide (c.phase = .queued)
    let rs := (match (s.eng e).cur with
      | some c => if c.phase = .queued then [] else [c.req]
      | none => []) ++ (s.eng e).queue
    let s := s.dropBatches e
    let s := rs.foldl (fun s r => (s.post 3 (srcIo e 3) 0x0F (r.payload 0) [] false).endPlanId r.id) s
    let s := (s.modEng e fun y => { y with cur := done, queue := [], updates := [] }).prunePriors
    let s := { s with saf := { s.saf with engineOut := tput false s.saf.engineOut e true } }
    s.worldDone

/-- A parity error in the node pool or heap ends only the running search (05 R199). -/
def State.searchParity (s : State) (e : Nat) : State :=
  let s := s.record (srcIo e 3) 0 lvMasked {}
  match (s.eng e).cur with
  | some c =>
    match c.phase with
    | .search | .recheckSmooth | .recheckPlain => (s.modSearch e fun x => { x with parity := true }).endSearch e 6
    | _ => s.modSearch e fun x => { x with parity := true }
  | none => s

end Sys2Proof.Machine
end

