-- ==== Sys2Proof/Machine/Time.lean ====
section
/-! DEFINITION. The Chip Time Counter (08 R292 to R297): its registers, SYNC_IN, TIME_SYNC (13 R457), the exchange with
the twin partner. -/

namespace Sys2Proof.Machine

/-- A claim on a resource is held (11 R402). -/
def State.claimed (s : State) (res : Nat) : Bool := s.claims.any fun c => decide (c.res = res)

/-- This member is the SECONDARY of a PAIRED pair. -/
def State.isSecondary (s : State) : Bool := decide (s.tw.st = 1) && decide (s.tw.role = 1)

/-- CTC_STATUS.SOURCE (08 R293, R296). -/
def State.ctcSource (s : State) : Nat :=
  if s.isSecondary then 2 else if s.claimed 1 then 1 else if s.clk.slewed then 3 else 0

/-- The reference of the selected source is absent (08 R293): edges of SYNC_IN (R294), or for a SECONDARY the partner's exchanges, of
which 10 are missing (DEDUCED, log 17). -/
def State.inHoldover (s : State) : Bool :=
  if s.isSecondary then decide (10 ≤ s.clk.missExch) else s.claimed 1 && s.clk.holdover

/-- CTC_STATUS (08 R293). -/
def State.ctcStatus (s : State) : Nat :=
  let b (x : Bool) (i : Nat) := if x then 2 ^ i else 0
  s.ctcSource + b s.inHoldover 3 + b s.clk.syncLocked 4 + b s.clk.twinValid 5 + b s.clk.syncMissed 6 + b s.clk.syncFar 7

/-- Clear the W1C bits of CTC_STATUS (08 R293). -/
def State.ctcStatusWrite (s : State) (v : W64) : State :=
  { s with clk := { s.clk with
    syncMissed := s.clk.syncMissed && !v.getLsbD 6, syncFar := s.clk.syncFar && !v.getLsbD 7 } }

/-- A CTC register of 08 R293 by its offset from BAR0 + 0x4000. -/
def State.ctcReg (s : State) (off : Nat) : Nat :=
  match off with
  | 0x00 => s.clk.ctc
  | 0x08 => s.ctcStatus
  | 0x10 => s.clk.syncLatch
  | 0x18 => ofSigned 32 s.clk.syncErr
  | 0x20 => ofSigned 32 s.clk.rate
  | 0x28 => ofSigned 32 s.clk.twinOffset
  | 0x30 => if s.saf.det then 1 else 0
  | _ => 0

/-- CTC_LOW_READ (08 R293): bits [31:0] are answered, bits [63:32] are held for this requester's next read of 0x04. -/
def execCtcLowRead (ep : Fin 2) (s : State) : Host.Outcome State Fault Refusal :=
  let s1 := { s with clk := { s.clk with latch := tput none s.clk.latch ep.val (some (s.clk.ctc / 2 ^ 32)) } }
  .next (s1.answer (le 4 (s.clk.ctc % 2 ^ 32)) false)

/-- A step of the CTC (08 R292): the frame restarts at the next multiple of F, the row-disturbance window ends at the first
multiple of 32 ms at least 32 ms of elapsed time after it began. -/
def State.stepCtc (s : State) (v : Nat) : State :=
  let f := s.sch.frame.fUs * 1000
  let left := s.mem.rhBegan + 32000000 - s.clk.elapsed
  { s with
    clk := { s.clk with ctc := v, frac := 0 }
    sch := { s.sch with frame := { s.sch.frame with next := roundUp v f } }
    mem := { s.mem with rhNext := roundUp (v + left) 32000000 } }

/-- The base rate moves towards zero error for an error `e` (CTC too far ahead when positive), within 200 ppm; by how much
is open (08 R294; log 17). -/
def State.steer (s : State) (e : Int) : State :=
  if e = 0 then s
  else
    let (v, s) := s.draw 32
    let b := s.clk.base
    let r : Int := if 0 < e then b - (v % (Int.toNat (b + 200000) + 1) : Nat) else b + (v % (Int.toNat (200000 - b) + 1) : Nat)
    { s with clk := { s.clk with base := r, rate := if s.clk.slew = 0 then r else s.clk.rate } }

/-- The error of an edge latched at `t`: the latch minus the nearest expected time (08 R294). -/
def edgeError (t periodNs offsetNs : Nat) : Int :=
  let d := ((t : Int) - offsetNs) % (periodNs : Int)
  if 2 * d ≤ (periodNs : Int) then d else d - (periodNs : Int)

/-- Saturate to 32 bits, signed. -/
def sat32 (x : Int) : Int := max (-2147483648) (min 2147483647 x)

/-- SYNC_IN_EDGE (08 R294, R296), `dt` ns after the previous command; the pin counts only while SYNC_IN is claimed. -/
def execSyncInEdge (dt : Nat) (s : State) : Host.Outcome State Fault Refusal :=
  let s := s.elapse dt
  if !s.claimed 1 then .next s
  else
    let s := { s with clk := { s.clk with
      syncLatch := s.clk.ctc, lastEdge := some s.clk.elapsed, holdover := false } }
    if s.clk.periodMs = 0 then .next s
    else
      let p := s.clk.periodMs * 1000000
      let e := edgeError s.clk.ctc p s.clk.offsetNs
      let a := e.natAbs
      let good := if a ≤ 20 then s.clk.goodEdges + 1 else 0
      let s := { s with clk := { s.clk with
        syncErr := sat32 e
        goodEdges := good
        syncLocked := decide (a ≤ 100) && (s.clk.syncLocked || decide (4 ≤ good)) } }
      if a ≤ 1000000 ∧ 2 * a < p then .next (if s.isSecondary then s else s.steer e)
      else .next { s with clk := { s.clk with syncFar := true } }

/-- SYNC_MISSED (08 R294): 1.1 × PERIOD have passed since the previous edge. -/
def execSyncMissed (s : State) : Host.Outcome State Fault Refusal :=
  match s.clk.lastEdge with
  | some t =>
    if s.claimed 1 ∧ s.clk.periodMs ≠ 0 then
      let s := s.elapse (t + s.clk.periodMs * 1100000 - s.clk.elapsed)
      .next { s with clk := { s.clk with syncMissed := true } }
    else .next s
  | none => .next s

/-- HOLDOVER (08 R294): 2 × PERIOD have passed without an edge; the last rate is held and the lock clears. -/
def execHoldover (s : State) : Host.Outcome State Fault Refusal :=
  match s.clk.lastEdge with
  | some t =>
    if s.claimed 1 ∧ s.clk.periodMs ≠ 0 then
      let s := s.elapse (t + s.clk.periodMs * 2000000 - s.clk.elapsed)
      .next { s with clk := { s.clk with holdover := true, syncLocked := false, goodEdges := 0 } }
    else .next s
  | none => .next s

/-- Work that no step of the CTC and no change of DET_MODE may meet (08 R277, R292): a launch accepted and not ended, a step in flight, a
build, a plan request queued or running. -/
def State.workInFlight (s : State) : Bool :=
  s.jobIds.any (fun j => decide ((s.job j).kind ≠ .proposer)) || !s.seq.builds.isEmpty ||
    s.plan.eng.any fun (e : Nat × Engine) => e.2.cur.isSome || !e.2.queue.isEmpty

/-- TWIN_VALID_LOSS (08 R297): 10 consecutive exchanges are missing. -/
def execTwinValidLoss (s : State) : Host.Outcome State Fault Refusal :=
  if 10 ≤ s.clk.missExch then .next { s with clk := { s.clk with twinValid := false, goodExch := 0 } } else .next s

/-- The fields of TIME_SYNC (13 R457). -/
def timeSyncFields (c : Ctx) : List (Bool × Nat) :=
  let set := decide (c.u8 0 = 2)
  [(decide (c.u8 0 ≤ 2), 0), (decide (c.fld 1 7 = 0), 1),
   (match c.u8 0 with
    | 0 => true
    | 1 => decide ((toSigned 64 (c.u64 8)).natAbs ≤ 10000000)
    | _ => decide (c.u64 8 = 0), 8),
   (if set then decide (1 ≤ c.u32 0x10) && decide (c.u32 0x10 ≤ 1000) else decide (c.u32 0x10 = 0), 0x10),
   (if set then decide (c.u32 0x14 < c.u32 0x10 * 1000000) else decide (c.u32 0x14 = 0), 0x14)]

/-- TIME_SYNC (08 R294 to R296; 13 R457). -/
def timeSyncBody (c : Ctx) (s : State) : LmpRes :=
  let sec := (s.isSecondary, stState, 0)
  match c.u8 0 with
  | 0 => checked s (timeSyncFields c) [sec, (!s.users.isEmpty, stState, 0)] fun _ =>
      let s := s.stepCtc (c.u64 8)
      .done stOk 0 (le 8 s.clk.ctc) s
  | 1 => checked s (timeSyncFields c) [sec] fun _ =>
      let left := s.clk.slew + toSigned 64 (c.u64 8) * 1000000000
      let (v, s1) := s.draw 32
      let r : Int := (v % 200000 + 1 : Nat)
      .done stOk 0 (le 8 s.clk.ctc) { s1 with clk := { s1.clk with
        slewed := true, slew := left
        rate := if left = 0 then s1.clk.base else if left < 0 then -r else r } }
  | _ => checked s (timeSyncFields c) [(!s.claimed 1, stState, 0)] fun _ =>
      .done stOk 0 (le 8 s.clk.ctc) { s with clk := { s.clk with periodMs := c.u32 0x10, offsetNs := c.u32 0x14 } }

/-- TIME_SYNC_STEP; an OP outside its range is refused here. -/
def execTimeSyncStep (m : Fin 64) (s : State) : Host.Outcome State Fault Refusal :=
  .next (s.lmp m.val (fun o c => decide (o = 0x00B0) && decide (c.u8 0 ≠ 1) && decide (c.u8 0 ≠ 2)) timeSyncBody)

/-- TIME_SYNC_SLEW. -/
def execTimeSyncSlew (m : Fin 64) (s : State) : Host.Outcome State Fault Refusal :=
  .next (s.lmp m.val (fun o c => decide (o = 0x00B0) && decide (c.u8 0 = 1)) timeSyncBody)

/-- SYNC_SET. -/
def execSyncSet (m : Fin 64) (s : State) : Host.Outcome State Fault Refusal :=
  .next (s.lmp m.val (fun o c => decide (o = 0x00B0) && decide (c.u8 0 = 2)) timeSyncBody)

end Sys2Proof.Machine
end

