-- ==== Sys2Proof/Machine/Watch.lean ====
section
/-! DEFINITION. Monitors, heartbeats, the cross-watch link, lockstep and the reactions to them (09 R307 to R323), Tower Link
errors (01 R21, R22), test windows (09 R339). -/

namespace Sys2Proof.Machine

/-! ### Reactions -/

/-- The Cupola of the other side takes over, or both are gone: the reaction of 09 R313, R321 to the loss of Cupola
`side`, with the bit its record takes. -/
def State.loseCupola (s : State) (side bit src : Nat) : State :=
  let out := tget false s.saf.cupolaOut (1 - side)
  let s := s.record src bit (if side = s.saf.active ∧ out then lvPackage else lvUnit) {}
  if side ≠ s.saf.active then { s with saf := { s.saf with cupolaOut := tput false s.saf.cupolaOut side true } }
  else if out then
    ({ s with saf := { s.saf with cupolaOut := tput false s.saf.cupolaOut side true } }).packageAll
  else { s with saf := { s.saf with takeover := true } }

/-- A Batch Builder is lost (09 R313): the other one continues from the mirror, or the package reacts. -/
def State.loseBuilder (s : State) (side bit : Nat) : State :=
  let out := tget false s.saf.bbOut (1 - side)
  let s := s.record (srcIo side 4) bit (if out then lvPackage else lvUnit) {}
  let s := { s with saf := { s.saf with bbOut := tput false s.saf.bbOut side true } }
  if out then s.packageAll
  else if side = s.saf.bbActive then ({ s with saf := { s.saf with bbActive := 1 - side } }).reissueSteps
  else s

/-- Lantern `l` is lost (09 R313, R322): its own pin goes low, its heartbeat stops, the other decides PACKAGE. -/
def State.loseLantern (s : State) (l bit detail : Nat) : State :=
  ((s.record (srcIo l 2) bit lvPackage { detail := detail }).lanternOut l).packageAll

/-- The reaction to the loss of a Dome Scheduler (09 R313). -/
def State.loseDome (s : State) (d bit detail : Nat) : State :=
  (s.record (srcDome d) bit lvUnit { detail := detail }).domeOutOfService d

/-- The reaction to the loss of a CSI-2 receive port: it stops (09 R313). -/
def State.losePort (s : State) (port bit detail : Nat) : State :=
  let s := s.record (srcIo (port / 8) (0x10 + port % 8)) bit lvUnit { detail := detail }
  { s with saf := { s.saf with portOut := tput false s.saf.portOut port true } }

/-- A level the escalation table does not give for the event: open (log 19). -/
def State.openLevel (s : State) : Nat × State :=
  let (v, s) := s.draw 8
  (v % 6, s)

/-- The unit-less part of a reaction: at TOWER level the Tower, at PACKAGE level the package with it (09 R312). -/
def State.reactAt (s : State) (level : Nat) (tower : Option Nat) : State :=
  let s := if level = 5 then s.packageAll else s
  match tower with
  | some t => if 4 ≤ level then s.towerQuarantine t else s
  | none => s

/-- The Tower a source unit belongs to. -/
def srcTowerOf (src : Nat) : Option Nat :=
  if src < 0x40 then some (src / 16) else if src < 0x50 then some ((src - 0x40) / 4)
  else if 0x80 ≤ src ∧ src < 0x100 then some ((src - 0x80) / 0x20) else none

/-- What a lockstep mismatch of a unit does (09 R308, R309, R313): `bit` is what its record takes. A unit with no
lockstep pair reacts at a level the manual leaves open (log 19). -/
def State.lockstep (s : State) (src bit : Nat) : State :=
  let io := (src - 0x100) / 0x20
  if src < 0x40 then s.modSpire src fun x => { x with mismatch := true }
  else if src < 0x50 then s.loseDome (src - 0x40) bit 0
  else if 0x80 ≤ src ∧ src < 0x100 ∧ src % 0x20 = 0x19 then (s.record src bit lvPackage {}).packageFrom src
  else if 0x100 ≤ src ∧ src < 0x140 ∧ src % 0x20 = 1 then s.loseCupola io bit src
  else if 0x100 ≤ src ∧ src < 0x140 ∧ src % 0x20 = 2 then s.loseLantern io bit 0
  else if 0x100 ≤ src ∧ src < 0x140 ∧ src % 0x20 = 3 then (s.record src bit lvUnit {}).engineQuarantine io
  else if 0x100 ≤ src ∧ src < 0x140 ∧ src % 0x20 = 4 then s.loseBuilder io bit
  else
    let (level, s) := s.openLevel
    (s.record src bit level {}).reactAt level (srcTowerOf src)

/-- The source unit of a duplicated unit. -/
def dupSource : DupUnit → Nat
  | .addrGen sp => sp.val
  | .domeSched d => srcDome d.val
  | .towerSched t => srcTower t.val 0x19
  | .batchBuilder side => srcIo side.val 4
  | .cupola side => srcIo side.val 1
  | .lantern l => srcIo l.val 2
  | .pairTester e => srcIo e.val 3
  | .nodePool e => srcIo e.val 3
  | .other src => src

/-- A unit is out of service and reports nothing. -/
def State.silentUnit (s : State) (src : Nat) : Bool :=
  let io := (src - 0x100) / 0x20
  if src < 0x40 then (s.spire src).quarantined
  else if src < 0x50 then tget false s.saf.domeOut (src - 0x40)
  else if src < 0x100 then false
  else if src % 0x20 = 1 then tget false s.saf.cupolaOut io
  else if src % 0x20 = 2 then (s.lantern io).out
  else if src % 0x20 = 3 then s.engOut io
  else if src % 0x20 = 4 then tget false s.saf.bbOut io
  else if 0x10 ≤ src % 0x20 ∧ src % 0x20 < 0x18 then tget false s.saf.portOut (8 * io + src % 0x20 - 0x10)
  else false

/-- LOCKSTEP_MISMATCH (09 R308, R309, R313; 05 R199): an address generator's is the next tile's check mismatch (02 R78). A
unit already out of service reports nothing. -/
def execLockstepMismatch (unit : DupUnit) (cfgParity : Bool) (s : State) : Host.Outcome State Fault Refusal :=
  match unit with
  | .addrGen sp =>
    let s := if cfgParity then s.record sp.val 35 lvMasked {} else s
    .next (if (s.spire sp.val).quarantined then s else s.lockstep sp.val 35)
  | .nodePool e => .next (s.searchParity e.val)
  | .domeSched d => .next (if tget false s.saf.domeOut d.val then s else s.lockstep (dupSource unit) 35)
  | .batchBuilder side => .next (if tget false s.saf.bbOut side.val then s else s.lockstep (dupSource unit) 35)
  | .cupola side => .next (if tget false s.saf.cupolaOut side.val then s else s.lockstep (dupSource unit) 35)
  | .lantern l => .next (if (s.lantern l.val).out then s else s.lockstep (dupSource unit) 35)
  | .pairTester e => .next (if s.engOut e.val then s else s.lockstep (dupSource unit) 35)
  | .towerSched _ => .next (s.lockstep (dupSource unit) 35)
  | .other src =>
    if !cfgParity || !srcUsed src || s.silentUnit src then .next s
    else .next ((if src < 0x40 then s.record src 35 lvMasked {} else s).lockstep src 35)

/-- CUPOLA_TAKEOVER (09 R321; 12 R421; 04 R113): the standby becomes active and continues every command from what is
committed; the Batch Builder of its die continues from the mirror while it is in service. With the standby out of service by then the package reacts. -/
def execCupolaTakeover (s : State) : Host.Outcome State Fault Refusal :=
  if !s.saf.takeover then .next s
  else if tget false s.saf.cupolaOut (1 - s.saf.active) then
    .next ((({ s with saf := { s.saf with takeover := false } }).record (srcIo s.saf.active 1) 35 lvPackage {}).packageAll)
  else
    let old := s.saf.active
    let s := { s with saf := { s.saf with
      takeover := false, active := 1 - old, cupolaOut := tput false s.saf.cupolaOut old true } }
    let s := s.record (srcIo old 1) 1 lvUnit {}
    if s.saf.bbActive = old ∧ ¬ tget false s.saf.bbOut (1 - old) then
      .next ({ s with saf := { s.saf with bbActive := 1 - old } }).reissueSteps
    else .next s

/-! ### Supply and clock monitors (09 R310) -/

/-- SUPPLY_EXCURSION (09 R310, R313; 16 R513, R515; 09 R322 for a Lantern's). -/
def execSupplyExcursion (rail : Rail) (s : State) : Host.Outcome State Fault Refusal :=
  match rail with
  | .spire t => .next ((s.record (srcTower t.val 0x18) 37 lvTower {}).towerQuarantine t.val)
  | .spireIsland sp =>
    if (s.spire sp.val).quarantined then .next s
    else .next ((s.record (srcTower (sp.val / 16) 0x18) 37 lvUnit { source := some sp.val }).quarantine sp.val)
  | .base => .next ((List.range 4).foldl (fun s t => (s.record (srcTower t 0x18) 37 lvPackage {}).packageFrom (srcTower t 0x18)) s)
  | .io => .next (((s.record (srcIo 0 0) 37 lvPackage {}).record (srcIo 1 0) 37 lvPackage {}).packageAll)
  | .lantern l => .next (((s.record (srcIo (1 - l.val) 0) 37 lvPackage {}).lanternOut l.val).packageAll)
  | .phy | .gpio =>
    let (level, s) := s.openLevel
    .next (((s.record (srcIo 0 0) 37 level {}).record (srcIo 1 0) 37 level {}).reactAt level none)
  | .dram =>
    let (level, s) := s.openLevel
    .next (((List.range 4).foldl (fun s t => s.record (srcTower t 0x18) 37 level {}) s).reactAt level none)

/-- Twice the cycles an island counts in 5 µs at its set frequency (01 R33). -/
def State.setCount (s : State) : Island → Nat
  | .spire sp => 625 * (s.spire sp.val).clk
  | .dome _ => 10000
  | .towerBase _ => 14000
  | .ioFabric _ => 12000
  | .lpddr _ => 12000
  | .cupola _ => 16000
  | .lantern _ => 5000
  | .phy side k => Config.phyCycles side.val (match k with
    | .pcie => 0
    | .twin => 1
    | .csi => 2
    | .ucie => 3)

/-- CLOCK_MONITOR_WINDOW (09 R310, R313): the cycles counted in 5 µs, more than 2 % from the set frequency. A Spire out of
service or without a clock has none to watch. A channel controller's clock is one of its base die (log 19); the manual gives no level for
those of the I/O dies' islands. -/
def execClockMonitorWindow (isl : Island) (count : Nat) (s : State) : Host.Outcome State Fault Refusal :=
  let set := s.setCount isl
  let off := ((2 * count : Nat) : Int) - set
  if off.natAbs * 50 ≤ set then .next s
  else match isl with
    | .spire sp =>
      if (s.spire sp.val).quarantined ∨ (s.spire sp.val).stopped then .next s
      else .next ((s.record (srcTower (sp.val / 16) 0x18) 38 lvUnit { source := some sp.val }).quarantine sp.val)
    | .dome d => .next ((s.record (srcTower (d.val / 4) 0x18) 38 lvTower { source := some (srcDome d.val) }).towerQuarantine (d.val / 4))
    | .towerBase t => .next ((s.record (srcTower t.val 0x18) 38 lvPackage {}).packageFrom (srcTower t.val 0x18))
    | .lpddr ch => .next ((s.record (srcTower (ch.val / 16) 0x18) 38 lvPackage { source := some (srcTower (ch.val / 16) (4 + ch.val % 16)) }).packageFrom
        (srcTower (ch.val / 16) 0x18))
    | .ioFabric side | .cupola side | .lantern side | .phy side _ =>
      let (level, s) := s.openLevel
      .next ((s.record (srcIo side.val 0) 38 level {}).reactAt level none)

/-- REFERENCE_CLOCK_LOSS (09 R313): both I/O dies' monitors report, the Lanterns, which run on their own crystals, react. -/
def execReferenceClockLoss (s : State) : Host.Outcome State Fault Refusal :=
  .next (((s.record (srcIo 0 0) 38 lvPackage {}).record (srcIo 1 0) 38 lvPackage {}).packageAll)

/-! ### Heartbeats and the cross-watch link (09 R318 to R320) -/

/-- A heartbeat reaches Lantern `l`, or is missing or malformed. -/
def State.heartbeat (s : State) (l key : Nat) (ok : Bool) : State :=
  if (s.lantern l).out then s
  else s.modLantern l fun x => { x with
    miss := tmod 0 x.miss key fun n => if ok then 0 else n + 1
    heard := if ok ∧ key ∉ x.heard then key :: x.heard else x.heard }

/-- TOWER_MONITOR_HEARTBEAT (09 R318). -/
def execTowerMonitorHeartbeat (t : Fin 4) (l : Fin 2) (ok : Bool) (s : State) : Host.Outcome State Fault Refusal :=
  .next (s.heartbeat l.val t.val ok)

/-- CUPOLA_HEARTBEAT (09 R318). -/
def execCupolaHeartbeat (side l : Fin 2) (ok : Bool) (s : State) : Host.Outcome State Fault Refusal :=
  .next (s.heartbeat l.val (4 + side.val) ok)

/-- HB_LOST (09 R318, R313): three heartbeats in a row were missing or malformed. -/
def execHbLost (src : HbSource) (l : Fin 2) (s : State) : Host.Outcome State Fault Refusal :=
  let key := match src with
    | .towerMonitor t => t.val
    | .cupola side => 4 + side.val
  if (s.lantern l.val).out ∨ tget 0 (s.lantern l.val).miss key < 3 then .next s
  else
    let s := s.modLantern l.val fun x => { x with miss := tput 0 x.miss key 0 }
    match src with
    | .towerMonitor _ =>
      let s := s.record (srcIo l.val 2) 36 lvPackage {}
      .next (s.packageDecision l.val s.recs.seq)
    | .cupola side =>
      if tget false s.saf.cupolaOut side.val ∨ (s.saf.takeover ∧ side.val = s.saf.active) then .next s
      else .next (s.loseCupola side.val 36 (srcIo l.val 2))

/-- CROSS_WATCH_SEND (09 R319): a frame goes out with the next sequence number, its own level and the heartbeats seen
since the last one. A Lantern out of service sends none. -/
def execCrossWatchSend (l : Fin 2) (s : State) : Host.Outcome State Fault Refusal :=
  if (s.lantern l.val).out then .next s
  else .next (s.modLantern l.val fun x => { x with
    cwSeq := x.cwSeq + 1, cwOut := some (x.cwSeq, x.level, x.heard), heard := [] })

/-- CROSS_WATCH_FRAME (09 R319, R320): Lantern `l` receives a frame of its partner with the partner's reaction level, or a
missing or bad one; a PACKAGE decision is adopted. -/
def execCrossWatchFrame (l : Fin 2) (ok : Bool) (level : Fin 6) (s : State) : Host.Outcome State Fault Refusal :=
  if (s.lantern l.val).out then .next s
  else if !ok then .next (s.modLantern l.val fun x => { x with cwMiss := x.cwMiss + 1 })
  else
    let s := s.modLantern l.val fun x => { x with cwMiss := 0 }
    .next (if level.val = 5 then s.packageDecision l.val s.recs.seq else s)

/-- PEER_SILENT (09 R319, R313): three frames in a row were missing or bad. -/
def execPeerSilent (l : Fin 2) (s : State) : Host.Outcome State Fault Refusal :=
  let x := s.lantern l.val
  if x.out ∨ x.peerLost ∨ x.cwMiss < 3 then .next s
  else
    let s := s.modLantern l.val fun x => { x with peerLost := true }
    let s := s.record (srcIo l.val 2) 36 lvPackage { detail := 7 }
    .next (s.packageDecision l.val s.recs.seq)

/-- Take a unit out of service until the reset named for it (09 R312, R313). -/
def State.unitOut (s : State) (src : Nat) : State :=
  if src < 0x40 then s.quarantine src
  else if src < 0x50 then s.domeOutOfService (src - 0x40)
  else if src < 0x100 ∨ 0x140 ≤ src then s
  else
    let io := (src - 0x100) / 0x20
    if src % 0x20 = 1 then
      if io = s.saf.active then { s with saf := { s.saf with takeover := true } }
      else { s with saf := { s.saf with cupolaOut := tput false s.saf.cupolaOut io true } }
    else if src % 0x20 = 3 then s.engineQuarantine io
    else if src % 0x20 = 4 then
      if io = s.saf.bbActive then
        ({ s with saf := { s.saf with bbOut := tput false s.saf.bbOut io true, bbActive := 1 - io } }).reissueSteps
      else { s with saf := { s.saf with bbOut := tput false s.saf.bbOut io true } }
    else if 0x10 ≤ src % 0x20 ∧ src % 0x20 < 0x18 then
      { s with saf := { s.saf with portOut := tput false s.saf.portOut (8 * io + src % 0x20 - 0x10) true } }
    else s

/-- LANTERN_DECISION (09 R312, R313, R320): Lantern `l` decides on a report by itself. A TASK or MASKED level asks nothing more
of it. -/
def execLanternDecision (l : Fin 2) (rep : Report) (s : State) : Host.Outcome State Fault Refusal :=
  if (s.lantern l.val).out then .next s
  else
    let raise (n : Nat) (s : State) : State := s.modLantern l.val fun x => { x with level := max x.level n }
    match rep with
    | .masked => .next s
    | .task => .next (raise 1 s)
    | .unitLoss src => .next ((raise 2 s).unitOut src)
    | .partition p => .next (if (s.part p.val).live then (raise 3 s).degrade p.val else s)
    | .tower t => .next (if tget false s.saf.towerQ t.val then s else (raise 4 s).towerQuarantine t.val)
    | .package => .next (s.packageDecision l.val s.recs.seq)

/-! ### Tower Links (01 R19 to R22) -/

/-- The number of an edge. -/
def edgeKey : Edge → Nat
  | .cw t => t.val
  | .io side q => 4 + 2 * side.val + q.val

/-- The port that records an edge's errors: the clockwise port of the Tower, or the port of the I/O die (09 R343). -/
def edgeSource : Edge → Nat
  | .cw t => srcTower t.val 0x15
  | .io side q => srcIo side.val (0x0B + q.val)

/-- The modules of an edge (01 R19). -/
def edgeModules : Edge → Nat
  | .cw _ => 4
  | .io _ _ => 2

/-- TOWER_LINK_CRC_RETRY (01 R21, 09 R313). -/
def execTowerLinkCrcRetry (e : Edge) (s : State) : Host.Outcome State Fault Refusal :=
  .next (s.record (edgeSource e) 26 lvMasked {})

/-- The modules of an edge that are removed, as a mask. -/
def State.lostMask (s : State) (e : Edge) : Nat := tget 0 s.saf.modulesLost (edgeKey e)

/-- No module of an edge works. -/
def State.edgeDown (s : State) (e : Edge) : Bool :=
  (List.range (edgeModules e)).all fun i => (s.lostMask e).testBit i

/-- LANE_FAILURE (01 R21, R22; 09 R313): runtime lane repair, or the module is removed; an edge with none left is a Tower
Link failure. -/
def execLaneFailure (e : Edge) (mdl : Fin 4) (repaired : Bool) (s : State) : Host.Outcome State Fault Refusal :=
  if edgeModules e ≤ mdl.val ∨ (s.lostMask e).testBit mdl.val then .next s
  else if repaired then
    .next (({ s with saf := { s.saf with lanesBad := tmod 0 s.saf.lanesBad (4 * edgeKey e + mdl.val) fun n => n + 1 } }).record
      (edgeSource e) 27 lvMasked {})
  else
    let s := { s with saf := { s.saf with
      modulesLost := tmod 0 s.saf.modulesLost (edgeKey e) fun n => n ||| 2 ^ mdl.val } }
    let s := s.record (edgeSource e) 27 lvUnit {}
    if s.edgeDown e then .next ((s.record (edgeSource e) 28 lvPackage {}).packageFrom (edgeSource e)) else .next s

/-! ### Test windows (09 R339) -/

/-- A test window may open now: an engine's checker only in slots 96 and 196, engine 0 in their first half, engine 1 in their second, so
that the two never overlap (05 R198; 09 R338). -/
def State.windowDue (s : State) (unit : TestUnit) : Bool :=
  match unit with
  | .engine e =>
    let t := s.saf.test
    let late := s.clk.elapsed - (t.rotation * 200 + t.slot) * 1000000
    t.enabled && decide (t.slot % 100 = 96) && !s.ownWindow (1 - e.val) &&
      (if e.val = 0 then decide (late < 500000) else decide (500000 ≤ late))
  | _ => true

/-- TEST_WINDOW (09 R339): a Spire's task is not charged for the time of its window, and a window of a Planning Engine
makes the other engine check alone (05 R198). -/
def execTestWindow (unit : TestUnit) (opens : Bool) (s : State) : Host.Outcome State Fault Refusal :=
  let ws := s.saf.test.windows
  if decide (unit ∈ ws) = opens ∨ (opens ∧ ¬ s.windowDue unit) then .next s
  else
    let s1 := match unit, opens with
      | .spire sp, true => s.settle sp.val
      | .spire sp, false =>
        match (s.spire sp.val).job with
        | some (j, i) => s.modTask j i fun t => { t with since := s.clk.elapsed }
        | none => s
      | _, _ => s
    .next { s1 with saf := { s1.saf with test := { s1.saf.test with
      windows := if opens then unit :: ws else ws.filter fun u => u ≠ unit } } }

end Sys2Proof.Machine
end

