-- ==== Sys2Proof/Machine/Dual.lean ====
section
/-! DEFINITION. DUAL execution (09 R331 to R337) and the rotating self-test (09 R338 to R342). -/

namespace Sys2Proof.Machine

/-- The two instances agree (09 R333, R334): every signature equal, or equal counts each at most its pair's MAX_OUT. -/
def State.agrees (s : State) (j : Nat) (a b : List Nat) : Bool :=
  let x := s.job j
  decide (a = b) && !x.shadowFailed &&
    (decide (x.dual ≠ 2) || match tget none (s.part x.part).images x.image with
      | some i => decide (a.length = i.facts.maxOut.length) && (a.zip i.facts.maxOut).all fun (v : Nat × Nat) => decide (v.1 ≤ v.2)
      | none => false)

/-- A disagreement (09 R335, R336): DUAL_EXEC in the records of the Lanterns in service, the completion's flag, and the
escalation when K of the last N major frames hold one. The standby of a DUAL_COMPARE partition only arbitrates (10 R358). -/
def State.disagree (s : State) (j : Nat) : State :=
  let p := (s.job j).part
  let d := (s.part p).dual
  let now := s.sch.frame.no
  let frames := (now :: d.frames.filter fun f => decide (f ≠ now)).filter fun f => decide (now < f + d.n)
  let hit := decide (d.k ≤ frames.length)
  if s.compareStandby p then
    s.modPart p fun x => { x with dual := { x.dual with frames := frames, arb := x.dual.arb || hit } }
  else
  let level := if hit then lvPartition else lvTask
  let s := [0, 1].foldl (fun s l => if (s.lantern l).out then s else s.record (srcIo l 2) 32 level { part := some p }) s
  let s := s.modPart p fun x => { x with dual := { x.dual with frames := frames, arb := x.dual.arb || hit } }
  let s := s.modJob j fun b => if d.flag then { b with dualFlag := true } else { b with withheld := true }
  if hit then s.degrade p else s

/-- Both instances' signatures have reached the Lanterns: they compare them and the completion may be posted (09 R335). -/
def State.compareDual (s : State) (j : Nat) : State :=
  match (s.job j).sigsP, (s.job j).sigsS with
  | some a, some b =>
    if (s.job j).compared then s
    else
      let s := if s.agrees j a b then s else s.disagree j
      (s.modJob j fun x => { x with compared := true }).closeJob j
  | _, _ => s

/-- DUAL_SIGNATURE (09 R333 to R335): an instance's signatures or counts reach both Lanterns. For a shadow instance that has
failed it is the report of its failure. Those of a DUAL_COMPARE launch also go to the partner (10 R358). -/
def execDualSignature (job : Nat) (shadow : Bool) (sigs : List Nat) (s : State) : Host.Outcome State Fault Refusal :=
  let b := s.job job
  if b.live ∧ b.dual ≠ 0 ∧ ¬ b.compared ∧ ¬ (b.dual = 3 ∧ shadow) then
    let s := if b.dual = 3 then s.send (.signatures (Fin.ofNat 16 b.part) b.step sigs) else s
    .next ((s.modJob job fun b =>
      if shadow then { b with sigsS := some (if b.shadowFailed then [] else sigs) } else { b with sigsP := some sigs }).compareDual job)
  else .next s

/-- The Towers that hold a Dome of a mask. -/
def towersOf (domes : BitVec 16) : List Nat :=
  filterLow (fun t => (List.range 4).any fun i => domes.getLsbD (4 * t + i)) 4

/-- DUAL_ARBITRATION (09 R337): the Golden Tile has run once more on every Spire of both instances; `bad` are those that
mismatch. The Towers of an instance with a mismatch react at TOWER level. -/
def execDualArbitration (p : Fin 16) (bad : List Nat) (s : State) : Host.Outcome State Fault Refusal :=
  let x := s.part p.val
  if x.live ∧ x.dual.arb then
    let prim := x.domes &&& ~~~ x.dual.shadow
    let bad := bad.filter fun sp => decide (sp < 64) && x.domes.getLsbD (sp / 4) && !(s.spire sp).quarantined
    let guilty (m : BitVec 16) : List Nat := if bad.any fun sp => m.getLsbD (sp / 4) then towersOf m else []
    let s := s.modPart p.val fun x => { x with dual := { x.dual with arb := false } }
    let s := bad.foldl (fun s sp => s.record sp 31 lvTower { part := some p.val }) s
    .next ((guilty prim ++ guilty x.dual.shadow).foldl (fun s t => if tget false s.saf.towerQ t then s else s.towerQuarantine t) s)
  else .next s

/-! ### The rotating self-test -/

/-- The source units a slot tests (09 R338). -/
def slotUnits (slot : Nat) : List Nat :=
  let k := slot % 100
  if k < 64 then [k]
  else if k < 80 then [srcDome (k - 64)]
  else if k < 96 then
    let t := (k - 80) / 4
    match (k - 80) % 4 with
    | 0 => (List.range 4).map fun i => srcTower t i
    | 1 => (List.range 8).map fun i => srcTower t (4 + i)
    | 2 => (List.range 8).map fun i => srcTower t (12 + i)
    | _ => [0x14, 0x15, 0x16, 0x17, 0x18].map fun u => srcTower t u
  else if k = 96 then [srcIo 0 3, srcIo 1 3]
  else if k = 97 then (List.range 16).map fun i => srcIo (i / 8) (0x10 + i % 8)
  else if k = 98 then [0, 1].flatMap fun d => [0, 1, 4, 5, 6, 9].map fun u => srcIo d u
  else [srcIo 0 2, srcIo 1 2]

/-- A unit is quarantined or out of service and its test is skipped (09 R339). -/
def State.skipped (s : State) (src : Nat) : Bool :=
  let io := (src - 0x100) / 0x20
  if src < 0x40 then (s.spire src).quarantined
  else if src < 0x50 then tget false s.saf.domeOut (src - 0x40) || tget false s.saf.towerQ ((src - 0x40) / 4)
  else if src < 0x100 then
    decide (src % 0x20 < 4) && tget false s.mem.bankOff (4 * ((src - 0x80) / 0x20) + src % 0x20)
  else if src % 0x20 = 1 then tget false s.saf.cupolaOut io
  else if src % 0x20 = 2 then (s.lantern io).out
  else if src % 0x20 = 3 then s.engOut io
  else if src % 0x20 = 4 then tget false s.saf.bbOut io
  else if 0x10 ≤ src % 0x20 ∧ src % 0x20 < 0x18 then
    tget false s.saf.portOut (8 * io + src % 0x20 - 0x10) || tget false s.cam.portOff (8 * io + src % 0x20 - 0x10)
  else false

/-- A checker of a unit fails its test (09 R340): SELFTEST in its record with the slot, and the unit's reaction. -/
def State.selftestFail (s : State) (src slot : Nat) : State :=
  let io := (src - 0x100) / 0x20
  let note : Note := { detail := slot }
  if src < 0x40 then (s.record src 33 lvUnit note).quarantine src
  else if src < 0x50 then s.loseDome (src - 0x40) 33 slot
  else if src < 0x100 then (s.record src 33 lvPackage note).packageFrom src
  else if src % 0x20 = 1 ∧ io ≠ s.saf.active then (s.record src 33 lvUnit note).unitOut src
  else if src % 0x20 = 2 then s.loseLantern io 33 slot
  else if src % 0x20 = 3 then (s.record src 33 lvUnit note).engineQuarantine io
  else if 0x10 ≤ src % 0x20 ∧ src % 0x20 < 0x18 then s.losePort (8 * io + src % 0x20 - 0x10) 33 slot
  else (s.record src 33 lvPackage note).packageFrom src

/-- SELFTEST_SLOT (09 R338 to R342): the slot in progress ends; `fails` are the source units a checker of which did not
report its injected error. Results: 0 not run (the rotation is disabled), 1 pass, 2 fail, 3 skipped (13 R453). -/
def execSelftestSlot (fails : List Nat) (s : State) : Host.Outcome State Fault Refusal :=
  let t := s.saf.test
  let s := s.elapse ((t.rotation * 200 + t.slot + 1) * 1000000 - s.clk.elapsed)
  let units := (slotUnits t.slot).filter fun u => !s.skipped u
  let bad := units.filter fun u => t.enabled && decide (u ∈ fails)
  let res := if !t.enabled then 0 else if !bad.isEmpty then 2 else if units.isEmpty then 3 else 1
  let now := tput 0 t.now t.slot res
  let t' : SelfTest := if t.slot = 199
    then { t with slot := 0, rotation := t.rotation + 1, now := [], last := some (t.rotation, s.clk.ctc, now) }
    else { t with slot := t.slot + 1, now := now }
  let s := { s with saf := { s.saf with test := t' } }
  .next (bad.foldl (fun s u => s.selftestFail u t.slot) s)

end Sys2Proof.Machine
end

