-- ==== Sys2Proof/Machine/Errors.lean ====
section
/-! DEFINITION. Reading and clearing error records (09 R343 to R350; 13 R452), SELFTEST_STATUS (R453), and the commands a
safety mailbox serves (12 R431, R432). -/

namespace Sys2Proof.Machine

/-! ### Commands of a safety mailbox -/

/-- SM_RSP_HDR (12 R431). -/
def smHdr (status detail tag length state : Nat) : W64 :=
  BitVec.ofNat 64 (status % 2 ^ 16 + detail % 2 ^ 16 * 2 ^ 16 + tag * 2 ^ 32 + length * 2 ^ 48 + state * 2 ^ 56)

/-- Its state: 0 idle, 1 busy, 2 done. -/
def I3cTarget.state (t : I3cTarget) : Nat := bits t.rspHdr 63 56

/-- A field of SM_CMD_HDR (offset from 0x60). -/
def I3cTarget.cmdNat (t : I3cTarget) (off n : Nat) : Nat := memNat t.cmd (0x60 + off) n

/-- Complete the command of a safety mailbox (12 R431). -/
def State.smComplete (s : State) (l status detail : Nat) (out : List Byte) : State :=
  s.modSm l fun t => { t with rspHdr := smHdr status detail (t.cmdNat 2 2) out.length 2, rsp := out }

/-- The context of a safety mailbox's command. -/
def State.smCtx (s : State) (l : Nat) : Ctx :=
  let t := s.sm l
  { m := 64 + l, part := 0, pl := memBytes t.cmd 0x68 (t.cmdNat 4 1), i3c := true, ep := l }

/-- The length of an opcode's payload holds (13 R434). -/
def lengthOk (op n : Nat) : Bool :=
  match opcodeInfo op with
  | some (_, some k) => decide (n = k)
  | _ => true

/-- A Lantern serves its safety mailbox's command when it is busy with an opcode of this row (12 R432). -/
def State.smLmp (s : State) (l : Nat) (op : Nat) (body : Ctx → State → LmpRes) : State :=
  let t := s.sm l
  if t.state ≠ 1 ∨ t.cmdNat 0 2 ≠ op then s
  else if !lengthOk op (t.cmdNat 4 1) then s.smComplete l stArg 0xFFFF []
  else match body (s.smCtx l) s with
    | .done status detail out s => s.smComplete l status detail out
    | .wait _ s => s

/-- A command of a mailbox or of a safety mailbox. -/
def State.lmpAny (s : State) (src : CmdSrc) (op : Nat) (body : Ctx → State → LmpRes) : State :=
  match src with
  | .mbx m => s.lmp m.val (isOp op) body
  | .sm l => s.smLmp l.val op body

/-! ### Records -/

/-- A record as eight words (09 R344). -/
def Rec.words (r : Rec) (src : Nat) : List Nat :=
  [r.sticky.toNat,
   r.gen * 2 ^ 56 + r.level * 2 ^ 48 + src * 2 ^ 32 + r.count,
   r.firstCtc, r.lastCtc,
   r.firstBit * 2 ^ 56 + r.firstDetail * 2 ^ 48 + r.firstAddr,
   r.lastBit * 2 ^ 56 + r.lastDetail * 2 ^ 48 + r.lastAddr,
   r.tagPartition * 2 ^ 56 + r.tagSource * 2 ^ 40 + r.masked,
   r.seq]

/-- The mirror a reader is served from: a Lantern's own, or for a mailbox that of Lantern A, B while A is out (09 R348; 13
R452). -/
def State.mirror (s : State) (c : Ctx) : Tab Rec :=
  let l := if c.i3c then c.m - 64 else s.poster
  if l = 0 then s.recs.mirrorA else s.recs.mirrorB

/-- The source unit numbers in use from `a` up. -/
def sourcesFrom (a : Nat) : List Nat := filterLow (fun n => srcUsed n && decide (a ≤ n)) 0x140

/-- ERRORS_READ (13 R452). -/
def errorsReadBody (c : Ctx) (s : State) : LmpRes :=
  let n := c.u8 2
  checked s [(if c.i3c then decide (n = 1) else decide (1 ≤ n) && decide (n ≤ 62), 2),
      (decide (c.u8 3 < 2), 3), (decide (c.fld 4 4 = 0), 4)] [] fun _ =>
    let all := (sourcesFrom (c.u16 0)).filter fun u =>
      decide (c.u8 3 = 0) || decide ((tget {} (s.mirror c) u).sticky ≠ 0)
    let got := all.take n
    let next := if got.length < n then none else match got.getLast? with
      | some u => (sourcesFrom (u + 1)).head?
      | none => none
    .done stOk 0 (le 2 got.length ++ le 2 (next.getD 0xFFFF) ++ le 4 0 ++
      got.flatMap fun u => ((tget {} (s.mirror c) u).words u).flatMap fun w => le 8 w) s

/-- ERRORS_READ. -/
def execErrorsRead (src : CmdSrc) (s : State) : Host.Outcome State Fault Refusal :=
  .next (s.lmpAny src 0x0071 errorsReadBody)

/-- Bits whose condition still holds, which a clear leaves (09 R347). -/
def State.heldBits (s : State) (src : Nat) : W64 :=
  let q := if src < 0x40 then (s.spire src).quarantined
    else if src < 0x50 then tget false s.saf.domeOut (src - 0x40) || tget false s.saf.kvOut (src - 0x40) ||
      tget false s.saf.sorterOut (src - 0x40)
    else if 0x100 ≤ src ∧ src % 0x20 = 3 then s.engOut ((src - 0x100) / 0x20)
    else false
  let edges : List Edge := [.cw 0, .cw 1, .cw 2, .cw 3, .io 0 0, .io 0 1, .io 1 0, .io 1 1]
  let lf := edges.any fun e => decide (edgeSource e = src) && s.edgeDown e
  BitVec.ofNat 64 ((if q then 2 ^ 22 else 0) + (if lf then 2 ^ 28 else 0) + 2 ^ 34)

/-- The record after ERRORS_CLEAR of a mask (09 R347). -/
def Rec.clear (r : Rec) (mask held : W64) (seq : Nat) : Rec :=
  let left := r.sticky &&& ~~~ (mask &&& ~~~ held)
  let r := { r with sticky := left, gen := (r.gen + 1) % 256, seq := seq }
  if left = 0 then { sticky := 0, gen := r.gen, seq := seq } else r

/-- ERRORS_CLEAR (09 R347; 13 R452). -/
def errorsClearBody (c : Ctx) (s : State) : LmpRes :=
  let src := c.u16 0
  let r := s.errRec src
  checked s [(srcUsed src, 0), (decide (c.fld 3 5 = 0), 3)] [(decide (c.u8 2 ≠ r.gen), stStale, 2)] fun _ =>
    let seq := (s.recs.seq + 1) % 2 ^ 32
    let r := r.clear (BitVec.ofNat 64 (c.u64 8)) (s.heldBits src) seq
    let s := ({ s with recs := { s.recs with seq := seq } }).putRec src r
    .done stOk 0 (le 8 r.sticky.toNat ++ le 8 r.gen) s

/-- ERRORS_CLEAR. -/
def execErrorsClear (src : CmdSrc) (s : State) : Host.Outcome State Fault Refusal :=
  .next (s.lmpAny src 0x0072 errorsClearBody)

/-- SELFTEST_STATUS (09 R342; 13 R453). -/
def selftestStatusBody (_ : Ctx) (s : State) : LmpRes :=
  let t := s.saf.test
  match t.last with
  | none => .refuse stState 0 s
  | some (rot, ctc, res) =>
    let slots := (List.range 50).map fun i =>
      BitVec.ofNat 8 ((List.range 4).foldl (fun a k => a + tget 0 res (4 * i + k) * 4 ^ k) 0)
    .done stOk 0 (le 4 rot ++ le 1 (if t.enabled then 1 else 0) ++ le 1 (if t.everDisabled then 1 else 0) ++ le 2 0 ++
      le 8 ctc ++ slots ++ le 1 t.loopback ++ le 5 0) s

/-- SELFTEST_STATUS. -/
def execSelftestStatus (src : CmdSrc) (s : State) : Host.Outcome State Fault Refusal :=
  .next (s.lmpAny src 0x0073 selftestStatusBody)

/-- A word of STICKY_SUMMARY by its offset (09 R350). -/
def State.stickySummary (s : State) (off : Nat) : Nat :=
  if off % 8 = 0 ∧ off < 0x28 then
    (List.range 64).foldl (fun a b => a + if (s.errRec (8 * off + b)).sticky ≠ 0 then 2 ^ b else 0) 0
  else if off = 0x28 then (s.recs.file.foldl (fun a (x : Nat × Rec) => max a x.2.level) 0) * 2 ^ 32 + s.recs.seq
  else 0

end Sys2Proof.Machine
end

