-- ==== Sys2Proof/Machine/Gather.lean ====
section
/-! DEFINITION. The KV Gather Units: gathers, expansion, appends and address translation (04 R120 to R132, R525). -/

namespace Sys2Proof.Machine

/-! ### Translation -/

/-- Use a translation: the micro-TLB's entry becomes the most recent of 64 (04 R128). -/
def State.touchMicro (s : State) (dome slot vpn ppn : Nat) : State :=
  { s with seq := { s.seq with micro := tmod [] s.seq.micro dome fun (l : List (Nat × Nat × Nat)) =>
      ((slot, vpn, ppn) :: l.filter fun x => !(decide (x.1 = slot) && decide (x.2.1 = vpn))).take 64 } }

/-- The key of a Page Walker's TLB set (04 R128). -/
def tlbKey (dome slot vpn : Nat) : Nat := 64 * (dome / 4) + (slot ^^^ vpn) % 64

/-- The same for the Page Walker's set of 8 ways. -/
def State.touchTlb (s : State) (dome slot vpn ppn : Nat) : State :=
  { s with seq := { s.seq with tlb := tmod [] s.seq.tlb (tlbKey dome slot vpn) fun (l : List (Nat × Nat × Nat)) =>
      ((slot, vpn, ppn) :: l.filter fun x => !(decide (x.1 = slot) && decide (x.2.1 = vpn))).take 8 } }

/-- Discard a slot's translation of a page. -/
def State.discard (s : State) (dome slot vpn : Nat) : State :=
  let drop (l : List (Nat × Nat × Nat)) := l.filter fun x => !(decide (x.1 = slot) && decide (x.2.1 = vpn))
  { s with seq := { s.seq with
    micro := tmod [] s.seq.micro dome drop, tlb := tmod [] s.seq.tlb (tlbKey dome slot vpn) drop } }

/-- Find a translation in a structure. -/
def lookup (l : List (Nat × Nat × Nat)) (slot vpn : Nat) : Option Nat :=
  (l.find? fun x => decide (x.1 = slot) && decide (x.2.1 = vpn)).map fun x => x.2.2

/-- What a translation gives: a page, a page fault, or an uncorrectable entry. -/
inductive Trans where
  | page (ppn : Nat)
  | fault
  | bad (a : Nat)
  deriving DecidableEq, Repr

/-- The page an entry translates to, unless the translation fails (04 R131). -/
def State.walk (s : State) (slot vpn : Nat) : Trans :=
  let q := s.sq slot
  let e := s.pte slot (if s.inStep slot then q.snap else q.active) vpn
  if q.ptLen ≤ vpn ∨ ¬ pteV e ∨ pteHost e ∨ ¬ (s.part q.part).inPool (ptePpn e) then .fault else .page (ptePpn e)

/-- Who walks for a task of Spire `sp`: the Page Walker of its Tower (04 R127). -/
def walkerOf (sp : Nat) : Requester := .walker ⟨sp / 16 % 4, Nat.mod_lt _ (by decide)⟩ ⟨sp % 64, Nat.mod_lt _ (by decide)⟩

/-- The KV Gather Unit that works for a task of Spire `sp`. -/
def gatherOf (sp : Nat) : Requester := .gather ⟨sp / 4 % 16, Nat.mod_lt _ (by decide)⟩ ⟨sp % 64, Nat.mod_lt _ (by decide)⟩

/-- Read the entry of the active copy and translate (04 R128, R130): for Spire `sp`, by the Page Walker, or in DMA_LIST mode by DMA channel 3
of its Dome; the bytes go to the partition (log 112). -/
def State.readPte (s : State) (sp slot vpn : Nat) : State × Trans :=
  let q := s.sq slot
  if q.ptLen ≤ vpn then (s, .fault)
  else
    let a := q.pteDa (if s.inStep slot then q.snap else q.active) vpn
    let o := if (s.part q.part).dmaList then { s.origin (gatherOf sp) with client := none } else s.origin (walkerOf sp)
    let s := s.fetch o a 4 []
    if s.anyBad a 4 then (s, .bad a) else (s, s.walk slot vpn)

/-- Translate for Spire `sp` (04 R127, R128, R130). -/
def State.translate (s : State) (sp slot vpn : Nat) : State × Trans :=
  let dome := sp / 4
  if (s.part (s.sq slot).part).dmaList then s.readPte sp slot vpn
  else match lookup (tget [] s.seq.micro dome) slot vpn with
    | some p => (s.touchMicro dome slot vpn p, .page p)
    | none =>
      match lookup (tget [] s.seq.tlb (tlbKey dome slot vpn)) slot vpn with
      | some p => ((s.touchTlb dome slot vpn p).touchMicro dome slot vpn p, .page p)
      | none => match s.readPte sp slot vpn with
        | (s, .page p) => ((s.touchTlb dome slot vpn p).touchMicro dome slot vpn p, .page p)
        | r => r

/-- A page fault (04 R131): the unit that translated records it and the task ends. -/
def State.pageFault (s : State) (dome slot : Nat) (t : TaskId) (sp : Nat) : State :=
  let u := if (s.part (s.sq slot).part).dmaList then srcDome dome else srcTower (dome / 4) 0x14
  (s.record u 16 lvTask { part := some (s.sq slot).part, source := some sp }).failRun t u 16

/-- A translation that gives no page ends the task that needs it: with a page fault, or with a memory fault (04 R131; 07 R242). -/
def State.transFault (s : State) (dome slot : Nat) (t : TaskId) (sp : Nat) : Trans → State
  | .bad a => s.memFault (if (s.part (s.sq slot).part).dmaList then gatherOf sp else walkerOf sp) a
  | _ => s.pageFault dome slot t sp

/-- Dome `d`'s gathers in hand. -/
def State.gathers (s : State) (d : Nat) : List Gather := tget [] s.seq.gathers d

/-- Replace them. -/
def State.setGathers (s : State) (d : Nat) (g : List Gather) : State :=
  { s with seq := { s.seq with gathers := tput [] s.seq.gathers d g } }

/-! ### Gathers -/

/-- Fields of a KV_GATHER_DESC (04 R120). -/
structure GatherDesc where
  handle : Nat
  layer : Nat
  deliv : Nat
  rel : Nat
  mode : Nat
  first : Nat
  count : Nat
  dest : Nat
  ring : Nat
  col0 : Nat
  cols : Nat
  wOff : Nat
  ofmt : Nat
  rsvOk : Bool
  deriving DecidableEq, Repr

/-- Read a descriptor. -/
def gatherFields (ws : List W64) : GatherDesc :=
  let w (i : Nat) : W64 := ws.getD i 0
  { handle := bits (w 0) 63 32, layer := bits (w 0) 31 16, deliv := bits (w 0) 13 8, rel := bits (w 0) 7 2
    mode := bits (w 0) 1 0, first := bits (w 1) 63 32, count := bits (w 1) 31 0, dest := bits (w 2) 51 0
    ring := bits (w 3) 63 48, col0 := bits (w 3) 47 40, cols := bits (w 3) 39 32, wOff := bits (w 3) 31 14 * 64
    ofmt := bits (w 3) 9 8
    rsvOk := decide (bits (w 0) 15 14 = 0) && decide (bits (w 2) 63 52 = 0) && decide (bits (w 3) 13 10 = 0) &&
      decide (bits (w 3) 7 0 = 0) }

/-- The latent format (04 R114). -/
def latentFmt : Nat → Fmt
  | 0 => .e4m3 | 1 => .e5m2 | _ => .bf16

/-- The format of expanded output (04 R120). -/
def outFmtOf : Nat → Fmt
  | 1 => .e4m3 | 2 => .e5m2 | _ => .bf16

/-- Bytes of a row of a gather tile (04 R525). -/
def gatherRow (d : GatherDesc) (q : Seq) : Nat :=
  if d.mode = 0 then q.rowBytes else d.cols * 64 * (if d.ofmt = 0 then 2 else 1)

/-- Bytes of a gather tile (04 R525). -/
def gatherTile (d : GatherDesc) (q : Seq) : Nat := (if d.mode = 3 then 64 else 32) * gatherRow d q

/-- Bytes of a group of 64 columns of expansion weights (04 R525). -/
def weightGroup (wf : Fmt) (dc : Nat) : Nat :=
  roundUp (dc * 64 * (fmtBits wf / 8) + if fmtMx wf then dc / 32 * 64 else 0) 64

/-- The pairing of an expansion is one of 04 R122. -/
def expandPairing (lf wf : Fmt) : Bool :=
  if lf = .bf16 then decide (wf = .bf16) else isFp8 wf || decide (wf = .mxE4m3) || decide (wf = .mxE5m2)

/-- Tokens at step start and tokens the step appends (04 R121). -/
def State.stepTokens (s : State) (slot : Nat) : Nat × Nat :=
  let q := s.sq slot
  if s.inStep slot then (q.l0, q.a) else (q.length, 0)

/-- Where a Dome Store's weights start for a partition (04 R120), and their limit. -/
def State.storeSlice (s : State) (p d : Nat) : Nat × Nat :=
  let x := s.part p
  if x.priv then (domeStoreBase + d * 0x1000000, 0x1000000)
  else (domeStoreBase + d * 0x1000000 + x.storeOff * mib, x.storeMib * mib)

/-- The checks of 04 R121, made before any access. A weight format that forms none of the pairings of R122 is out of range too (log 127). -/
def State.gatherOk (s : State) (p dome : Nat) (d : GatherDesc) (wf : Fmt) : Bool :=
  let slot := slotOf d.handle
  let q := s.sq slot
  let t := s.stepTokens slot
  let groups := if d.mode = 3 then 2 else 1
  s.liveHandle p d.handle && decide (d.layer < q.nl) && decide (d.first + d.count ≤ t.1 + t.2) && decide (1 ≤ d.count) &&
    decide (2 ≤ d.ring) && d.rsvOk && decide (d.dest % 64 = 0) && decide (d.dest < 2 ^ 22) &&
    decide (d.dest + d.ring * gatherTile d q ≤ 0x400000) &&
    (if d.mode = 0 then decide (d.col0 = 0) && decide (d.cols = 0) && decide (d.wOff = 0) && decide (d.ofmt = 0)
     else decide (1 ≤ d.cols) && decide (d.ofmt ≤ 2) && expandPairing (latentFmt q.lfmt) wf &&
       decide (d.wOff + (d.col0 + d.cols) * groups * weightGroup wf (64 * q.dc64) ≤ (s.storeSlice p dome).2))

/-- GATHER_REQUEST (04 R121, R124, R525): refused with a gather fault before any access, or begun. A task that waits asks for nothing. -/
def execGatherRequest (sp : Fin 64) (desc : List W64) (wf : Fmt) (tensor : Nat) (s : State) : Host.Outcome State Fault Refusal :=
  match s.running sp.val with
  | none => .next s
  | some (j, i) =>
    let dome := sp.val / 4
    let p := (s.job j).part
    let d := gatherFields desc
    if (s.task j i).waitSince.isSome then .next s
    else if s.gatherOk p dome d wf then
      let g : Gather := { sp := sp.val, desc := desc, wf := wf, tensor := tensor
                          rel0 := ((tget 0 s.sch.ctrs (64 * dome + d.rel) : Nat) : Int), task := s.taskId j i }
      .next (s.setGathers dome (s.gathers dome ++ [g]))
    else
      let s := if s.liveHandle p d.handle then s else s.stale s.srcBb
      .next ((s.record (srcDome dome) 14 lvTask { part := some p, source := some sp.val }).failTask j i causeFault (srcDome dome) 14)

/-- The latent rows of a tile, each with its device address, or the translation that gives none (04 R116); `last` is the page translated
last. -/
def State.latentRows (s : State) (sp : Nat) (d : GatherDesc) : Option (Nat × Nat) → Nat → Nat → State × (List Nat ⊕ Trans)
  | _, _, 0 => (s, .inl [])
  | last, p, n + 1 =>
    let slot := slotOf d.handle
    let q := s.sq slot
    let vpn := p / max 1 q.tpp * q.nl + d.layer
    let (s, x) := match last with
      | some (v, ppn) => if v = vpn then (s, Trans.page ppn) else s.translate sp slot vpn
      | none => s.translate sp slot vpn
    match x with
    | .page ppn => match s.latentRows sp d (some (vpn, ppn)) (p + 1) n with
      | (s, .inl t) => (s, .inl ((ppnDa ppn + p % max 1 q.tpp * q.rowBytes) :: t))
      | r => r
    | f => (s, .inr f)

/-- The K run of column `j` of a weight group, and its scales (04 R525). -/
def State.weightCol (s : State) (base : Nat) (wf : Fmt) (dc j : Nat) : List Byte × List Byte :=
  let b := fmtBits wf / 8
  ((List.range dc).flatMap fun k => s.rd (base + (k * 64 + j) * b) b,
    if fmtMx wf then (List.range (dc / 32)).map fun i => s.byte (base + dc * 64 * b + 64 * i + j)
    else List.replicate (ceilDiv dc 32) 127)

/-- Expand latent rows by groups of columns (04 R122, R525): the bytes of each row, and the flags and count of ARITH_STATUS. The generator's
index of an element is its token times the columns delivered plus its column, for key and value columns alike (log 128). -/
def State.expand (s : State) (e : TaskEnv) (g : Gather) (d : GatherDesc) (q : Seq) (rows : List (List Byte)) (store : Nat)
    (grp : Nat → Nat) (tok0 : Nat) : List (List Byte) × Nat × Nat :=
  let dc := 64 * q.dc64
  let cols := (List.range (64 * d.cols)).map fun c => s.weightCol (store + d.wOff + grp (c / 64) * weightGroup g.wf dc) g.wf dc (c % 64)
  let data : TileData := { a := rows, b := cols.map (·.1), meta_ := [], as := rows.map fun _ => List.replicate (ceilDiv dc 32) 127
                           bs := cols.map (·.2) }
  let t : MatTile := { aFmt := latentFmt q.lfmt, bFmt := g.wf, m := rows.length, n := cols.length, k := dc, a := 0, aPitch := 0
                       b := 0, bPitch := 0, out := 0, outPitch := 0, outFmt := outFmtOf d.ofmt }
  let res := (List.range rows.length).map fun m =>
    let raw := data.rawRow t [] m fun _ => none
    let o := convertRow t.outFmt e.arith [] (fun i => generator e.seed e.step g.tensor ((tok0 + m) * cols.length + i)) raw.1
    (packRow t.outFmt o.codes, o.flags ||| raw.2, o.sats)
  (res.map (·.1), res.foldl (fun a r => a ||| r.2.1) 0, (res.map fun r => r.2.2).sum)

/-- The weight ranges an expansion reads for the columns of a tile (04 R525). -/
def weightReads (d : GatherDesc) (wf : Fmt) (dc store : Nat) : List (Nat × Nat) :=
  if d.mode = 0 then []
  else
    let groups := if d.mode = 3 then 2 else 1
    [(store + d.wOff + d.col0 * groups * weightGroup wf dc, d.cols * groups * weightGroup wf dc)]

/-- Read ranges for a gather; the first uncorrectable one. -/
def State.gatherReads (s : State) (sp : Nat) : List (Nat × Nat) → State × Option Nat
  | [] => (s, none)
  | (a, n) :: t =>
    let s := s.fetch (s.origin (gatherOf sp)) a n []
    if s.anyBad a n then (s, some a) else s.gatherReads sp t

/-- Write a tile of a gather into its ring (04 R525, R122); a word of the Spire's Store that cannot be replaced stops the Spire (02
R79). -/
def State.gatherWrite (s : State) (dome j i : Nat) (g : Gather) (rows : List (List Byte)) : State :=
  let d := gatherFields g.desc
  let q := s.sq (slotOf d.handle)
  let store := (s.storeSlice (s.job j).part dome).1
  let row := gatherRow d q
  let base := spireStoreBase + g.sp * 0x400000 + d.dest + g.tile % max 1 d.ring * gatherTile d q
  let put (s : State) (off : Nat) (rs : List (List Byte)) : State :=
    (List.range rs.length).foldl (fun s r =>
      let s := s.store (s.origin (gatherOf g.sp)) (base + off + r * row) (rs.getD r []) []
      if (s.blocked (base + off + r * row) (rs.getD r []).length).isSome then s.quarantine g.sp else s) s
  if d.mode = 0 then put s 0 rows
  else
    let e := s.taskEnv g.sp j i
    let tok := d.first + 32 * g.tile
    let key (c : Nat) := if d.mode = 3 then 2 * (d.col0 + c) else d.col0 + c
    let k := s.expand e g d q rows store key tok
    let v := if d.mode = 3 then s.expand e g d q rows store (fun c => 2 * (d.col0 + c) + 1) tok else ([], 0, 0)
    let s := s.modTask j i fun t => { t with
      arith := arithMerge t.arith (BitVec.ofNat 32 (min 0xFFFF (k.2.2 + v.2.2) * 2 ^ 16 + (k.2.1 ||| v.2.1))) }
    put (put s 0 k.1) (32 * row) v.1

/-- Tiles of a gather. -/
def gatherTiles (d : GatherDesc) : Nat := ceilDiv d.count 32

/-- The KV Gather Unit leaves service (04 R124). -/
def State.gatherOut (s : State) (d : Nat) : State :=
  ({ s with saf := { s.saf with kvOut := tput false s.saf.kvOut d true } }).record (srcDome d) 22 lvUnit {}

/-- Account check mismatches of an expansion tile: one is masked by its repeat and counts in its task's RETRY_COUNT (02 R68, R78), more
quarantine the unit, whose requests are from then on served by RAW gathers and expansion tasks with the same bits (04 R124). -/
def State.gatherChecks (s : State) (dome j i : Nat) (d : GatherDesc) (mismatch : Nat) : State :=
  if mismatch = 0 ∨ d.mode = 0 ∨ tget false s.saf.kvOut dome then s
  else if mismatch = 1 then
    let now := s.clk.elapsed
    let l := now :: (tget [] s.seq.masked dome).filter fun t => decide (now < t + 1000000000)
    let s := { s with seq := { s.seq with masked := tput [] s.seq.masked dome l } }
    let s := s.record (srcDome dome) 21 lvMasked {}
    let s := s.modTask j i fun t => { t with arith := arithMerge t.arith (BitVec.ofNat 32 256) }
    if 16 < l.length then s.gatherOut dome else s
  else s.gatherOut dome

/-- Remove a gather; channel 3 may serve tasks again (04 R130). -/
def State.dropGather (s : State) (dome n : Nat) : State :=
  (s.setGathers dome ((s.gathers dome).eraseIdx n)).grantDma dome 3

/-- The next tile of a gather may land: its task runs, its ring position is released, and every position it covers has been appended (04
R126, R525). -/
def State.gatherReady (s : State) (dome : Nat) (g : Gather) : Bool :=
  let d := gatherFields g.desc
  let q := s.sq (slotOf d.handle)
  let end_ := d.first + 32 * g.tile + min 32 (d.count - 32 * g.tile)
  let ctr : Nat := tget 0 s.sch.ctrs (64 * dome + d.rel)
  let rel : Int := (ctr : Int) - g.rel0
  decide (g.tile < gatherTiles d) && decide (s.running g.sp = some (g.task.1, g.task.2.1)) &&
    !(decide (d.ring ≤ g.tile) && decide (rel < (g.tile : Int) - d.ring + 1)) &&
    !(s.inStep (slotOf d.handle) && decide (q.l0 < end_) && decide (q.appended < end_))

/-- Gathers whose task goes on no more and that delivered every tile are over. -/
def State.pruneGathers (s : State) (dome : Nat) : State :=
  s.setGathers dome ((s.gathers dome).filter fun g => s.liveRun g.task || decide (g.tile < gatherTiles (gatherFields g.desc)))

/-- GATHER_TILE_WRITTEN (04 R121 to R126, R131, R525): the next tile lands of the oldest gather that nothing holds up (log 126). A gather
whose task goes on no more completes late: it is counted and dropped (06 R226, R236). -/
def execGatherTileWritten (dome : Fin 16) (mismatch : Nat) (s : State) : Host.Outcome State Fault Refusal :=
  let s := s.pruneGathers dome.val
  if s.testing (.gather dome) then .next s else
  match (s.gathers dome.val).findIdx? fun g => !s.liveRun g.task || s.gatherReady dome.val g with
  | none => .next s
  | some n =>
    match (s.gathers dome.val)[n]? with
    | none => .next s
    | some g =>
      let d := gatherFields g.desc
      let slot := slotOf d.handle
      let (j, i, _) := g.task
      let q := s.sq slot
      if !s.liveRun g.task then .next ((s.dropGather dome.val n).stale (srcDome dome.val))
      else match s.latentRows g.sp d none (d.first + 32 * g.tile) (min 32 (d.count - 32 * g.tile)) with
        | (s, .inr f) => .next ((s.dropGather dome.val n).transFault dome.val slot g.task g.sp f)
        | (s, .inl das) =>
          let store := (s.storeSlice (s.job j).part dome.val).1
          match s.gatherReads g.sp (das.map (fun a => (a, q.rowBytes)) ++ weightReads d g.wf (64 * q.dc64) store) with
          | (s, some a) => .next ((s.dropGather dome.val n).memFault (gatherOf g.sp) a)
          | (s, none) =>
            let s := s.gatherChecks dome.val j i d mismatch
            let s := s.gatherWrite dome.val j i g (das.map fun a => s.rd a q.rowBytes)
            if !s.liveRun g.task then .next (s.dropGather dome.val n)
            else
              let s := { s with sch := { s.sch with ctrs := tmod 0 s.sch.ctrs (64 * dome.val + d.deliv) fun c => c + 1 } }
              .next (s.setGathers dome.val ((s.gathers dome.val).modify n fun g => { g with tile := g.tile + 1 }))

/-- GATHER_TILE_RELEASE (04 R525): the task on Spire `sp` has read its oldest delivered tile; REL_CTR advances. -/
def execGatherTileRelease (sp : Fin 64) (s : State) : Host.Outcome State Fault Refusal :=
  match s.running sp.val with
  | none => .next s
  | some (j, i) =>
    let dome := sp.val / 4
    let gs := s.gathers dome
    if (s.task j i).waitSince.isSome then .next s
    else match gs.findIdx? fun g => decide (g.task = s.taskId j i) && decide (g.rel < g.tile) with
    | none => .next s
    | some n =>
      match gs[n]? with
      | some g =>
        let d := gatherFields g.desc
        let s := { s with sch := { s.sch with ctrs := tmod 0 s.sch.ctrs (64 * dome + d.rel) fun c => c + 1 } }
        if g.rel + 1 = gatherTiles d then .next (s.dropGather dome n)
        else .next (s.setGathers dome (gs.modify n fun g => { g with rel := g.rel + 1 }))
      | none => .next s

/-! ### Appends -/

/-- The step that a task belongs to holds a sequence (04 R125). -/
def State.stepHolds (s : State) (j handle : Nat) : Bool :=
  decide ((s.job j).kind = .step) && (s.job j).wants.any fun w => decide (w.handle = handle)

/-- APPEND_WRITE (04 R125, R131, R154): a task of the step writes a row of a position it may write; anything else is an append fault that
changes nothing. So are a layer the sequence has not, a row of another length, and any write of a backward task (log 129). -/
def execAppendWrite (sp : Fin 64) (handle layer pos : Nat) (data : List Byte) (s : State) : Host.Outcome State Fault Refusal :=
  match s.running sp.val with
  | none => .next s
  | some (j, i) =>
    let dome := sp.val / 4
    let p := (s.job j).part
    let slot := slotOf handle
    let q := s.sq slot
    let t := s.taskId j i
    if (s.task j i).waitSince.isSome then .next s
    else if s.liveHandle p handle ∧ s.stepHolds j handle ∧ !(s.task j i).decl.backward ∧ q.l0 ≤ pos ∧ pos < q.l0 + q.a ∧ layer < q.nl ∧
        data.length = q.rowBytes then
      match s.translate sp.val slot (pos / max 1 q.tpp * q.nl + layer) with
      | (s, .page ppn) =>
        let da := ppnDa ppn + pos % max 1 q.tpp * q.rowBytes
        let r := gatherOf sp.val
        let s := s.store (s.origin r) da data []
        if (s.blocked da data.length).isSome then .next (s.memFault r da)
        else
          .next (s.modSeq slot fun q => { q with layers := tmod [] q.layers pos fun (l : List Nat) => if layer ∈ l then l else layer :: l })
      | (s, f) => .next (s.transFault dome slot t sp.val f)
    else
      let s := if s.liveHandle p handle then s else s.stale s.srcBb
      .next ((s.record (srcDome dome) 15 lvTask { part := some p, source := some sp.val }).failTask j i causeFault (srcDome dome) 15)

/-- APPEND_COUNTER_ADVANCE (04 R126): position `pos` is acknowledged in every layer; the counter never decreases. -/
def execAppendCounterAdvance (slot : Fin 4096) (pos : Nat) (s : State) : Host.Outcome State Fault Refusal :=
  let q := s.sq slot.val
  if s.inStep slot.val ∧ (tget [] q.layers pos).length = q.nl ∧ q.nl ≠ 0 then
    .next (s.modSeq slot.val fun q => { q with appended := max q.appended (pos + 1) })
  else .next s

/-- PAGE_WALK_DONE (04 R128, R131): a parity error discards the entries and the walk is made again; the walk fills the
TLBs, or the gather that waits for it ends with a page fault. -/
def execPageWalkDone (dome : Fin 16) (slot : Fin 4096) (vpn : Nat) (parity : Bool) (s : State) :
    Host.Outcome State Fault Refusal :=
  let s := if parity then (s.discard dome.val slot.val vpn).record (srcTower (dome.val / 4) 0x14) 8 lvMasked {} else s
  match (s.gathers dome.val).findIdx? fun g => decide (slotOf (gatherFields g.desc).handle = slot.val) && s.liveRun g.task &&
      decide (s.running g.sp = some (g.task.1, g.task.2.1)) with
  | none => .next s
  | some n =>
    match (s.gathers dome.val)[n]? with
    | none => .next s
    | some g => match s.translate g.sp slot.val vpn with
      | (s, .page _) => .next s
      | (s, f) => .next ((s.dropGather dome.val n).transFault dome.val slot.val g.task g.sp f)

end Sys2Proof.Machine
end

