-- ==== Sys2Proof/Machine/SeqCmds.lean ====
section
/-! DEFINITION. The sequence commands of the host (13 R447; 04 R112, R116, R127, R135, R140, R142 to R146). -/

namespace Sys2Proof.Machine

/-- A slot is FREE and the partition's quota allows one more (04 R112). -/
def State.freeSlotFor (s : State) (p : Nat) : Option Nat :=
  if (s.liveSlots.filter fun i => (s.sq i).part = p).length < (s.part p).seqQuota then
    findLow (fun i => decide ((s.sq i).st = sqFree)) 4096 0
  else none

/-- Sequences of the partition may be swapped (04 R127, R146). -/
def Partition.maySwap (p : Partition) : Bool := decide (p.cls ≤ 1) && !p.dmaList

/-- The body of SEQ_OPEN. -/
def seqOpenBody (c : Ctx) (s : State) : LmpRes :=
  let x := s.part c.part
  let lf := c.u8 1
  let nl := c.u8 2
  let dc := c.u8 3
  let pol := c.u8 4
  let maxLen := c.u32 8
  let ptLen := c.u32 12
  let tpp := tppOf lf dc
  let resv := if pol = 1 then nl * ceilDiv maxLen (max 1 tpp) else 0
  checked s
    [((tget none x.images (c.u8 0)).isSome, 0), (decide (lf ≤ 2), 1), (decide (1 ≤ nl ∧ nl ≤ 128), 2), (decide (2 ≤ dc ∧ dc ≤ 16), 3),
      (decide (pol ≤ 1) && (decide (pol = 1) || x.maySwap), 4), (decide (c.u8 5 = 0), 5),
      (decide (1 ≤ ptLen ∧ ptLen ≤ 65536), 12), (decide (maxLen ≤ ptLen / max 1 nl * tpp), 8)]
    [((s.freeSlotFor c.part).isNone, stNoMemory, 0), (decide (s.available c.part < resv), stNoMemory, 0),
      ((s.ptPlace c.part (2 * ptCopyBytes ptLen)).isNone, stNoMemory, 0)]
    fun _ =>
      match s.freeSlotFor c.part, s.ptPlace c.part (2 * ptCopyBytes ptLen) with
      | some slot, some base =>
        let s := s.modSeq slot fun q => {
          st := sqOpen, gen := q.gen, part := c.part, image := c.u8 0, policy := pol, lfmt := lf, nl := nl, dc64 := dc
          tpp := tpp, maxLen := maxLen, ptBase := base, share := if c.u16 6 = 0 then x.share else c.u16 6
          ptLen := ptLen, reserve := resv }
        let s := s.zero base (2 * ptCopyBytes ptLen)
        .done stOk 0 (le 8 (s.handleOf slot)) s
      | _, _ => .refuse stNoMemory 0 s

/-- SEQ_OPEN. -/
def execSeqOpen (m : Fin 64) (s : State) : Host.Outcome State Fault Refusal := .next (s.lmp m.val (isOp 0x40) (shared 0x40 ofClient seqOpenBody))

/-- The body of SEQ_CLOSE (04 R142): at once in OPEN, SWAPPED or STALLED, else at the next boundary or after the swap. -/
def seqCloseBody (c : Ctx) (s : State) : LmpRes :=
  let h := c.u32 0
  let slot := slotOf h
  checked s [(decide (h < 2 ^ 20), 0), (decide (c.u32 4 = 0), 4)] [(!s.liveHandle c.part h, stStale, 0)] fun _ =>
    let q := s.sq slot
    let s :=
      if q.st = sqSwapOut ∨ q.st = sqSwapIn then s.modSeq slot fun q => { q with closing := true }
      else if q.st = sqInStep then s.modSeq slot fun q => { q with st := sqClosing }
      else if q.st = sqClosing then s
      else if q.inval ≠ 0 ∨ ¬ q.copies.isEmpty ∨ s.inBuild slot then s.modSeq slot fun q => { q with st := sqClosing }
      else s.startClose slot
    .wait (.seqClose slot) s

/-- SEQ_CLOSE. -/
def execSeqClose (m : Fin 64) (s : State) : Host.Outcome State Fault Refusal := .next (s.lmp m.val (isOp 0x41) (shared 0x41 ofClient seqCloseBody))

/-- The body of SEQ_FORK (04 R140): it waits for the parent's next boundary. -/
def seqForkBody (c : Ctx) (s : State) : LmpRes :=
  checked s [(decide (c.u32 0 < 2 ^ 20), 0), (decide (c.u32 4 = 0), 4)] [(!s.liveHandle c.part (c.u32 0), stStale, 0)] fun _ =>
    .wait (.fork (slotOf (c.u32 0)) 0) s

/-- SEQ_FORK. -/
def execSeqFork (m : Fin 64) (s : State) : Host.Outcome State Fault Refusal := .next (s.lmp m.val (isOp 0x42) (shared 0x42 ofClient seqForkBody))

/-- Apply the entries of a PAGE_TABLE_EDIT to the inactive copy, counting mappings in and out (04 R135, R139); answers the
first entry that R135 refuses. While that copy is in use the entries wait for it. -/
def State.editEntries (s : State) (slot : Nat) : Nat → List (Nat × Nat) → State × Option Nat
  | _, [] => (s, none)
  | i, (v, e) :: t =>
    let q := s.sq slot
    let x := s.part q.part
    let new := ptePpn e
    let ina := s.draftPte slot v
    let act := s.pte slot q.active v
    let same (o : Nat) := pteV o && !pteHost o && decide (ptePpn o = new)
    let counted := pteV e && !same ina && !same act
    if q.ptLen ≤ v ∨ (pteV e ∧ (new ≥ hostPpn ∨ ¬ x.inPool new ∨ (s.page new).st ≠ 1)) ∨
        (counted ∧ 65535 ≤ (s.page new).refcnt) then (s, some i)
    else
      let drop := pteV ina && !pteHost ina && !(pteV e && same ina) && !(pteV act && decide (ptePpn act = ptePpn ina))
      let s := if counted then s.incPage new else s
      let s := if drop then s.decPage (ptePpn ina) else s
      let s := if q.busyCopy then s.modSeq slot fun q => { q with late := q.late ++ [(v, editedPte e)] }
        else s.setPte slot (1 - q.active) v (editedPte e)
      s.editEntries slot (i + 1) t

/-- The body of PAGE_TABLE_EDIT (04 R135; 13 R447). -/
def pageTableEditBody (c : Ctx) (s : State) : LmpRes :=
  let h := c.u32 0
  let n := c.u16 4
  let es := (List.range n).map fun i => (c.u32 (8 + 8 * i), c.u32 (12 + 8 * i))
  let rsv := es.findIdx? fun e => !(decide (nbits e.2 30 24 = 0))
  let slot := slotOf h
  let q := s.sq slot
  checked s
    [(decide (c.pl.length = 8 + 8 * n), 0xFFFF), (decide (h < 2 ^ 20), 0), (decide (1 ≤ n ∧ n ≤ 503), 4), (decide (c.u16 6 = 0), 6),
      (rsv.isNone, 0x8000 + rsv.getD 0)]
    [(!s.liveHandle c.part h, stStale, 0)] fun _ =>
    match s.editEntries slot 0 es with
    | (_, some i) => .refuse stArg (0x8000 + i) s
    | (t, none) =>
      if q.st = sqClosing ∨ q.st = sqSwapOut ∨ q.st = sqSwapped ∨ q.st = sqSwapIn then .refuse stState q.st s
      else if q.busyCopy then .wait (.editLate slot) t
      else .wait (.edit slot) (t.modSeq slot fun q => { q with pending := true })

/-- PAGE_TABLE_EDIT. -/
def execPageTableEdit (m : Fin 64) (s : State) : Host.Outcome State Fault Refusal :=
  .next (s.lmp m.val (isOp 0x43) (shared 0x43 ofClient pageTableEditBody))

/-- The body of SEQ_SWAP_POLICY with TARGET naming a sequence (04 R144 to R146). -/
def seqSwapPolicyBody (c : Ctx) (s : State) : LmpRes :=
  let pol := c.u8 1
  let h := c.u32 4
  let slot := slotOf h
  let q := s.sq slot
  let turn := decide (pol = 1) && decide (q.policy = 0)
  let resv := q.nl * ceilDiv q.maxLen (max 1 q.tpp) - (s.alone slot).length
  checked s
    [(decide (c.u8 0 = 0), 0), (decide (pol ≤ 1) && (decide (pol = 1) || (s.part c.part).maySwap), 1), (decide (h < 2 ^ 20), 4), (decide (c.u32 8 = 0), 8), (decide (c.u32 12 = 0), 12)]
    [(!s.liveHandle c.part h, stStale, 4), (turn && decide (s.available c.part < resv), stNoMemory, 0),
      (turn && (decide (q.st = sqSwapOut) || decide (q.st = sqSwapped) || decide (q.st = sqSwapIn)), stState, q.st)]
    fun _ => .done stOk 0 [] (s.modSeq slot fun q => { q with
      policy := pol, reserve := if turn then resv else if pol = 0 then 0 else q.reserve
      share := if c.u16 2 = 0 then q.share else c.u16 2 })

/-- SEQ_SWAP_POLICY of a sequence. -/
def execSeqSwapPolicy (m : Fin 64) (s : State) : Host.Outcome State Fault Refusal :=
  .next (s.lmp m.val (fun o c => decide (o = 0x44) && decide (c.u8 0 ≠ 1)) (shared 0x44 ofClient seqSwapPolicyBody))

/-- The body of SEQ_SWAP_POLICY with TARGET the partition's watermarks (04 R144). -/
def seqWatermarksBody (c : Ctx) (s : State) : LmpRes :=
  let pool := (s.part c.part).poolPages
  let lo := c.u32 8
  let hi := c.u32 12
  checked s
    [(decide (c.u8 1 = 0), 1), (decide (c.u16 2 = 0), 2), (decide (c.u32 4 = 0), 4), (decide (1 ≤ lo ∧ lo ≤ pool / 4), 8),
      (decide (lo < hi ∧ hi ≤ pool / 2), 12)] []
    fun _ => .done stOk 0 [] (s.modPart c.part fun x => { x with lowWm := lo, highWm := hi })

/-- SEQ_SWAP_POLICY of a partition's watermarks. -/
def execSeqSwapWatermarks (m : Fin 64) (s : State) : Host.Outcome State Fault Refusal :=
  .next (s.lmp m.val (fun o c => decide (o = 0x44) && decide (c.u8 0 = 1)) (shared 0x44 ofClient seqWatermarksBody))

end Sys2Proof.Machine
end

