-- ==== Sys2Proof/Machine/Admin.lean ====
section
/-! DEFINITION. Protocol and admin commands (13 R439), partitions (13 R440, R441; 06 R200 to R206, R214), claims (11 R402 to
R405; 13 R458), accounting (R459). -/

namespace Sys2Proof.Machine

/-! ### DEV_ID (12 R410) -/

/-- DEV_ID0 as read through endpoint `ep`. -/
def State.devId0 (s : State) (ep : Nat) : Nat :=
  0x1F2B + 0x4A40 * 2 ^ 16 + Config.siliconRev.toNat * 2 ^ 32 + Config.pkgRev.toNat * 2 ^ 40 + s.otp.grade % 4 * 2 ^ 48 + ep % 2 * 2 ^ 50

/-- DEV_CAPS0. -/
abbrev devCaps0 : Nat := 2 * 2 ^ 56 + 15 * 2 ^ 48 + 4096 * 2 ^ 32 + 64 * 2 ^ 24 + 4 * 2 ^ 16 + 16 * 2 ^ 8 + 64

/-- DEV_CAPS1; both LMP versions are 1. -/
abbrev devCaps1 : Nat := 60 * 2 ^ 16 + 0x0101

abbrev lmpMin : Nat := 1
abbrev lmpMax : Nat := 1

/-- HELLO (13 R439). -/
def helloBody (c : Ctx) (s : State) : LmpRes :=
  let v := min (c.u8 1) lmpMax
  checked s [(decide (c.fld 2 6 = 0), 2)] [(decide (v < c.u8 0) || decide (v < lmpMin), stVersion, lmpMax)] fun _ =>
    .done stOk 0 (le 1 v ++ le 1 (s.mbx c.m).gen ++ le 1 (if c.m = 0 then 0 else (s.mbx c.m).partition) ++ le 5 0)
      (s.modMbx c.m fun b => { b with version := some v })

/-- HELLO. -/
def execHello (m : Fin 64) (s : State) : Host.Outcome State Fault Refusal := .next (s.lmp m.val (isOp 0x01) helloBody)

/-- CAPS_GET (13 R439). -/
def capsGetBody (c : Ctx) (s : State) : LmpRes :=
  let fw := s.bs.fw.getD {}
  .done stOk 0 (le 8 (s.devId0 c.ep) ++ le 8 devCaps0 ++ le 8 devCaps1 ++ le 8 s.otp.uid ++ le 4 fw.version ++
    le 1 fw.twinMin ++ le 1 fw.twinMax ++ le 1 s.otp.lc ++ le 1 (if s.saf.det then 1 else 0) ++ le 4 s.sch.frame.fUs ++
    le 4 s.cfgEpoch) s

/-- CAPS_GET. -/
def execCapsGet (m : Fin 64) (s : State) : Host.Outcome State Fault Refusal := .next (s.lmp m.val (isOp 0x02) capsGetBody)

/-- Ask the secondary controller for the East role back (11 R404). -/
def State.askRoleBack (s : State) : State :=
  { s with cam := { s.cam with role := 3, retryAt := s.clk.elapsed + 10000000 } }

/-- Claims end (11 R402); with GPIO3's, FRAME_MARK (16 R521); with one that took the East I3C controller its role is asked back (R404). -/
def State.dropClaims (s : State) (f : Claim → Bool) : State :=
  let t : State := { s with
    claims := s.claims.filter fun c => !f c
    frameMark := s.frameMark && !(s.claims.any fun c => f c && decide (c.res = 2)) }
  if s.claims.any fun c => f c && (decide (c.res = 4) || decide (c.res = 5)) then t.askRoleBack else t

/-- Bindings of streams and displays end with their claims (11 R402). -/
def State.unbindIf (s : State) (f : Binding → Bool) : State :=
  let keep (b : Option Binding) : Bool := match b with
    | some b => !f b
    | none => true
  { s with cam := { s.cam with
    streams := s.cam.streams.filter fun (x : Nat × Stream) => keep x.2.bind && keep x.2.next
    ports := s.cam.ports.filter fun (x : Nat × Display) => keep x.2.bind && keep x.2.next } }

/-- Give a mailbox to another client, or to none (12 R422; 13 R439; 11 R402); its accounting record is cleared by ACCOUNTING_READ alone (06
R233). -/
def State.assign (s : State) (m part weight : Nat) : State :=
  let s := (s.dropClaims fun c => decide (c.mbx = m)).unbindIf fun b => decide (b.mbx = m)
  s.modMbx m fun b => { b with
    partition := part, weight := weight, vt := 0, gen := (b.gen + 1) % 256, version := none, st := mbFree, wait := none }

/-- MBX_ASSIGN (12 R422; 13 R439). -/
def mbxAssignBody (c : Ctx) (s : State) : LmpRes :=
  let m := c.u8 0
  let p := c.u8 1
  checked s [(decide (1 ≤ m) && decide (m ≤ 63), 0), (decide (p = 0xFF) || (decide (1 ≤ p) && decide (p ≤ 15) && (s.part p).live), 1),
      (decide (1 ≤ c.u16 2), 2), (decide (c.u32 4 = 0), 4)]
    [(decide ((s.mbx m).st = mbSubmitted) || decide ((s.mbx m).st = mbBusy), stState, (s.mbx m).st)] fun _ =>
    let s := s.assign m p (c.u16 2)
    .done stOk 0 (le 1 (s.mbx m).gen ++ le 7 0) s

/-- MBX_ASSIGN. -/
def execMbxAssign (m : Fin 64) (s : State) : Host.Outcome State Fault Refusal := .next (s.lmp m.val (isOp 0x03) mbxAssignBody)

/-! ### PARTITION_CREATE -/

/-- The REGION ranges of the payload. -/
def regionsOf (c : Ctx) : List (Nat × Nat) := (List.range (c.u8 0x10)).map fun i => (c.u64 (0x18 + 16 * i), c.u64 (0x20 + 16 * i))

/-- Two ranges overlap. -/
def overlap (a b : Nat × Nat) : Bool := decide (a.1 < b.1 + b.2) && decide (b.1 < a.1 + a.2)

/-- A REGION range is a nonempty run of whole MiB in one decoded range of DRAM, Tower SRAM or host memory (06 R201). -/
def State.regionOk (s : State) (r : Nat × Nat) : Bool :=
  decide (r.2 ≠ 0) && decide (r.1 % mib = 0) && decide (r.2 % mib = 0) && match s.kindRange r.1 r.2 with
    | some .dram | some (.towerSram _) | some .host => true
    | _ => false

/-- The lowest whole-MiB offset free of every other slice (06 R203). -/
def State.sliceOffset (s : State) (n : Nat) : Option Nat :=
  if n = 0 then some 0
  else
    let used (i : Nat) : Bool := s.users.any fun p =>
      !(s.part p).priv && decide ((s.part p).storeOff ≤ i) && decide (i < (s.part p).storeOff + (s.part p).storeMib)
    findLow (fun o => (List.range n).all fun i => !used (o + i)) (17 - n) 0

/-- The DRAM layout that the TOWER_LOCAL claims give while no user partition exists (01 R43, R44; 11 R403). -/
def State.layout (s : State) : State :=
  if s.users.isEmpty then
    { s with mem := { s.mem with
        local_ := s.claims.foldl (fun t (c : Claim) => if c.res = 7 then tput 0 t c.inst c.value else t) [] } }
  else s

/-- The sum of the windows of the time-sliced partitions, in µs (06 R208): budgets in force from the next frame on. -/
def State.windowSum (s : State) (except : Nat) : Nat :=
  ((s.users.filter fun p => !(s.part p).priv && decide (p ≠ except)).map fun p => (s.part p).nextBudget.getD (s.part p).budgetUs).sum

/-- The claims a partition takes when it is created (11 R403): resource and Dome. -/
def walkClaims (dmaList swap : Bool) (domes : BitVec 16) : List (Nat × Nat) :=
  if dmaList then (filterLow (fun d => domes.getLsbD d) 16).map fun d => (0x22, d)
  else if swap then match findLow (fun d => domes.getLsbD d) 16 0 with
    | some d => [(0x23, d)]
    | none => []
  else []

/-- The lowest mailbox that holds a DMA3 claim in conflict (11 R402, R403). -/
def State.dma3Conflict (s : State) (want : List (Nat × Nat)) : Option Nat :=
  ((s.claims.filter fun c => want.any fun w => decide (c.inst = w.2) &&
    (decide (c.res = 0x22) || (decide (c.res = 0x23) && decide (w.1 = 0x22)))).map (·.mbx)).min?

/-- The fields of PARTITION_CREATE against their ranges (13 R440; 06 R201, R202, R222; 04 R146). -/
def State.createFields (s : State) (c : Ctx) : List (Bool × Nat) :=
  let cls := c.u8 0
  let fl := c.u8 1
  let priv := fl.testBit 0
  let regs := regionsOf c
  let inside (a n : Nat) : Bool := regs.any fun r => decide (r.1 ≤ a) && decide (a + n ≤ r.1 + r.2)
  let kv := c.u64 0x58
  let kvn := c.u64 0x60
  let sw := c.u64 0x68
  let swn := c.u64 0x70
  [(decide (cls ≤ 4), 0), (decide (fl < 64) && decide (fl / 16 ≠ 3) && !(priv && fl.testBit 1), 1),
   (decide ((c.u16 2 ≠ 0) = (priv = true)), 2), (decide (100 ≤ c.u32 4) && decide (c.u32 4 ≤ s.sch.frame.fUs), 4),
   (decide (1 ≤ c.u16 8), 8), (decide (c.u8 0x0A ≤ 16) && !(priv && decide (c.u8 0x0A ≠ 0)), 0x0A),
   (decide (c.u16 0x0C ≤ 4096), 0x0C), (decide (1 ≤ c.u16 0x0E) && decide (c.u16 0x0E ≤ 1024), 0x0E),
   (decide (1 ≤ c.u8 0x10) && decide (c.u8 0x10 ≤ 4), 0x10), (decide (c.fld 0x11 7 = 0), 0x11)] ++
  ((List.range 4).map fun i =>
    (if i < c.u8 0x10 then s.regionOk (c.u64 (0x18 + 16 * i), c.u64 (0x20 + 16 * i))
      else decide (c.fld (0x18 + 16 * i) 16 = 0), 0x18 + 16 * i)) ++
  [(decide (kv % 16384 = 0) && (decide (kv = 0) || (decide (s.kindRange kv (max 1 kvn) = some .dram) && inside kv kvn)), 0x58),
   (decide (kvn % 16384 = 0) && decide ((kv = 0) = (kvn = 0)), 0x60),
   (decide (sw % 16384 = 0) && (decide (sw = 0) || (decide (hostBase ≤ sw) && decide (sw + swn ≤ hostBase + 192 * gib))), 0x68),
   (decide (swn % 16384 = 0) && decide ((sw = 0) = (swn = 0)) && (decide (swn = 0) || (decide (cls ≤ 1) && !fl.testBit 2)), 0x70),
   (decide (c.u64 0x78 % 64 = 0) && inside (c.u64 0x78) 1, 0x78),
   (decide (768 ≤ c.u32 0x80) && decide (c.u32 0x80 % 64 = 0), 0x80),
   (decide (1 ≤ c.u16 0x84) && decide (c.u16 0x84 ≤ 4096), 0x84), (decide (c.u16 0x86 = 0), 0x86),
   (inside (c.u64 0x78) (c.u32 0x80 * c.u16 0x84), 0x78),
   (!(decide (3 ≤ cls) && !priv) && !(decide (cls = 0) && priv), 0), (!(decide (3 ≤ cls) && fl.testBit 3), 1),
   (!(!priv && decide (1 ≤ cls) && decide (cls ≤ 2) && !fl.testBit 1), 1)]

/-- The conditions of 06 R202 in its order, then the implicit claims (11 R402). None concerns the host swap area: areas that overlap are
taken, each partition counting its own pages (04 R144; log 133). -/
def State.createConds (s : State) (c : Ctx) : List (Bool × Nat × Nat) :=
  let fl := c.u8 1
  let priv := fl.testBit 0
  let domes := BitVec.ofNat 16 (c.u16 2)
  let regs := regionsOf c
  let shared := ~~~ s.ownedDomes
  let sliced := s.users.filter fun p => !(s.part p).priv
  let want := walkClaims (fl.testBit 2) (decide (c.u64 0x70 ≠ 0)) (if priv then domes else shared)
  [(regs.any (fun r => overlapsReservation r.1 r.2 || s.users.any fun p => (s.part p).regions.any (overlap r)), stConflict, 0),
   (priv && decide (domes &&& s.ownedDomes ≠ 0), stConflict, 0),
   (decide (fl / 16 = 1) && s.users.any (fun p => decide ((s.part p).role = 1)), stConflict, 0),
   (decide (15 ≤ s.users.length), stNoMemory, 0),
   (priv && decide (4 ≤ s.users.length - sliced.length), stNoMemory, 0),
   (priv && !sliced.isEmpty && decide (shared &&& ~~~ domes = 0), stNoMemory, 0),
   (!priv && decide (shared = 0), stNoMemory, 0),
   (!priv && decide (s.sch.frame.fUs < s.windowSum 0 + c.u32 4), stNoMemory, 0),
   (!priv && decide (16 < (sliced.map fun p => (s.part p).storeMib).sum + c.u8 0x0A), stNoMemory, 0),
   (decide (4096 < (s.users.map fun p => (s.part p).seqQuota).sum + c.u16 0x0C), stNoMemory, 0),
   (!priv && (s.sliceOffset (c.u8 0x0A)).isNone, stNoMemory, 0),
   ((s.dma3Conflict want).isSome, stBusy, (s.dma3Conflict want).getD 0)]

/-- The partition a payload describes (13 R440; 04 R144 for the watermarks, 09 R331 for DUAL). -/
def partitionOf (c : Ctx) (off : Nat) : Partition :=
  let fl := c.u8 1
  let pool := c.u64 0x60 / 16384
  { live := true, cls := c.u8 0, priv := fl.testBit 0, strict := fl.testBit 1, dmaList := fl.testBit 2, report := fl.testBit 3
    role := fl / 16, domes := BitVec.ofNat 16 (c.u16 2), budgetUs := c.u32 4, share := c.u16 8, storeMib := c.u8 0x0A
    storeOff := off, credit := c.u8 0x0B, seqQuota := c.u16 0x0C, maxLaunches := c.u16 0x0E, regions := regionsOf c
    kvDa := c.u64 0x58, kvBytes := c.u64 0x60, swapDa := c.u64 0x68, swapBytes := c.u64 0x70, saveDa := c.u64 0x78
    saveBytes := c.u32 0x80, saveSlots := c.u16 0x84, lowWm := ceilDiv pool 32, highWm := ceilDiv pool 16
    dual := { flag := decide (c.u8 0 ≠ 4) } }

/-- PARTITION_CREATE (06 R200 to R203; 13 R440). -/
def partitionCreateBody (c : Ctx) (s : State) : LmpRes :=
  let t := s.layout
  checked s (t.createFields c) (t.createConds c) fun _ =>
    match findLow (fun p => !(t.part p).live) 15 1, t.sliceOffset (c.u8 0x0A) with
    | some p, some off =>
      let x := partitionOf c off
      let want := walkClaims x.dmaList (decide (x.swapBytes ≠ 0)) (if x.priv then x.domes else ~~~ t.ownedDomes)
      let t := t.modPart p fun _ => x
      let t := (List.range 64).foldl (fun s sp =>
        if x.priv && x.domes.getLsbD (sp / 4) && (s.spire sp).job.isSome then s.modSpire sp fun y => { y with preempt := some .owner }
        else s) t
      .done stOk 0 (le 8 p) { t with claims := t.claims ++ want.map fun w => { res := w.1, inst := w.2, mbx := 0, part := p } }
    | _, _ => .refuse stNoMemory 0 s

/-- PARTITION_CREATE. -/
def execPartitionCreate (m : Fin 64) (s : State) : Host.Outcome State Fault Refusal :=
  .next (s.lmp m.val (isOp 0x10) (shared 0x10 (fun _ => none) partitionCreateBody))

/-! ### PARTITION_DESTROY, partition reset, PARTITION_SET_SHARE -/

/-- A user partition named by a payload byte. -/
def State.named (s : State) (p : Nat) : Bool := decide (1 ≤ p) && decide (p ≤ 15) && (s.part p).live

/-- End every plan request of a partition (05 R177; 06 R206). -/
def State.cancelPlans (s : State) (p : Nat) : State :=
  (List.range 2).foldl (fun s e =>
    let gone := ((s.eng e).queue.filter fun r => decide (r.part = p)).map (·.id)
    let s := gone.foldl (fun s i => s.endPlanId i) (s.modEng e fun y => { y with queue := y.queue.filter fun r => decide (r.part ≠ p) })
    match (s.eng e).cur with
    | some x => if x.req.part = p then s.dropSearch e x.req.id else s
    | none => s) s

/-- Close every sequence of a partition (04 R142); a gather, build or step of it ends first. -/
def State.closeSeqs (s : State) (p : Nat) : State :=
  let s := { s with seq := { s.seq with
    builds := s.seq.builds.filter fun b => decide (b.part ≠ p)
    gathers := (List.range 16).foldl (fun t d =>
      tput [] t d ((tget [] t d).filter fun g => decide ((s.sq (slotOf (bits (g.desc.getD 0 0) 63 32))).part ≠ p))) s.seq.gathers } }
  let s := (s.jobsOf p).foldl (fun s j => if (s.job j).kind = .step then s.stepComplete j else s) s
  (s.liveSlots.filter fun i => decide ((s.sq i).part = p)).foldl (fun s i =>
    let q := s.sq i
    if q.st = sqSwapOut ∨ q.st = sqSwapIn then s.modSeq i fun q => { q with closing := true }
    else if q.inval ≠ 0 ∨ ¬ q.copies.isEmpty then s.modSeq i fun q => { q with st := sqClosing }
    else s.startClose i) s

/-- Waiting commands of a partition's clients complete with ST_E_STATE (13 R438). -/
def State.failWaits (s : State) (p : Nat) : State :=
  (List.range 64).foldl (fun s m =>
    if m ≠ 0 ∧ (s.mbx m).partition = p ∧ (s.mbx m).wait.isSome then s.complete m stState 0 [] else s) s

/-- A partition reset or PARTITION_DESTROY begins (06 R206; 12 R414): its windows close, launches end ABORTED, plan requests
and sequences end. -/
def State.beginEnd (s : State) (p mode : Nat) : State :=
  let s := s.modPart p fun x => { x with ending := mode }
  let s := (List.range 2).foldl (fun s e => (List.range 16).foldl (fun s w =>
    if bits (tget 0 (s.ep e).winCtrl w) 47 40 = p then
      s.modEp e fun x => { x with winCtrl := tmod 0 x.winCtrl w fun v => BitVec.ofNat 64 (v.toNat % 2 ^ 63) }
    else s) s) s
  let s := (s.jobsOf p).foldl (fun s j => s.abort j) s
  ((s.cancelPlans p).failWaits p).closeSeqs p

/-- PARTITION_DESTROY and partition reset (13 R441). -/
def partitionEndBody (c : Ctx) (s : State) : LmpRes :=
  let p := c.u8 0
  checked s [(s.named p, 0), (decide (c.u8 1 ≤ 1), 1), (decide (c.fld 2 6 = 0), 2)]
    [(decide ((s.part p).ending ≠ 0), stState, (s.part p).ending)] fun _ =>
    .wait (.zero p) (s.beginEnd p (if c.u8 1 = 1 then 3 else 4))

/-- The partition a destroy, reset or share command names. -/
def ofNamed (c : Ctx) : Option Nat := some (c.u8 0)

/-- PARTITION_DESTROY. -/
def execPartitionDestroy (m : Fin 64) (s : State) : Host.Outcome State Fault Refusal :=
  .next (s.lmp m.val (fun o c => decide (o = 0x11) && decide (c.u8 1 ≠ 1)) (shared 0x11 ofNamed partitionEndBody))

/-- PARTITION_RESET: PARTITION_DESTROY with MODE RESET. -/
def execPartitionReset (m : Fin 64) (s : State) : Host.Outcome State Fault Refusal :=
  .next (s.lmp m.val (fun o c => decide (o = 0x11) && decide (c.u8 1 = 1)) (shared 0x11 ofNamed partitionEndBody))

/-- Zero what a partition reset zeroes (06 R206): the DRAM and Tower SRAM parts of the region, with the save area in them, and
its Dome Store slices, or the Dome Stores and Spire Stores of its Domes. -/
def State.zeroPartition (s : State) (p : Nat) : State :=
  let x := s.part p
  let s := x.regions.foldl (fun s r => if hostBase ≤ r.1 then s else (s.zero r.1 r.2).unretire r.1 r.2) s
  (List.range 16).foldl (fun s d =>
    if x.priv then
      if x.domes.getLsbD d then (s.zero (domeStoreBase + d * 0x1000000) 0x1000000).zero (spireStoreBase + d * 0x1000000) 0x1000000 else s
    else if s.ownedDomes.getLsbD d ∨ x.storeMib = 0 then s
    else s.zero (domeStoreBase + d * 0x1000000 + x.storeOff * mib) (x.storeMib * mib)) s

/-- The number, Domes, windows and claims of a destroyed partition are released; its clients' mailboxes are reassigned first
(06 R206, R236; 11 R402). -/
def State.release (s : State) (p : Nat) : State :=
  let s := (List.range 64).foldl (fun s m =>
    if m ≠ 0 ∧ (s.mbx m).partition = p then s.assign m 0xFF (s.mbx m).weight else s) s
  let s := (s.dropClaims fun c => decide (c.part = p)).unbindIf fun b => decide (b.part = p)
  s.modPart p fun _ => {}

/-- PARTITION_ZEROING_DONE (06 R206): the zeroing has ended, every sequence being FREE. A reset keeps the attributes and
returns the partition to ACTIVE (09 R316). -/
def execPartitionZeroingDone (p : Fin 16) (s : State) : Host.Outcome State Fault Refusal :=
  let x := s.part p.val
  if x.live ∧ x.ending ≠ 0 ∧ ¬ (s.liveSlots.any fun i => (s.sq i).part = p.val) then
    let s := s.zeroPartition p.val
    let s := s.modPart p.val fun x => { x with step := 0 }
    let s := if x.ending = 3 then s.modPart p.val fun x => { x with
        ending := 0, degraded := false, causes := 0, slots := [], dual := { x.dual with frames := [], arb := false } }
      else s.release p.val
    .next (s.finishAll (.zero p.val) stOk 0 [])
  else .next s

/-- PARTITION_SET_SHARE (06 R214, R210; 13 R441). -/
def partitionSetShareBody (c : Ctx) (s : State) : LmpRes :=
  let p := c.u8 0
  let x := s.part p
  let f := c.u8 1
  let gt := (x.golden.map (·.gtUs)).getD 0
  checked s [(s.named p, 0), (decide (1 ≤ f) && decide (f ≤ 3), 1), (!f.testBit 0 || decide (1 ≤ c.u16 2), 2),
      (!f.testBit 1 || (decide (100 ≤ c.u32 4) && decide (c.u32 4 ≤ s.sch.frame.fUs) && decide (gt ≤ c.u32 4)), 4)]
    [(f.testBit 1 && !x.priv && decide (s.sch.frame.fUs < s.windowSum p + c.u32 4), stNoMemory, 0)] fun _ =>
    .done stOk 0 [] (s.modPart p fun x => { x with
      share := if f.testBit 0 then c.u16 2 else x.share
      nextBudget := if f.testBit 1 then some (c.u32 4) else x.nextBudget })

/-- PARTITION_SET_SHARE. -/
def execPartitionSetShare (m : Fin 64) (s : State) : Host.Outcome State Fault Refusal :=
  .next (s.lmp m.val (isOp 0x12) (shared 0x12 ofNamed partitionSetShareBody))

/-! ### Claims (11 R402 to R405; 13 R458) -/

/-- The claim held on a resource instance. -/
def State.claimOf (s : State) (res inst : Nat) : Option Claim := s.claims.find? fun c => decide (c.res = res) && decide (c.inst = inst)

/-- G in GiB as the TOWER_LOCAL claims would make it, with one more (11 R403). -/
def State.claimedG (s : State) (extra : Nat) : Nat :=
  4 * (15 - s.claims.foldl (fun m (c : Claim) => if c.res = 7 then max m c.value else m) extra)

/-- The mailboxes whose claims conflict with a claim of (resource, instance, value) (11 R403). A claim on the same instance
conflicts too. -/
def State.conflicts (s : State) (res inst val : Nat) : List Nat :=
  let hold (f : Claim → Bool) : List Nat := (s.claims.filter f).map (·.mbx)
  let of (r : Nat) := hold fun c => decide (c.res = r)
  hold (fun c => decide (c.res = res) && decide (c.inst = inst)) ++ match res with
    | 0x01 => of 0x02
    | 0x02 => of 0x01
    | 0x03 => hold fun c => decide (c.res = 0x21) && decide (c.inst = 3)
    | 0x04 => of 0x05
    | 0x05 => of 0x04
    | 0x07 => hold fun c => decide (c.res = 0x08) && decide (s.claimedG val < c.value)
    | 0x08 => if s.claimedG 0 < val then of 0x07 else []
    | 0x21 => if inst = 3 then of 0x03 else []
    | _ => []

/-- The fields of RESOURCE_CLAIM and RESOURCE_RELEASE (13 R458). -/
def claimFields (c : Ctx) : List (Bool × Nat) :=
  let r := c.u8 0
  let known := decide (1 ≤ r) && decide (r ≤ 8)
  let res := decide (0x10 ≤ r) && decide (r ≤ 0x14)
  [(known || res, 0), (decide (c.u8 1 = 0), 1), (res || (if r = 7 then decide (c.u16 2 ≤ 3) else decide (c.u16 2 = 0)), 2),
   (res || (match r with
    | 5 => decide (1 ≤ c.u32 4) && decide (c.u32 4 ≤ 600)
    | 7 => decide (c.u32 4 ≤ 15)
    | 8 => decide (c.u32 4 ≤ 60)
    | _ => decide (c.u32 4 = 0)), 4)]

/-- RESOURCE_CLAIM (11 R402 to R405). EAST_I3C and CAM_SB_BULK complete once the handoff is accepted (R404). -/
def resourceClaimBody (c : Ctx) (s : State) : LmpRes :=
  let r := c.u8 0
  let inst := c.u16 2
  let v := c.u32 4
  let layout := decide (r = 7) || decide (r = 8)
  let own := match s.claimOf r inst with
    | some x => decide (x.mbx = c.m)
    | none => false
  let con := s.conflicts r inst v
  let x : Claim := { res := r, inst := inst, mbx := c.m, part := c.part, value := v }
  checked s (if layout && decide (c.m ≠ 0) then [] else claimFields c)
    [(layout && decide (c.m ≠ 0), stAuth, 0), (decide (0x10 ≤ r), stSafetyLock, 0),
      (layout && !s.users.isEmpty, stState, 0)] fun _ =>
    if own then .done stOk 0 [] s
    else if con ≠ [] then .refuse stBusy (con.min?.getD 0) s
    else if r = 4 ∨ r = 5 then
      if s.cam.role ≠ 0 then .refuse stBusy ((s.cam.roleClaim.map (·.mbx)).getD 0) s
      else .wait .i3cHandoff { s with cam := { s.cam with role := 1, roleClaim := some x } }
    else .done stOk 0 [] ({ s with claims := s.claims ++ [x] }).bump

/-- RESOURCE_CLAIM. -/
def execResourceClaim (m : Fin 64) (s : State) : Host.Outcome State Fault Refusal :=
  .next (s.lmp m.val (isOp 0xC0) resourceClaimBody)

/-- RESOURCE_RELEASE (11 R402 to R404). -/
def resourceReleaseBody (c : Ctx) (s : State) : LmpRes :=
  let r := c.u8 0
  let inst := c.u16 2
  let layout := decide (r = 7) || decide (r = 8)
  let mine := match s.claimOf r inst with
    | some x => decide (x.mbx = c.m)
    | none => false
  checked s ((claimFields c).take 3) [(decide (0x10 ≤ r), stSafetyLock, 0), (!mine, stState, 0), (layout && !s.users.isEmpty, stState, 0)]
    fun _ =>
      .done stOk 0 [] (s.dropClaims fun x => decide (x.res = r) && decide (x.inst = inst)).bump

/-- RESOURCE_RELEASE. -/
def execResourceRelease (m : Fin 64) (s : State) : Host.Outcome State Fault Refusal :=
  .next (s.lmp m.val (isOp 0xC1) resourceReleaseBody)

/-! ### Accounting (06 R233; 13 R459) -/

/-- An accounting record as 16 words (06 R233). -/
def Acct.bytes (a : Acct) : List Byte :=
  le 8 a.engine ++ le 8 a.dram ++ le 8 a.waitSum ++ le 8 (a.waitMax * 2 ^ 32 + a.preempts) ++
    le 8 (a.launches * 2 ^ 32 + a.overruns * 2 ^ 16 + a.failed) ++ ((List.range 16).flatMap fun i => le 4 (tget 0 a.hist i)) ++
    le 8 a.since ++ le 16 0

/-- ACCOUNTING_READ (06 R233; 13 R459). -/
def accountingReadBody (c : Ctx) (s : State) : LmpRes :=
  let k := c.u8 0
  let id := c.u8 1
  let own := decide (c.m = 0) || (decide (k = 0) && decide (id = c.m)) || (decide (k = 1) && decide (id = c.part)) || decide (2 < k)
  checked s (if !own then [] else [(decide (k ≤ 2), 0), (match k with
      | 0 => decide (id ≤ 63)
      | 1 => s.named id
      | _ => decide (id = 0), 1), (decide (c.u8 2 ≤ 1), 2), (decide (c.fld 3 5 = 0), 3)]) [(!own, stAuth, 0)] fun _ =>
    let a : Acct := match k with
      | 0 => tget ({} : Acct) s.sch.clients id
      | 1 => (s.part id).acct
      | _ => s.sch.system
    let z : Acct := { since := s.clk.ctc }
    let t := if c.u8 2 = 0 then s else match k with
      | 0 => { s with sch := { s.sch with clients := tput {} s.sch.clients id z } }
      | 1 => s.modPart id fun x => { x with acct := z }
      | _ => { s with sch := { s.sch with system := z } }
    .done stOk 0 a.bytes t

/-- ACCOUNTING_READ. -/
def execAccountingRead (m : Fin 64) (s : State) : Host.Outcome State Fault Refusal :=
  .next (s.lmp m.val (isOp 0xD0) accountingReadBody)

end Sys2Proof.Machine
end

