-- ==== Sys2Proof/Machine/Crypto.lean ====
section
/-! DEFINITION. SHAKE256 and Ed448 (14 R471, R478: as RFC 8032 defines it, pure form, with a context string; 10 R354, R355, R374). -/

namespace Sys2Proof.Machine

/-! ### SHAKE256 -/

/-- Rotate a 64-bit lane left. -/
def rotl (x n : Nat) : Nat := if n = 0 then x else ((x <<< n) ||| (x >>> (64 - n))) % 2 ^ 64

/-- Lane (x, y) of a state of 25 lanes. -/
def lane (a : List Nat) (x y : Nat) : Nat := a.getD (x % 5 + 5 * (y % 5)) 0

/-- Rotation of each lane, by 5 * y + x. -/
def keccakRot : List Nat :=
  [0, 1, 62, 28, 27, 36, 44, 6, 55, 20, 3, 10, 43, 25, 39, 41, 45, 15, 21, 8, 18, 2, 61, 56, 14]

/-- Round constants. -/
def keccakRc : List Nat :=
  [0x0000000000000001, 0x0000000000008082, 0x800000000000808A, 0x8000000080008000, 0x000000000000808B, 0x0000000080000001,
   0x8000000080008081, 0x8000000000008009, 0x000000000000008A, 0x0000000000000088, 0x0000000080008009, 0x000000008000000A] ++
  [0x000000008000808B, 0x800000000000008B, 0x8000000000008089, 0x8000000000008003, 0x8000000000008002, 0x8000000000000080,
   0x000000000000800A, 0x800000008000000A, 0x8000000080008081, 0x8000000000008080, 0x0000000080000001, 0x8000000080008008]

/-- One round of Keccak-f[1600]. -/
def keccakRound (a : List Nat) (rc : Nat) : List Nat :=
  let c := (List.range 5).map fun x => lane a x 0 ^^^ lane a x 1 ^^^ lane a x 2 ^^^ lane a x 3 ^^^ lane a x 4
  let d := (List.range 5).map fun x => c.getD ((x + 4) % 5) 0 ^^^ rotl (c.getD ((x + 1) % 5) 0) 1
  let t := (List.range 25).map fun i => a.getD i 0 ^^^ d.getD (i % 5) 0
  -- lane (x, y) moves to (y, 2x + 3y): the place (X, Y) takes x = X + 3Y, y = X
  let b := (List.range 25).map fun i =>
    let x := (i % 5 + 3 * (i / 5)) % 5
    let y := i % 5
    rotl (lane t x y) (keccakRot.getD (x + 5 * y) 0)
  let e := (List.range 25).map fun i =>
    let x := i % 5
    let y := i / 5
    lane b x y ^^^ ((2 ^ 64 - 1 - lane b (x + 1) y) &&& lane b (x + 2) y)
  e.set 0 (e.getD 0 0 ^^^ rc)

/-- Keccak-f[1600]. -/
def keccakF (a : List Nat) : List Nat := keccakRc.foldl keccakRound a

/-- Absorb whole blocks of 136 bytes; `n` is their number. -/
def absorb : Nat → List Byte → List Nat → List Nat
  | 0, _, a => a
  | n + 1, m, a =>
    let w := (List.range 17).map fun i => leNat ((m.drop (8 * i)).take 8)
    absorb n (m.drop 136) (keccakF ((List.range 25).map fun i => a.getD i 0 ^^^ w.getD i 0))

/-- Squeeze blocks of 136 bytes. -/
def squeeze : Nat → List Nat → List Byte
  | 0, _ => []
  | n + 1, a => ((a.take 17).flatMap fun x => leBytes 8 x) ++ squeeze n (keccakF a)

/-- The message with SHAKE's padding. -/
def shakePad (m : List Byte) : List Byte :=
  let k := 136 - (m.length + 1) % 136
  if k = 136 then m ++ [(0x9F : Byte)] else m ++ [(0x1F : Byte)] ++ List.replicate (k - 1) (0 : Byte) ++ [(0x80 : Byte)]

/-- SHAKE256 of `m` with `n` bytes of output. -/
def shake256 (m : List Byte) (n : Nat) : List Byte :=
  let p := shakePad m
  (squeeze ((n + 135) / 136) (absorb (p.length / 136) p (List.replicate 25 0))).take n

/-! ### Ed448 -/

abbrev edP : Nat := 2 ^ 448 - 2 ^ 224 - 1
/-- The order of the base point. -/
abbrev edL : Nat := 2 ^ 446 - 13818066809895115352007386748515426880336692474882178609894547503885
abbrev edD : Nat := edP - 39081
/-- The base point. -/
abbrev edBx : Nat := 224580040295924300187604334099896036246789641632564134246125461686950415467406032909029192869357953282578032075146446173674602635247710
abbrev edBy : Nat := 298819210078481492676017930443930673437544040154080242095928241372331506189835876003536878655418784733982303233503462500531545062832660

/-- A point in projective coordinates. -/
structure EdPoint where
  x : Nat
  y : Nat
  z : Nat
  deriving DecidableEq, Repr

/-- a - b modulo p. -/
def edSub (a b : Nat) : Nat := (a + edP - b % edP) % edP

/-- Point addition (RFC 8032, 5.2.4). -/
def edAdd (p q : EdPoint) : EdPoint :=
  let a := p.z * q.z % edP
  let b := a * a % edP
  let c := p.x * q.x % edP
  let d := p.y * q.y % edP
  let e := edD * (c * d % edP) % edP
  let f := edSub b e
  let g := (b + e) % edP
  let h := (p.x + p.y) * (q.x + q.y) % edP
  { x := a * f % edP * edSub (edSub h c) d % edP
    y := a * g % edP * edSub d c % edP
    z := f * g % edP }

/-- Scalar multiplication by the low `n` bits. -/
def edMul : Nat → Nat → EdPoint → EdPoint
  | 0, _, _ => ⟨0, 1, 1⟩
  | n + 1, k, p =>
    let q := edMul n (k / 2) (edAdd p p)
    if k % 2 = 1 then edAdd q p else q

/-- Power modulo p by the low `n` bits of the exponent. -/
def powMod : Nat → Nat → Nat → Nat
  | 0, _, _ => 1
  | n + 1, b, e => (if e % 2 = 1 then b else 1) * powMod n (b * b % edP) (e / 2) % edP

/-- Two points are equal. -/
def edEq (p q : EdPoint) : Bool := decide (p.x * q.z % edP = q.x * p.z % edP) && decide (p.y * q.z % edP = q.y * p.z % edP)

/-- Encode a point as 57 bytes (RFC 8032, 5.2.2). -/
def edEncode (p : EdPoint) : List Byte :=
  let i := powMod 448 p.z (edP - 2)
  leBytes 57 (p.y * i % edP + p.x * i % edP % 2 * 2 ^ 455)

/-- Decode 57 bytes (RFC 8032, 5.2.3). -/
def edDecode (bs : List Byte) : Option EdPoint :=
  let n := leNat bs
  let y := n % 2 ^ 455
  let sign := n / 2 ^ 455 % 2
  if bs.length ≠ 57 ∨ edP ≤ y then none
  else
    let y2 := y * y % edP
    let u := edSub y2 1
    let v := edSub (edD * y2 % edP) 1
    let u3 := u * u % edP * u % edP
    let v3 := v * v % edP * v % edP
    let x := u3 * v % edP * powMod 448 (u3 * u % edP * u % edP * v3 % edP) ((edP - 3) / 4) % edP
    if v * (x * x % edP) % edP ≠ u then none
    else if x = 0 ∧ sign = 1 then none
    else some ⟨if x % 2 = sign then x else edP - x, y, 1⟩

/-- dom4(0, context). -/
def edDom (ctx : List Byte) : List Byte :=
  [0x53, 0x69, 0x67, 0x45, 0x64, 0x34, 0x34, 0x38, 0x00, BitVec.ofNat 8 ctx.length] ++ ctx

abbrev edB : EdPoint := ⟨edBx, edBy, 1⟩

/-- The secret scalar and the prefix of a private key. -/
def edExpand (sk : List Byte) : Nat × List Byte :=
  let h := shake256 sk 114
  let s := leNat (h.take 57) % 2 ^ 448
  (s / 4 * 4 % 2 ^ 447 + 2 ^ 447, h.drop 57)

/-- The public key of a private key. -/
def edPublic (sk : List Byte) : List Byte := edEncode (edMul 448 (edExpand sk).1 edB)

/-- Sign (RFC 8032, 5.2.6). -/
def edSign (sk ctx msg : List Byte) : List Byte :=
  let (s, prefix_) := edExpand sk
  let a := edPublic sk
  let r := leNat (shake256 (edDom ctx ++ prefix_ ++ msg) 114) % edL
  let rb := edEncode (edMul 448 r edB)
  let k := leNat (shake256 (edDom ctx ++ rb ++ a ++ msg) 114) % edL
  rb ++ leBytes 57 ((r + k * s) % edL)

/-- Verify (RFC 8032, 5.2.7). -/
def edVerify (pk ctx msg sig : List Byte) : Bool :=
  match edDecode pk, edDecode (sig.take 57) with
  | some a, some r =>
    let s := leNat (sig.drop 57)
    let k := leNat (shake256 (edDom ctx ++ sig.take 57 ++ pk ++ msg) 114) % edL
    decide (sig.length = 114) && decide (s < edL) &&
      edEq (edMul 3 4 (edMul 448 s edB)) (edMul 3 4 (edAdd r (edMul 448 k a)))
  | _, _ => false

/-- The bytes of an ASCII string given by its codes. -/
def ascii (s : String) : List Byte := s.toList.map fun c => BitVec.ofNat 8 c.toNat

end Sys2Proof.Machine
end

