-- ==== Sys2Proof/Machine/Images.lean ====
section
/-! DEFINITION. IMAGE_LOAD and IMAGE_UNLOAD (13 R442, R443). -/

namespace Sys2Proof.Machine

abbrev imageFormat : Nat := 0x0200
abbrev imageTarget : Nat := 0x0201
abbrev imageMemory : Nat := 0x0202

/-- Some endpoint reaches host memory (12 R407). -/
def State.hostReachable (s : State) : Bool := (s.ep (s.route 0)).linkUp && !(s.ep (s.route 0)).d3hot

/-- A read of an image source delivers its data (01 R523; 07 R242). -/
def State.srcOk (s : State) (a n : Nat) : Bool := !s.anyBad a n && (decide (a < hostBase) || s.hostReachable)

/-- A write of `n` bytes meets an uncorrectable word or line that it does not wholly replace (07 R239, R255); `a` is a
multiple of 64. -/
def State.tailBad (s : State) (a n : Nat) : Bool :=
  let unit := if s.kind a = some .dram then 64 else 8
  decide (n % unit ≠ 0) && s.isBad (a + n - 1)

/-- The largest save record of an image (06 R222). -/
def ImageFacts_saveBytes (f : ImageFacts) : Nat :=
  (f.tasks.flatMap fun t => t.yields.map fun y => 768 + 64 * (y.map (·.2)).sum).foldl max 768

/-- The lowest free image index (13 R442). -/
def Partition.freeImage (p : Partition) : Option Nat := findLow (fun i => (tget none p.images i).isNone) 64 0

/-- The Golden Tile an image would give its partition (09 R328): the first of a partition of class ASIL A to D. -/
def Partition.takesGolden (p : Partition) (f : ImageFacts) (i : Nat) : Option Golden :=
  if 1 ≤ p.cls ∧ p.golden.isNone then
    f.golden.map fun g => { image := i, task := g.1, gtUs := g.2.1, sig := g.2.2 }
  else none

/-- The conditions of IMAGE_LOAD in the order of 13 R442, but those of the memory accesses; GT_US holds to the budget in force and to one
that waits for the next frame (06 R210). -/
def State.imageConds (s : State) (x : Partition) (f : ImageFacts) : List (Bool × Nat × Nat) :=
  [(f.dynamicShape, stUnsupported, 0), (s.saf.det && (f.arrival || f.atomics), stConflict, 0),
   (f.tasks.any (·.backward) && decide (x.cls ≠ 0), stArg, 0xFFFF),
   (match x.takesGolden f 0 with
     | some g => decide (min x.budgetUs (x.nextBudget.getD x.budgetUs) < g.gtUs)
     | none => false, stArg, 0xFFFF),
   (x.freeImage.isNone, stNoMemory, 0), (decide (x.saveBytes < ImageFacts_saveBytes f), stNoMemory, 0)]

/-- The body of IMAGE_LOAD; `f` is what its header says. A load whose write fails has copied a part of the image, how much is
open. -/
def imageLoadBody (f : ImageFacts) (c : Ctx) (s : State) : LmpRes :=
  let x := s.part c.part
  let src := c.u64 0
  let dst := c.u64 8
  let n := c.u32 0x10
  checked s [(c.daOk 0 && (decide (s.kindRange src (max 1 n) = some .host) || x.inRegion src n), 0),
      (c.daOk 8 && decide (dst % 64 = 0) && x.inRegion dst n, 8), (decide (4096 ≤ n ∧ n ≤ gib), 0x10), (decide (c.u32 0x14 = 0), 0x14)]
    ([(f.malformed.isSome, imageFormat, min 0xFFFF (f.malformed.getD 0 / 64)),
      (decide (f.siliconRev ≠ Config.siliconRev.toNat), imageTarget, 0),
      (f.srcFails || !s.srcOk src n, imageMemory, 1)] ++ if s.tailBad dst n then [] else s.imageConds x f) fun _ =>
    let bytes := s.rd src n
    if s.tailBad dst n then
      let (k, s) := s.draw 30
      .refuse imageMemory 2 (s.writeCells dst (bytes.take (k % n)) 64 (n + 1))
    else
      let i := x.freeImage.getD 0
      let meas := shake256 bytes 32
      let g := x.takesGolden f i
      let s := s.writeCells dst bytes (if s.kind dst = some .dram then 64 else 8) (n + 1)
      let s := s.modPart c.part fun y => { y with
        images := tput none y.images i (some { dest := dst, bytes := n, meas := meas, facts := f })
        golden := if g.isSome then g else y.golden }
      .done stOk 0 (le 1 i ++ le 1 ((if f.golden.isSome then 1 else 0) + if g.isSome then 2 else 0) ++ le 6 0 ++ meas) s

/-- IMAGE_LOAD. -/
def execImageLoad (m : Fin 64) (img : ImageFacts) (s : State) : Host.Outcome State Fault Refusal :=
  .next (s.lmp m.val (isOp 0x20) (shared 0x20 ofClient (imageLoadBody img)))

/-- The IMAGE a stream binding names, where LAUNCH_EN makes it apply (13 R448). -/
def Binding.image (b : Binding) : Option Nat :=
  if (leNat ((b.pl.drop 0x20).take 1)).testBit 4 then some (leNat ((b.pl.drop 0x23).take 1)) else none

/-- A stream binding of a partition names an image. -/
def State.streamNames (s : State) (p i : Nat) : Bool :=
  s.cam.streams.any fun (x : Nat × Stream) => [x.2.bind, x.2.next].any fun b => match b with
    | some b => decide (b.part = p) && decide (b.image = some i)
    | none => false

/-- The body of IMAGE_UNLOAD. -/
def imageUnloadBody (c : Ctx) (s : State) : LmpRes :=
  let x := s.part c.part
  let i := c.u8 0
  let jobs := (s.jobsOf c.part).any fun j => decide ((s.job j).image = i)
  let seqs := s.liveSlots.any fun k => decide ((s.sq k).part = c.part) && decide ((s.sq k).image = i)
  checked s [((tget none x.images i).isSome, 0), (decide (c.fld 1 7 = 0), 1)]
    [(jobs || seqs || s.streamNames c.part i, stState, 0),
      (decide (1 ≤ x.cls) && decide ((x.golden.map (·.image)) = some i), stSafetyLock, 0)] fun _ =>
    .done stOk 0 [] (s.modPart c.part fun y => { y with images := tput none y.images i none })

/-- IMAGE_UNLOAD. -/
def execImageUnload (m : Fin 64) (s : State) : Host.Outcome State Fault Refusal :=
  .next (s.lmp m.val (isOp 0x21) (shared 0x21 ofClient imageUnloadBody))

end Sys2Proof.Machine
end

