-- ==== Sys2Proof/Machine/Launches.lean ====
section
/-! DEFINITION. LAUNCH, LAUNCH_AT and TASK_ABORT (13 R444, R446; 06 R215, R228, R528; 08 R289, R290, R298 to R300). -/

namespace Sys2Proof.Machine

/-- A job that a mailbox's tag stands for. -/
def Job.tagged (b : Job) : Bool := b.live && (decide (b.kind = .launch) || decide (b.kind = .stepLaunch))

/-- The launches of mailbox `m` that have not ended. -/
def State.launchesOf (s : State) (m : Nat) : List Nat := s.jobIds.filter fun j => (s.job j).tagged && decide ((s.job j).mbx = m)

/-- The lowest tag value of a mailbox that no running launch holds (06 R215). -/
def State.freeTag (s : State) (m : Nat) : Nat :=
  (findLow (fun t => (s.launchesOf m).all fun j => decide ((s.job j).tag ≠ t)) 65536 0).getD 0

/-- The partition and the mailbox may hold one more launch (06 R215). -/
def State.launchRoom (s : State) (p m : Nat) : Bool :=
  decide ((s.launchesOf m).length < 1024) &&
    decide (((s.jobsOf p).filter fun j => (s.job j).tagged).length < (s.part p).maxLaunches)

/-- This member is the standby of a mirrored partition, or refuses its launches for a handover (10 R359, R370). -/
def State.standsBy (s : State) (p : Nat) : Bool := !s.publishes p || s.tw.refuse.getLsbD p

/-- The entries of a step launch: handle and PENDING. -/
def stepEntries (c : Ctx) : List (Nat × Nat) := (List.range (c.u16 4)).map fun i => (c.u32 (48 + 8 * i), c.u32 (52 + 8 * i))

/-- The FLAGS of a launch. -/
def launchExplicit (c : Ctx) : Bool := (c.u8 1).testBit 0
def launchStep (c : Ctx) : Bool := (c.u8 1).testBit 1
def launchTwin (c : Ctx) : Bool := (c.u8 1).testBit 2

/-- The fields of LAUNCH and LAUNCH_AT (13 R444). -/
def State.launchFields (s : State) (c : Ctx) (at_ : Bool) : List (Bool × Nat) :=
  let x := s.part c.part
  let es := stepEntries c
  let ts := (ImageFacts_tasks (s.facts c.part (c.u8 0)) (c.u16 2)).getD []
  let bad := es.findIdx? fun e => !(decide (e.1 < 2 ^ 20) && decide (1 ≤ e.2) && decide (e.2 ≤ 2 ^ 31))
  [(decide (c.pl.length = 48 + 8 * c.u16 4), 0xFFFF), ((tget none x.images (c.u8 0)).isSome, 0), (decide (c.u8 1 < 8) && (at_ || !launchTwin c), 1), (!ts.isEmpty, 2),
   (if launchStep c then decide (1 ≤ c.u16 4) && decide (c.u16 4 ≤ 498) else decide (c.u16 4 = 0), 4),
   (decide (c.u16 6 = 0), 6), (launchExplicit c || decide (c.u64 8 = 0), 8),
   (at_ || decide (c.u64 0x10 = 0), 0x10), (c.daOk 0x18, 0x18),
   (c.daOk 0x20 && decide (c.u64 0x20 % 64 = 0) && s.recordReach c.part (c.u64 0x20), 0x20), (decide (c.u64 0x28 = 0), 0x28),
   (bad.isNone, 0x8000 + bad.getD 0)]

/-- The first entry whose handle is not live. -/
def State.staleEntry (s : State) (c : Ctx) : Option Nat := (stepEntries c).findIdx? fun e => !s.liveHandle c.part e.1

/-- The first entry whose tokens would take a sequence past its MAX_LENGTH (06 R528); the entries before it that name the
same sequence count as wanted (log 111). -/
def State.longEntry (s : State) (c : Ctx) : Option Nat :=
  let es := stepEntries c
  (List.range es.length).find? fun i =>
    let e := es.getD i (0, 0)
    let q := s.sq (slotOf e.1)
    let before := (((es.take i).filter fun x => decide (x.1 = e.1)).map (·.2)).sum
    decide (q.maxLen < e.2 + q.length + s.wantedTokens e.1 + before)

/-- The conditions of LAUNCH and LAUNCH_AT in order (13 R435, R444; 08 R298, R299). -/
def State.launchConds (s : State) (c : Ctx) (at_ : Bool) : List (Bool × Nat × Nat) :=
  let x := s.part c.part
  [((s.staleEntry c).isSome, stStale, 48 + 8 * (s.staleEntry c).getD 0),
   (decide (x.stateCode ≠ 0) || s.standsBy c.part, stState, x.stateCode),
   (decide (1 ≤ x.cls) && x.golden.isNone, stSafetyLock, 0),
   (!s.launchRoom c.part c.m, stNoMemory, 0),
   ((s.longEntry c).isSome, stArg, 0x8000 + (s.longEntry c).getD 0),
   (at_ && decide (c.u64 0x10 < s.clk.ctc + 20000), stTimeout, 0),
   (at_ && decide (s.clk.ctc + 10000000000 < c.u64 0x10), stArg, 0x10),
   (at_ && launchTwin c && !(decide (s.tw.st = 1) && s.clk.twinValid), stState, 0)]

/-- The tasks of a launch; without DUAL those of the shadow instance do not run (09 R331, R332). -/
def State.launchTasks (s : State) (c : Ctx) : List TaskSt :=
  let ts := (ImageFacts_tasks (s.facts c.part (c.u8 0)) (c.u16 2)).getD []
  if (s.part c.part).dual.mode = 0 then ts.map fun t => if t.decl.shadow then { t with phase := .done } else t else ts

/-- Accept a launch with a step value (`none`: its builds take theirs): it gets its tag, its task graph starts, and the
SWAPPED sequences it wants start their return (06 R215; 04 R149); one of a DUAL_COMPARE partition is compared with the
partner's (10 R358). Answers the state and the completion. -/
def State.accept (s : State) (c : Ctx) (at_ : Option Nat) (step : Option Nat) : State × List Byte :=
  let n := s.sch.nextJob
  let tag := s.freeTag c.m
  let gen := tget 0 s.sch.tagGen (65536 * c.m + tag)
  let isStep := launchStep c
  let es := stepEntries c
  let ts := if isStep then [] else s.launchTasks c
  let own := (s.part c.part).dual.mode
  let dual := if isStep then 0 else if own = 0 ∧ s.mirrored c.part ∧ s.tw.mode = 2 then 3 else own
  let s := { s with sch := { s.sch with nextJob := n + 1 } }
  let s := s.freshMarks ts
  let s := s.modJob n fun _ => { live := true, kind := if isStep then .stepLaunch else .launch, part := c.part, mbx := c.m
                                 tag := tag, gen := gen, image := c.u8 0, entry := c.u16 2, step := step.getD (2 ^ 64 - 1)
                                 explicit := step.isSome, startAt := at_, twin := launchTwin c, argsDa := c.u64 0x18
                                 complDa := c.u64 0x20, tasks := ts, dual := dual
                                 wants := (es.filter fun e => decide (e.2 ≠ 0)).map fun e => { handle := e.1, tokens := e.2 }, payload := c.pl }
  let s := es.foldl (fun s (e : Nat × Nat) => if (s.sq (slotOf e.1)).st = sqSwapped then s.startSwapIn (slotOf e.1) else s) s
  (s, le 2 tag ++ le 1 gen ++ le 5 0 ++ le 8 (step.getD (2 ^ 64 - 1)))

/-- The step value of a launch: named, or the next of the partition's counter, or none for a step launch whose builds take
theirs (08 R289, R290). -/
def State.takeStep (s : State) (c : Ctx) : State × Option Nat :=
  if launchExplicit c then (s, some (c.u64 8))
  else if launchStep c then (s, none)
  else (s.modPart c.part fun x => { x with step := (x.step + 1) % 2 ^ 64 }, some (s.part c.part).step)

/-- The body of LAUNCH (`at_` false) and LAUNCH_AT. One that names the partner waits for its answer (08 R299); one of a
mirrored partition waits for the standby to log it (10 R359). -/
def launchBody (at_ : Bool) (c : Ctx) (s : State) : LmpRes :=
  checked s (s.launchFields c at_) (s.launchConds c at_) fun _ =>
    let (s, step) := s.takeStep c
    if at_ && launchTwin c then
      .wait (.launchTwin c.part (step.getD (2 ^ 64 - 1)))
        (s.send (.launchAt (Fin.ofNat 16 c.part) (Fin.ofNat 64 c.m) (step.getD (2 ^ 64 - 1)) c.pl))
    else
      let (s, out) := s.accept c (if at_ then some (c.u64 0x10) else none) step
      if s.mirrored c.part then
        .wait (.launchLog c.part (step.getD (2 ^ 64 - 1)) out)
          (s.logLaunch c.part c.m (if at_ then 0x31 else 0x30) (step.getD (2 ^ 64 - 1)) c.pl)
      else .done stOk 0 out s

/-- LAUNCH. -/
def execLaunch (m : Fin 64) (s : State) : Host.Outcome State Fault Refusal := .next (s.lmp m.val (isOp 0x30) (launchBody false))

/-- LAUNCH_AT. -/
def execLaunchAt (m : Fin 64) (s : State) : Host.Outcome State Fault Refusal := .next (s.lmp m.val (isOp 0x31) (launchBody true))

/-- The launch a mailbox, tag generation and tag name (06 R215). -/
def State.launchNamed (s : State) (m gen tag : Nat) : Option Nat :=
  (s.launchesOf m).find? fun j => decide ((s.job j).tag = tag) && decide ((s.job j).gen = gen)

/-- The body of TASK_ABORT (06 R228; 13 R446). -/
def taskAbortBody (c : Ctx) (s : State) : LmpRes :=
  let m := c.u8 0
  checked s [(decide (m ≤ 63) && (decide (c.m = 0) || decide (m = c.m)), 0), (decide (c.u32 4 = 0), 4)] [] fun _ =>
    match s.launchNamed m (c.u8 1) (c.u16 2) with
    | some j => .done stOk 0 [] (s.abort j)
    | none => .refuse stStale 1 s

/-- TASK_ABORT. -/
def execTaskAbort (m : Fin 64) (s : State) : Host.Outcome State Fault Refusal := .next (s.lmp m.val (isOp 0x32) taskAbortBody)

end Sys2Proof.Machine
end

