-- ==== Sys2Proof/Machine/SafetyCfg.lean ====
section
/-! DEFINITION. SAFETY_CONFIG (13 R451): the settings of 06 R207, 07 R261, 08 R277, 09 R331 and R342, and its two actions (14
R462, R463). -/

namespace Sys2Proof.Machine

/-- An item of SAFETY_CONFIG. -/
structure CfgItem where
  key : Nat
  part : Nat
  rsv : Nat
  v : Nat
  deriving DecidableEq, Repr

/-- The items of the payload. -/
def cfgItems (c : Ctx) : List CfgItem :=
  (List.range (c.u8 0)).map fun i => ⟨c.u16 (8 + 16 * i), c.u8 (10 + 16 * i), c.fld (11 + 16 * i) 5, c.u64 (16 + 16 * i)⟩

/-- The key of the first item. -/
def firstKey (c : Ctx) : Nat := c.u16 8

/-- The Domes of a DUAL_MODE other than OFF are as 09 R331 asks: a privileged partition that spans at least two Towers, the
shadow on Towers that hold none of its other Domes. -/
def Partition.dualOk (x : Partition) (mask : BitVec 16) : Bool :=
  let rest := x.domes &&& ~~~ mask
  x.priv && decide (2 ≤ (towersOf x.domes).length) && decide (mask ≠ 0) && decide (mask &&& ~~~ x.domes = 0) && decide (rest ≠ 0) &&
    (towersOf mask).all fun t => decide (t ∉ towersOf rest)

/-- The SHADOW_MASK of a DUAL value. -/
def dualMask (v : Nat) : BitVec 16 := BitVec.ofNat 16 (nbits v 47 32)

/-- An item's fields are in range (13 R451; log 22 for a DUAL_MODE of OFF). -/
def State.itemOk (s : State) (n : Nat) (i : CfgItem) : Bool :=
  decide (i.rsv = 0) && (decide (i.key = 5) || decide (i.part = 0)) && match i.key with
  | 1 | 6 => decide (i.v ≤ 1)
  | 2 => decide (1000 ≤ i.v) && decide (i.v ≤ 100000)
  | 3 => decide (256 ≤ i.v) && decide (i.v ≤ 8192)
  | 4 => decide (257 ≤ i.v) && decide (i.v ≤ 16384)
  | 5 =>
    let k := nbits i.v 15 8
    let m := nbits i.v 23 16
    s.named i.part && decide (i.v % 4 ≤ 2) && decide (nbits i.v 7 3 = 0) && decide (nbits i.v 31 24 = 0) && decide (i.v < 2 ^ 48) &&
      decide (1 ≤ m) && decide (m ≤ 64) && decide (1 ≤ k) && decide (k ≤ m) &&
      (decide (i.v % 4 = 0) || (s.part i.part).dualOk (dualMask i.v))
  | 0x10 => decide (n = 1) && decide (i.v ≤ 3)
  | 0x11 => decide (n = 1) && decide (i.v = 0)
  | _ => false

/-- The thresholds once every item had been applied (07 R261). -/
def State.rhAfter (s : State) (is : List CfgItem) : Nat × Nat :=
  is.foldl (fun (x : Nat × Nat) i => if i.key = 3 then (i.v, x.2) else if i.key = 4 then (x.1, i.v) else x) (s.mem.nextT1, s.mem.nextT2)

/-- The index of the last RH item. -/
def lastRh (is : List CfgItem) : Nat :=
  ((List.range is.length).filter fun i => match is[i]? with
    | some x => decide (x.key = 3) || decide (x.key = 4)
    | none => false).foldl max 0

/-- Work in progress that keeps DET_MODE as it is (08 R277). -/
def State.detBusy (s : State) : Bool :=
  s.workInFlight || s.liveSlots.any fun i => decide ((s.sq i).st = sqSwapOut) || decide ((s.sq i).st = sqSwapIn)

/-- A loaded image declares a construct of 08 R278. -/
def State.detConflict (s : State) : Bool :=
  s.users.any fun p => (s.part p).images.any fun (x : Nat × Option Image) => match x.2 with
    | some i => i.facts.arrival || i.facts.atomics
    | none => false

/-- Privileged Domes or running launches keep a Tower from its reset (13 R451). -/
def State.towerBusy (s : State) (t : Nat) : Bool :=
  (List.range 4).any (fun i => s.ownedDomes.getLsbD (4 * t + i)) || (List.range 16).any fun i => (s.spire (16 * t + i)).job.isSome

/-- What refuses an item (13 R451). -/
def State.itemConds (s : State) (i : CfgItem) : List (Bool × Nat × Nat) :=
  match i.key with
  | 1 => [(s.detBusy, stState, 0), (s.detConflict, stConflict, 0)]
  | 2 => [(!s.users.isEmpty, stState, 0)]
  | 5 => [((s.jobsOf i.part).any fun j => decide ((s.job j).kind ≠ .proposer), stState, 0)]
  | 6 => [(decide (i.v = 0) && decide (s.otp.lc ≠ 1) && decide (s.otp.lc ≠ 4), stSafetyLock, 0)]
  | 0x10 => [(s.towerBusy i.v, stState, 0)]
  | _ => []

/-- A warm reset is due, at least 1 ms from now (14 R462; 13 R451, R455, R461). -/
def State.warmDue (s : State) (cause : Nat) : State :=
  { s with bs := { s.bs with delayed := some (cause, s.clk.elapsed + 1000000) } }

/-- Where the rotating self-test stands when it is enabled: the next slot to begin (09 R338). -/
def SelfTest.enable (t : SelfTest) (elapsed : Nat) : SelfTest :=
  let i := ceilDiv elapsed 1000000
  if t.enabled then t else { t with enabled := true, slot := i % 200, rotation := i / 200, now := [] }

/-- Apply one setting. -/
def State.applyItem (s : State) (i : CfgItem) : State :=
  match i.key with
  | 1 => { s with saf := { s.saf with det := decide (i.v = 1) } }
  | 2 => { s with sch := { s.sch with frame := { s.sch.frame with fUs := i.v, next := roundUp s.clk.ctc (i.v * 1000) } } }
  | 3 => { s with mem := { s.mem with nextT1 := i.v } }
  | 4 => { s with mem := { s.mem with nextT2 := i.v } }
  | 5 => s.modPart i.part fun x => { x with dual := { x.dual with
      mode := i.v % 4, flag := i.v.testBit 2, k := nbits i.v 15 8, n := nbits i.v 23 16, shadow := dualMask i.v } }
  | 6 => { s with saf := { s.saf with test :=
      if i.v = 1 then s.saf.test.enable s.clk.elapsed else { s.saf.test with enabled := false, everDisabled := true } } }
  | 0x11 => s.warmDue 2
  | _ => s

/-- The wipe of a Tower reset (14 R464; 04 R143): its Dome Stores, Spire Stores and Tower-local DRAM. -/
def State.wipeTower (s : State) (t : Nat) : State :=
  let s := (List.range 4).foldl (fun s i =>
    (s.zero (domeStoreBase + (4 * t + i) * 0x1000000) 0x1000000).zero (spireStoreBase + (4 * t + i) * 0x1000000) 0x1000000) s
  (s.zero (s.mem.localStart t * gib) (s.mem.loc t * gib)).unretire (s.mem.localStart t * gib) (s.mem.loc t * gib)

/-- The body of SAFETY_CONFIG. -/
def safetyConfigBody (c : Ctx) (s : State) : LmpRes :=
  let is := cfgItems c
  let n := c.u8 0
  let bad := is.findIdx? fun i => !s.itemOk n i
  let rh := s.rhAfter is
  checked s [(decide (c.pl.length = 8 + 16 * n), 0xFFFF), (decide (1 ≤ n) && decide (n ≤ 16), 0), (decide (c.fld 1 7 = 0), 1),
      (bad.isNone, 0x8000 + bad.getD 0), (decide (rh.1 < rh.2) || !(is.any fun i => decide (i.key = 3) || decide (i.key = 4)), 0x8000 + lastRh is)]
    (is.flatMap s.itemConds) fun _ =>
    if firstKey c = 0x10 then .wait (.towerReset (c.u64 16)) (s.wipeTower (c.u64 16))
    else .done stOk 0 [] (is.foldl (fun s i => s.applyItem i) s)

/-- A SAFETY_CONFIG whose first item is of one of these keys. A setting is shared with the twin partner (10 R360), an action
is this member's own. -/
def State.safetyRow (s : State) (m : Fin 64) (keys : Nat → Bool) : State :=
  s.lmp m.val (fun o c => decide (o = 0x70) && keys (firstKey c)) fun c s =>
    if firstKey c < 0x10 then shared 0x70 (fun _ => none) safetyConfigBody c s else safetyConfigBody c s

/-- DET_MODE; a first key outside the table is refused here. -/
def execDetMode (m : Fin 64) (s : State) : Host.Outcome State Fault Refusal :=
  .next (s.safetyRow m fun k => decide (k = 1) || decide (k = 0) || (decide (6 < k) && decide (k ≠ 0x10) && decide (k ≠ 0x11)))

/-- MAJOR_FRAME_US. -/
def execMajorFrameUs (m : Fin 64) (s : State) : Host.Outcome State Fault Refusal := .next (s.safetyRow m fun k => decide (k = 2))

/-- RH_T1. -/
def execRhT1 (m : Fin 64) (s : State) : Host.Outcome State Fault Refusal := .next (s.safetyRow m fun k => decide (k = 3))

/-- RH_T2. -/
def execRhT2 (m : Fin 64) (s : State) : Host.Outcome State Fault Refusal := .next (s.safetyRow m fun k => decide (k = 4))

/-- DUAL. -/
def execDual (m : Fin 64) (s : State) : Host.Outcome State Fault Refusal := .next (s.safetyRow m fun k => decide (k = 5))

/-- SELFTEST_ROTATION. -/
def execSelftestRotation (m : Fin 64) (s : State) : Host.Outcome State Fault Refusal := .next (s.safetyRow m fun k => decide (k = 6))

/-- TOWER_RESET. -/
def execTowerReset (m : Fin 64) (s : State) : Host.Outcome State Fault Refusal := .next (s.safetyRow m fun k => decide (k = 0x10))

/-- WARM_RESET. -/
def execWarmReset (m : Fin 64) (s : State) : Host.Outcome State Fault Refusal := .next (s.safetyRow m fun k => decide (k = 0x11))

end Sys2Proof.Machine
end

