-- ==== Sys2Proof/Machine/Digest.lean ====
section
/-! DEFINITION. Configuration sections, digests, their audit and their cross-twin comparison (10 R373 to R377; 13 R455). -/

namespace Sys2Proof.Machine

/-- Bytes as numbers. -/
def nats (bs : List Byte) : List Nat := bs.map (·.toNat)

/-- The settings of section 0 (10 R373): DET_MODE, the major frame, T1 and T2, the DRAM layout, the self-test rotation. -/
def State.chipSettings (s : State) : List Nat :=
  [if s.saf.det then 1 else 0, s.sch.frame.fUs, s.mem.nextT1, s.mem.nextT2] ++ (List.range 4).map s.mem.loc ++
    [if s.saf.test.enabled then 1 else 0]

/-- The settings of a user partition (10 R373). -/
def State.partSettings (s : State) (p : Nat) : List Nat :=
  let x := s.part p
  if !x.live then []
  else
    let b (v : Bool) : Nat := if v then 1 else 0
    [x.cls, b x.priv, b x.strict, b x.dmaList, b x.report, x.role, x.domes.toNat, x.nextBudget.getD x.budgetUs, x.share, x.storeMib,
      x.storeOff, x.credit, x.seqQuota, x.maxLaunches, x.kvDa, x.kvBytes, x.swapDa, x.swapBytes, x.saveDa, x.saveBytes, x.saveSlots,
      x.lowWm, x.highWm, x.dual.mode, x.dual.shadow.toNat, b x.dual.flag, x.dual.k, x.dual.n] ++
    (x.regions.flatMap fun r => [r.1, r.2]) ++
    (x.images.flatMap fun (i : Nat × Option Image) => match i.2 with
      | some v => [i.1, v.dest, v.bytes] ++ nats v.meas
      | none => []) ++
    ((s.liveSlots.filter fun i => decide ((s.sq i).part = p)).flatMap fun i =>
      let q := s.sq i
      [i, q.gen, q.image, q.policy, q.lfmt, q.nl, q.dc64, q.maxLen, q.ptBase, q.ptLen, q.share])

/-- The member-local settings, section 16 (10 R373). -/
def State.localSettings (s : State) : List Nat :=
  let bind (b : Option Binding) : List Nat := match b with
    | some v => [v.mbx, v.part] ++ nats v.pl
    | none => []
  (nats (s.tw.record.getD [])) ++ [s.tw.role, s.tw.mode, s.tw.mirror.toNat, s.tw.home.toNat, s.clk.periodMs, s.clk.offsetNs] ++
    ((List.range 64).flatMap fun m => [(s.mbx m).partition, (s.mbx m).gen, (s.mbx m).weight]) ++
    (s.claims.flatMap fun c => [c.res, c.inst, c.mbx, c.part, c.value]) ++
    (s.cam.streams.flatMap fun (x : Nat × Stream) => x.1 :: bind x.2.bind) ++
    (s.cam.ports.flatMap fun (x : Nat × Display) => x.1 :: bind x.2.bind) ++
    [s.heat.cool.newProtect.toNat, s.heat.cool.newNom, if s.heat.cool.handover then 1 else 0]

/-- The settings of a section. -/
def State.settings (s : State) (sec : Nat) : List Nat :=
  if sec = 0 then s.chipSettings else if sec < 16 then s.partSettings sec else s.localSettings

/-- The registers of a section that a unit holds (10 R374). -/
def State.regs (s : State) (u sec : Nat) : List (Nat × Nat) := Config.cfgRegs u sec (s.settings sec)

/-- The units that hold a section, ascending. -/
def State.holders (s : State) (sec : Nat) : List Nat := (sourcesFrom 0).filter fun u => !(s.regs u sec).isEmpty

/-- leaf(u, s) of 10 R374. -/
def State.leaf (s : State) (u sec : Nat) : List Byte :=
  shake256 (le 1 0 ++ le 1 sec ++ le 2 u ++ (s.regs u sec).flatMap fun r => le 4 r.1 ++ le 8 r.2) 32

/-- sroot(s) of 10 R374. -/
def State.sroot (s : State) (sec : Nat) : List Byte :=
  let us := s.holders sec
  shake256 (le 1 1 ++ le 1 sec ++ le 2 us.length ++ us.flatMap fun u => le 2 u ++ s.leaf u sec) 32

/-- croot of 10 R374. -/
def State.croot (s : State) : List Byte := shake256 (le 1 2 ++ (List.range 17).flatMap s.sroot) 32

/-- CONFIG_ROOT_GET (13 R455). -/
def configRootBody (c : Ctx) (s : State) : LmpRes :=
  let mode := c.u8 0
  let sec := c.u8 1
  checked s [(decide (mode ≤ 2) && !(c.i3c && decide (mode = 1)), 0), (decide (sec ≤ 16), 1), (decide (c.u32 4 = 0), 4)] [] fun _ =>
    let head := le 4 s.cfgEpoch ++ le 4 0 ++ s.croot
    if mode = 0 then .done stOk 0 head s
    else if mode = 1 then .done stOk 0 (head ++ (List.range 17).flatMap s.sroot) s
    else
      let all := (s.holders sec).filter fun u => decide (c.u16 2 ≤ u)
      let k := if c.i3c then 2 else 100
      .done stOk 0 (le 2 (min k all.length) ++ le 2 ((all.drop k).headD 0xFFFF) ++ le 4 s.cfgEpoch ++
        (all.take k).flatMap fun u => le 2 u ++ le 6 0 ++ s.leaf u sec) s

/-- CONFIG_ROOT_GET. -/
def execConfigRootGet (src : CmdSrc) (s : State) : Host.Outcome State Fault Refusal :=
  .next (s.lmpAny src 0x0090 configRootBody)

/-- CONFIG_AUDIT (10 R376; 09 R308, R309): the next unit of the Lantern's pass, A ascending and B descending; `leafOk` says that
its leaves are those recomputed from its registers, `rootOk` that after the last unit of a pass the root is Cupola's. -/
def execConfigAudit (l : Fin 2) (leafOk rootOk : Bool) (s : State) : Host.Outcome State Fault Refusal :=
  if (s.lantern l.val).out then .next s
  else
    let us := if l = 0 then sourcesFrom 0 else (sourcesFrom 0).reverse
    let i := tget 0 s.saf.audit l.val
    let u := us.getD i 0
    let last := us.length ≤ i + 1
    let s := { s with saf := { s.saf with audit := tput 0 s.saf.audit l.val (if last then 0 else i + 1) } }
    let s := if leafOk then s else if u < 0x40 then (s.record u 43 lvMasked {}).lockstep u 43 else s.lockstep u 43
    .next (if last ∧ ¬ rootOk then s.loseCupola s.saf.active 43 (srcIo s.saf.active 1) else s)

/-- The sections two members compare at a frame start: 0 and those of the mirrored partitions (10 R377). -/
def State.comparedSections (s : State) : List Nat := 0 :: filterLow (fun p => decide (p ≠ 0) && s.tw.mirror.getLsbD p) 16

/-- The roots this member sent for a frame. -/
def State.rootsOf (s : State) (frame : Nat) : Option (List Nat) :=
  s.tw.sent.findSome? fun x => match x with
    | .roots f rs => if f = frame then some rs else none
    | _ => none

/-- TWIN_READY of a partition clears (10 R359, R362, R377). -/
def State.clearReady (s : State) (p : Nat) : State := s.modTwp p fun t => { t with ready := false }

/-- An event of class TWIN from the Lantern that posts (12 R428); TAKEOVER and TWIN_SPLIT are urgent (R426). -/
def State.postTwin (s : State) (code payload : Nat) : State :=
  s.post 8 (srcIo s.poster 2) code payload [] (decide (code = 1) || decide (code = 5))

/-- One section's roots differ (10 R377): CFG_DIGEST at the Twin Link port with section and first differing unit, the event and
the fault record, and TWIN_READY cleared. The level is open below PARTITION (log 19). -/
def State.rootMismatch (s : State) (port sec u : Nat) : State :=
  let (v, s) := s.draw 8
  let s := s.record (srcIo port 6) 43 (v % 3) { detail := sec, addr := u }
  let s := s.postTwin 6 (if sec = 0 then 0xFF else sec)
  let s := s.faultRec ⟨s.recs.seq, srcIo port 6, 43, sec, v % 3, s.clk.ctc⟩
  (s.comparedSections.drop 1).foldl (fun s p =>
    if sec = 0 ∨ sec = p then s.modTwp p fun t => { t with ready := false, cfgOk := false } else s) s

/-- TWIN_ROOT_COMPARE (10 R377): the partner's roots for a frame arrive through a port; `diff` are the first differing units of
the sections compared, as the leaf exchange finds them. -/
def execTwinRootCompare (port : Fin 2) (frame : Nat) (roots diff : List Nat) (s : State) : Host.Outcome State Fault Refusal :=
  match s.rootsOf frame with
  | some mine =>
    if s.tw.st ≠ 1 then .next s
    else
      let secs := s.comparedSections
      let bad (i : Nat) : Bool := decide (mine.getD i 0 ≠ roots.getD i 0)
      let s := (secs.drop 1).foldl (fun s p => s.modTwp p fun t => { t with cfgOk := true }) s
      .next ((List.range secs.length).foldl (fun s i =>
        if bad i then s.rootMismatch port.val (secs.getD i 0) (diff.getD i 0) else s) s)
  | none => .next s

end Sys2Proof.Machine
end

