-- ==== Sys2Proof/Machine/Security.lean ====
section
/-! DEFINITION. Keys, attestation and the life-cycle (13 R455, R456; 14 R477 to R483). -/

namespace Sys2Proof.Machine

/-- The device identity key, also the attestation key (14 R478). -/
def Otp.skId (o : Otp) : List Byte := shake256 (le 1 0x20 ++ o.seed ++ le 1 o.lc ++ le 1 o.count ++ ascii "ID") 57

/-- The device identity public key, BOOT_ID_KEY (14 R478). -/
def Otp.idKey (o : Otp) : List Byte := edPublic o.skId

/-- A presented OEM root key is OTP's (14 R477). -/
def Otp.rootOk (o : Otp) (key : List Byte) : Bool := decide (shake256 (le 1 0x30 ++ key) 32 = o.oemRoot)

/-- A key presented as the OEM root: accepted when it is OTP's and no other was accepted before (14 R477). -/
def State.presentRoot (s : State) (key : List Byte) : State :=
  if s.bs.oemKey.isNone ∧ s.otp.rootOk key then { s with bs := { s.bs with oemKey := some key } } else s

/-- `n` bytes the manual leaves open. -/
def State.drawBytes (s : State) : Nat → List Byte × State
  | 0 => ([], s)
  | n + 1 =>
    let (v, s) := s.draw 8
    let (t, s) := s.drawBytes n
    (BitVec.ofNat 8 v :: t, s)

/-- The measurements of the running Cupola and Lantern firmware; open before any image runs (log 23). -/
def State.measurements (s : State) (l : Nat) : List Byte × List Byte × State :=
  let (c, s) := match s.bs.fw with
    | some f => (f.cupola, s)
    | none => s.drawBytes 32
  let (x, s) := match tget none s.bs.lantFw l with
    | some m => (m, s)
    | none => s.drawBytes 32
  (c, x, s)

/-- A fresh attestation report (13 R456; 14 R483). -/
def State.attestReport (s : State) (nonce : List Byte) (l : Nat) : List Byte × State :=
  let (cm, lm, s) := s.measurements l
  let body := le 1 1 ++ le 1 s.otp.lc ++ le 2 0 ++ le 4 s.cfgEpoch ++ le 8 s.otp.uid ++ le 8 s.clk.ctc ++ nonce ++ cm ++ lm ++ s.croot ++
    le 4 (s.bs.fw.getD {}).version ++ le 4 s.otp.rollback
  (body ++ edSign s.otp.skId (ascii "AZL-ATTEST") body, s)

/-- ATTEST (13 R456; 14 R482). -/
def attestBody (c : Ctx) (s : State) : LmpRes :=
  let nonce := (c.pl.take 16)
  let off := c.u16 0x10
  checked s [(decide (off < 258), 0x10), (decide (c.fld 0x12 6 = 0), 0x12)] [(decide (s.otp.lc = 5), stState, 0)] fun _ =>
    let (rep, s) := match s.bs.reports.find? fun r => decide (r.1 = nonce) with
      | some r => (r.2, s)
      | none =>
        let (rep, s) := s.attestReport nonce (if c.i3c then c.m - 64 else s.poster)
        (rep, { s with bs := { s.bs with reports := (nonce, rep) :: s.bs.reports } })
    let n := if c.i3c then min 112 (258 - off) else 258 - off
    .done stOk 0 (le 2 258 ++ le 2 off ++ le 2 n ++ le 2 0 ++ (rep.drop off).take n) s

/-- ATTEST. -/
def execAttest (src : CmdSrc) (s : State) : Host.Outcome State Fault Refusal := .next (s.lmpAny src 0x00A0 attestBody)

/-- The public keys that authorise a transition; `none` for a transition 14 R480 does not list. -/
def State.transitionKeys (s : State) (target : Nat) : Option (List (List Byte)) :=
  let zw (i : Nat) := Config.zwifortKey i
  let oem := s.bs.oemKey.toList
  match s.otp.lc, target with
  | 0, 1 => some [zw 0]
  | 1, 2 => if s.otp.graded ∧ ¬ s.otp.fwKey.isEmpty ∧ ¬ s.otp.oemRoot.isEmpty then some [zw 1] else none
  | 2, 3 => some oem
  | 3, 4 => some oem
  | 4, 3 => some [zw 2]
  | 0, 5 => some [zw 0]
  | 1, 5 => some [zw 0]
  | 2, 5 => some (zw 2 :: oem)
  | 3, 5 => some (zw 2 :: oem)
  | 4, 5 => some (zw 2 :: oem)
  | _, _ => none

/-- LIFECYCLE_ADVANCE (13 R455; 14 R480, R481): the fuse write, the wipe and the warm reset follow at least 1 ms later. -/
def lifecycleBody (c : Ctx) (s : State) : LmpRes :=
  let t := c.u8 0
  let auth := (c.pl.drop 8).take 114
  let msg := le 8 s.otp.uid ++ le 1 s.otp.lc ++ le 1 t
  let keys := s.transitionKeys t
  checked s [(decide (t ≤ 5), 0), (decide (c.fld 1 7 = 0), 1), (decide (c.fld 0x7A 6 = 0), 0x7A)]
    [(keys.isSome && !((keys.getD []).any fun k => edVerify k [] msg auth), stAuth, 0),
      (keys.isNone || (decide (15 ≤ s.otp.count) && decide (t ≠ 5)) || !s.users.isEmpty, stState, s.otp.lc)] fun _ =>
    let s := s.warmDue 2
    .done stOk 0 [] { s with bs := { s.bs with lcTo := some t } }

/-- LIFECYCLE_ADVANCE. -/
def execLifecycleAdvance (m : Fin 64) (s : State) : Host.Outcome State Fault Refusal :=
  .next (s.lmp m.val (isOp 0xA1) lifecycleBody)

end Sys2Proof.Machine
end

