-- ==== Sys2Proof/Machine/Regs.lean ====
section
/-! DEFINITION. BAR0 (12 R409 to R413, R416 to R418, R423; 14 R468), the registers of Spill Queues and of the sequence table
(07 R272; 04 R114), the MSI-X table: what reads give and what writes do (00 R9, R10). -/

namespace Sys2Proof.Machine

/-! ### Boot registers (14 R468) -/

/-- Boot stages (14 R465, R466). -/
abbrev stReleased : Nat := 3
abbrev stWaitImage : Nat := 4
abbrev stFetch : Nat := 5
abbrev stVerify : Nat := 6
abbrev stLoad : Nat := 7
abbrev stUnitInit : Nat := 8
abbrev stConfig : Nat := 9
abbrev stReady : Nat := 10
abbrev stRecoveryWait : Nat := 14
abbrev stHalted : Nat := 15
abbrev stRecoveryLoad : Nat := 16

/-- A boot error of an attempt on a slot (3 for none); the first of a boot stays (14 R469). -/
def State.bootErr (s : State) (slot code : Nat) : State :=
  if s.bs.err = 0 then { s with bs := { s.bs with err := slot * 2 ^ 14 + code } } else s

/-- Boot registers take writes: WAIT_IMAGE or RECOVERY_WAIT, before a GO and before an I3C recovery claims (14 R468, R476). -/
def State.bootOpen (s : State) : Bool :=
  (decide (s.bs.stage = stWaitImage) || decide (s.bs.stage = stRecoveryWait)) && s.bs.goEp.isNone && s.bs.rcvBy.isNone

/-- The length of slot 0 or 1. -/
def State.slotLen (s : State) (i : Nat) : Nat := if i = 0 then s.bs.lenA else s.bs.lenB

/-- The device address of the image of slot 0 or 1 (01 R42). -/
def State.bootDa (s : State) (i : Nat) : Nat := hostBase + if i = 0 then s.bs.addrA else s.bs.addrB

/-- The slot an active staging record names (14 R468 HINT_VALID, HINT_SLOT). -/
def State.hint (s : State) : Option Nat :=
  match s.bs.staging with
  | some (slot, _, true) => some slot
  | _ => none

/-- The slot tried first (14 R473). -/
def State.firstSlot (s : State) : Nat := s.hint.getD (if s.bs.prefer then 1 else 0)

/-- RECOVERY_WAIT: both recovery addresses wait for data and GO may be written again (14 R473, R476). -/
def State.recoveryWait (s : State) : State :=
  { s with bs := { s.bs with
    stage := stRecoveryWait, goEp := none, rcvBy := none, rcvState := 1, rcvData := [], slot := 3, tried := [] } }

/-- Fetch the next slot: the first that has a length and was not tried; with none left, RECOVERY_WAIT (14 R473). -/
def State.trySlot (s : State) : State :=
  let order := [s.firstSlot, 1 - s.firstSlot]
  match order.find? fun i => decide (s.slotLen i ≠ 0) && decide (i ∉ s.bs.tried) with
  | some i => { s with bs := { s.bs with stage := stFetch, slot := i, tried := i :: s.bs.tried, waitSince := s.clk.elapsed } }
  | none => s.recoveryWait

/-- BOOT_CTRL.GO through endpoint `ep` (14 R468, R473). -/
def State.bootGo (s : State) (ep : Nat) : State :=
  if s.bootOpen then
    let t : State := { s with bs := { s.bs with goEp := some ep, tried := [] } }
    t.trySlot
  else s

/-- BOOT_GO (14 R473). -/
def execBootGo (ep : Fin 2) (s : State) : Host.Outcome State Fault Refusal := .next (s.bootGo ep.val)

/-- The key BOOT_OEM_ROOT holds. -/
def State.oemRegKey (s : State) : List Byte := memBytes s.bs.oemReg 0 57

/-! ### What a register reads -/

/-- BOOT_STATUS (12 R411). -/
def State.bootStatus (s : State) : Nat :=
  let b (x : Bool) (i : Nat) : Nat := if x then 2 ^ i else 0
  s.bs.timeUs % 2 ^ 32 * 2 ^ 32 + s.bs.err % 2 ^ 16 * 2 ^ 16 + s.bs.cause % 16 * 2 ^ 12 +
    b (s.bs.lmpReady && !tget false s.saf.cupolaOut (1 - s.saf.active)) 11 + s.saf.active % 2 * 2 ^ 10 + b s.bs.recovery 9 +
    b s.bs.lmpReady 8 + s.bs.stage % 256

/-- BOOT_INFO (14 R468). -/
def State.bootInfo (s : State) : Nat :=
  s.otp.rollback % 256 * 2 ^ 40 + s.otp.lc % 256 * 2 ^ 32 + (if s.otp.rootOk s.oemRegKey then 2 ^ 15 else 0) +
    s.bs.booted % 4 * 2 ^ 10 + (if s.hint.isSome then 2 ^ 8 else 0) + s.hint.getD 0 % 4

/-- A register of the BOOT_STATUS block. -/
def State.bootReg (s : State) (off : Nat) : Nat :=
  if off = 0x00 then s.bootStatus
  else if off = 0x08 then s.bs.addrA
  else if off = 0x10 then s.bs.addrB
  else if off = 0x18 then s.bs.lenB * 2 ^ 32 + s.bs.lenA
  else if off = 0x20 then (if s.bs.prefer then 2 else 0)
  else if off = 0x28 then s.bootInfo
  else if 0x40 ≤ off ∧ off < 0x80 then memNat s.bs.oemReg (off - 0x40) 8
  else if 0x80 ≤ off ∧ off < 0xC0 then leNat ((s.otp.idKey.drop (off - 0x80)).take 8)
  else 0

/-- SQ_STATUS (07 R272). -/
def SpillQ.status (q : SpillQ) : Nat :=
  let b (x : Bool) (i : Nat) : Nat := if x then 2 ^ i else 0
  b q.overflow 0 + b q.parity 1 + b q.spillPoison 2 + b q.spillFault 3 + b q.cfgReject 4

/-- A register of a Spill Queue's block that a read leaves unchanged (07 R272). -/
def SpillQ.reg (q : SpillQ) (off : Nat) : Nat :=
  match off with
  | 0x00 => (if q.drop then 2 else 0) + if q.enable then 1 else 0
  | 0x08 => q.base
  | 0x10 => q.size
  | 0x18 => q.count
  | 0x20 => q.status
  | 0x28 => q.dropped
  | _ => 0

/-- EVQ_IRQ (12 R423). -/
def EvqIrq.word (q : EvqIrq) : Nat := (if q.armed then 2 ^ 32 else 0) + q.holdoffUs % 2 ^ 16 * 2 ^ 16 + q.threshold % 2 ^ 16

/-- A register of a mailbox (12 R416); all zero before LMP_READY (R412). -/
def State.mbxReg (s : State) (m off : Nat) : Nat :=
  let b := s.mbx m
  if !s.bs.lmpReady then 0
  else if off = 0x00 then b.gen * 2 ^ 32 + (if m = 0 then 0 else b.partition) * 2 ^ 24 + (if b.ignored then 2 ^ 8 else 0) + b.st
  else if off = 0x08 then b.hdr.toNat
  else if off = 0x18 then b.status.toNat
  else if 0x40 ≤ off then memNat b.payload (off - 0x40) 8
  else 0

/-- A register of the BAR2 window control of endpoint `ep` (12 R413). -/
def State.winReg (s : State) (ep off : Nat) : Nat :=
  if off = 0x100 then (s.ep ep).reject.toNat
  else if off % 16 = 0 then tget 0 (s.ep ep).winBase (off / 16)
  else (tget 0 (s.ep ep).winCtrl (off / 16)).toNat

/-- What a 64-bit read of BAR0 through an endpoint gives, its offset a multiple of 8, for the registers a read leaves
unchanged (12 R409). -/
def State.bar0Read (s : State) (ep off : Nat) : Nat :=
  if off < 0x1000 then
    match off with
    | 0x00 => s.devId0 ep
    | 0x08 => devCaps0
    | 0x10 => devCaps1
    | 0x18 => s.otp.uid
    | _ => 0
  else if off < 0x2000 then s.bootReg (off - 0x1000)
  else if off < 0x3000 then if off = 0x2040 then s.host.irq.word else (s.q 0).reg (off - 0x2000)
  else if off < 0x4000 then s.stickySummary (off - 0x3000)
  else if off < 0x5000 then s.ctcReg (off - 0x4000)
  else if 0x10000 ≤ off ∧ off < 0x50000 then s.mbxReg ((off - 0x10000) / 0x1000) (off % 0x1000)
  else if 0x100000 ≤ off ∧ off < 0x100108 then s.winReg ep (off - 0x100000)
  else 0

/-! ### What a write does -/

/-- A register's 64-bit value after a write: a 32-bit access reaches the addressed half (12 R409). -/
def halfWrite (old : Nat) (off : Nat) (wide : Bool) (v : W64) : W64 :=
  if wide then v
  else if off % 8 = 4 then BitVec.ofNat 64 (old % 2 ^ 32 + v.toNat % 2 ^ 32 * 2 ^ 32)
  else BitVec.ofNat 64 (old / 2 ^ 32 * 2 ^ 32 + v.toNat % 2 ^ 32)

/-- A write to a mailbox that is ignored (12 R418). -/
def State.ignoreMbx (s : State) (m : Nat) : State :=
  if (s.mbx m).ignored then s
  else (s.modMbx m fun b => { b with ignored := true }).record s.srcMbx 10 lvMasked {}

/-- Host software may write this STATE in the present one (12 R417). -/
def mbxMove (now next : Nat) : Bool :=
  (decide (next = mbFilling) && (decide (now = mbFree) || decide (now = mbDone))) ||
    (decide (next = mbFree) && (decide (now = mbFilling) || decide (now = mbDone)))

/-- A write of STATE (12 R417, R418); before LMP_READY every write is ignored (R412). -/
def State.mbxState (s : State) (m next : Nat) : State :=
  if !s.bs.lmpReady then s
  else if mbxMove (s.mbx m).st next then s.modMbx m fun b => { b with st := next }
  else s.ignoreMbx m

/-- A write of GO = 1 (12 R417, R418, R420): the command is submitted, and firmware rejects it in its turn where its header
fails (R419). -/
def State.mbxGo (s : State) (m ep : Nat) : State :=
  if !s.bs.lmpReady then s
  else if (s.mbx m).st = mbFilling then
    (s.modMbx m fun b => { b with st := mbSubmitted, goEp := ep }).rejectHeaders 64
  else s.ignoreMbx m

/-- MBX_STATE_FILLING (12 R417). -/
def execMbxStateFilling (m : Fin 64) (_ep : Fin 2) (s : State) : Host.Outcome State Fault Refusal :=
  .next (s.mbxState m.val mbFilling)

/-- MBX_STATE_FREE (12 R417). -/
def execMbxStateFree (m : Fin 64) (_ep : Fin 2) (s : State) : Host.Outcome State Fault Refusal :=
  .next (s.mbxState m.val mbFree)

/-- MBX_GO (12 R417, R420). -/
def execMbxGo (m : Fin 64) (ep : Fin 2) (s : State) : Host.Outcome State Fault Refusal := .next (s.mbxGo m.val ep.val)

/-- A write into a mailbox's page (12 R416, R418; log 24). -/
def State.mbxWrite (s : State) (m ep off : Nat) (wide : Bool) (v : W64) : State :=
  let b := s.mbx m
  if !s.bs.lmpReady then s
  else if 0x40 ≤ off then
    if b.st = mbFilling then s.modMbx m fun b => { b with
      payload := memStore b.payload (off - 0x40) (leBytes (if wide then 8 else 4) v.toNat) }
    else s.ignoreMbx m
  else if off = 0 then
    let s1 := if v.getLsbD 8 then s.modMbx m fun b => { b with ignored := false } else s
    if bits v 2 0 = b.st then (if v.getLsbD 8 then s1 else s.ignoreMbx m) else s1.mbxState m (bits v 2 0)
  else if off / 8 = 1 then
    if b.st = mbFilling then s.modMbx m fun b => { b with hdr := halfWrite b.hdr.toNat off wide v } else s.ignoreMbx m
  else if off = 0x10 ∧ b.st = mbFilling then (if v.getLsbD 0 then s.mbxGo m ep else s)
  else s.ignoreMbx m

/-- A range of a window lies in one DRAM or Tower SRAM range of the partition's REGION (12 R414). -/
def State.winOk (s : State) (base : Nat) (v : W64) : Bool :=
  let p := bits v 47 40
  let n := (bits v 11 0 + 1) * mib
  decide (1 ≤ p) && decide (p ≤ 15) && (s.part p).live && (s.part p).inRegion base n && s.inOneOf base n

/-- The fields of WIN_CTRL; reserved bits are not written (00 R10). -/
abbrev winMask : W64 := 0xE000FF0000000FFF#64

/-- A write to WIN_CTRL (12 R413, R414): SIZE_M1 and PARTITION stay while ENABLE is 1, and a write that sets ENABLE is refused
outside the partition's region. -/
def State.winCtrl (s : State) (ep w : Nat) (v : W64) : State :=
  let e := s.ep ep
  let old := tget 0 e.winCtrl w
  let v := v &&& winMask
  let fixed : W64 := 0x0000FF0000000FFF#64
  let v := if old.getLsbD 63 then (v &&& ~~~ fixed) ||| (old &&& fixed) else v
  let bad := !old.getLsbD 63 && v.getLsbD 63 && !s.winOk (tget 0 e.winBase w) v
  s.modEp ep fun e => { e with
    winCtrl := tput 0 e.winCtrl w (if bad then v &&& ~~~ 0x8000000000000000#64 else v)
    reject := if bad then e.reject ||| BitVec.ofNat 16 (2 ^ w) else e.reject }

/-- WIN_CTRL_WRITE (12 R414). -/
def execWinCtrlWrite (ep : Fin 2) (w : Fin 16) (v : W64) (s : State) : Host.Outcome State Fault Refusal :=
  .next (s.winCtrl ep.val w.val v)

/-- A write to the BAR2 window control (12 R413, R414). -/
def State.winWrite (s : State) (ep off : Nat) (wide : Bool) (v : W64) : State :=
  let e := s.ep ep
  let w := off / 16
  if off / 8 * 8 = 0x100 then
    if off = 0x100 then s.modEp ep fun e => { e with reject := e.reject &&& ~~~ (v.setWidth 16) } else s
  else if off % 16 < 8 then
    if (tget 0 e.winCtrl w).getLsbD 63 then s
    else
      let nv := (halfWrite (tget 0 e.winBase w) off wide v).toNat % 2 ^ 52 / mib * mib
      s.modEp ep fun e => { e with winBase := tput 0 e.winBase w nv }
  else s.winCtrl ep w (halfWrite (tget 0 e.winCtrl w).toNat off wide v)

/-- A write to the BOOT_STATUS block (14 R468); BOOT_OEM_ROOT is presented as it stands (R477). -/
def State.bootWrite (s : State) (ep off : Nat) (wide : Bool) (v : W64) : State :=
  let nv := (halfWrite (s.bootReg (off / 8 * 8)) off wide v).toNat
  if !s.bootOpen then s
  else if off / 8 = 1 then { s with bs := { s.bs with addrA := nv % 2 ^ 47 / 4096 * 4096 } }
  else if off / 8 = 2 then { s with bs := { s.bs with addrB := nv % 2 ^ 47 / 4096 * 4096 } }
  else if off / 8 = 3 then { s with bs := { s.bs with lenA := nv % 2 ^ 32, lenB := nv / 2 ^ 32 } }
  else if off / 8 = 4 then
    let t : State := { s with bs := { s.bs with prefer := nv.testBit 1 } }
    if nv.testBit 0 then t.bootGo ep else t
  else if 0x40 ≤ off ∧ off < 0x80 then
    let reg := memZero (memStore s.bs.oemReg (off / 8 * 8 - 0x40) (leBytes 8 nv)) 57 7
    let t : State := { s with bs := { s.bs with oemReg := reg } }
    t.presentRoot t.oemRegKey
  else s

/-- A write to a Spill Queue's block (07 R272): RO and RC registers ignore it, and SQ_PUSH is written only where firmware
produces. -/
def State.sqWrite (s : State) (q : QueueId) (off : Nat) (wide : Bool) (v : W64) : State :=
  let x := s.q q.key
  if off / 8 = 0 then s.sqCtrl q (halfWrite (x.reg 0) off wide v)
  else if off / 8 = 1 then s.sqConfig q false (halfWrite x.base off wide v)
  else if off / 8 = 2 then s.sqConfig q true (halfWrite x.size off wide v)
  else if off = 0x20 then s.sqStatus q v
  else if off = 0x38 ∧ wide ∧ q = .evq then s.sqPush q (sqWord v.toNat (v.getLsbD 62))
  else s

/-- A write to BAR0 (12 R409). -/
def State.bar0Write (s : State) (ep off : Nat) (wide : Bool) (v : W64) : State :=
  if 0x1000 ≤ off ∧ off < 0x2000 then s.bootWrite ep (off - 0x1000) wide v
  else if 0x2000 ≤ off ∧ off < 0x2038 then s.sqWrite .evq (off - 0x2000) wide v
  else if off / 8 = 0x408 then s.evqIrq ep (halfWrite s.host.irq.word off wide v)
  else if off = 0x4008 then s.ctcStatusWrite v
  else if 0x10000 ≤ off ∧ off < 0x50000 then s.mbxWrite ((off - 0x10000) / 0x1000) ep (off % 0x1000) wide v
  else if 0x100000 ≤ off ∧ off < 0x100108 then s.winWrite ep (off - 0x100000) wide v
  else s

/-- A write to a word of the sequence table (04 R114): only SWAP_POLICY and SHARE are RW. The manual says nothing of an unused SWAP_POLICY
code, a SHARE of 0, or SWAP_ALLOWED where R127 and R146 keep a sequence RESIDENT: the bits are stored as written (log 134). -/
def State.seqWrite (s : State) (slot word : Nat) (v : W64) : State :=
  match word with
  | 0 => s.modSeq slot fun q => { q with policy := bits v 33 32 }
  | 3 => s.modSeq slot fun q => { q with share := bits v 63 48 }
  | _ => s

/-- REGISTER_WRITE (00 R9): a write to a register with no row of its own acts by its access type; a register with a row of
its own acts as that row. Unit control space holds no other register the manual describes (log 12). -/
def execRegisterWrite (tgt : RegTarget) (v : W64) (s : State) : Host.Outcome State Fault Refusal :=
  match tgt with
  | .bar0 ep off wide => .next (s.bar0Write ep.val off wide v)
  | .bar4 ep off => if off + 8 ≤ 16 * 66 then .next (s.modEp ep.val fun e => { e with msix := memStore e.msix off (leBytes 8 v.toNat) })
    else .next s
  | .sq q off => .next (s.sqWrite q off true v)
  | .seqEntry slot word => .next (s.seqWrite slot.val word.val v)
  | .other _ => .next s

end Sys2Proof.Machine
end

