-- ==== Sys2Proof/Machine/I3c.lean ====
section
/-! DEFINITION. The I3C ports (12 R430 to R432) and the recovery address (14 R476). -/

namespace Sys2Proof.Machine

/-! ### Reads of the safety mailbox (12 R431) -/

/-- PKG_IDENT is set in a Lantern's record (01 R31). -/
def State.pkgIdent (s : State) (l : Nat) : Bool := (s.errRec (srcIo l 2)).sticky.getLsbD 34

/-- SM_STATUS. -/
def State.smStatus (s : State) (l : Nat) : Nat :=
  let b (x : Bool) (i : Nat) : Nat := if x then 2 ^ i else 0
  b (!(s.lantern l).out) 0 + b (!(s.lantern (1 - l)).out && !(s.lantern l).peerLost) 1 + b (s.pkgIdent l) 2 +
    b (s.lantern l).pinLow 3 + b (s.ep 0).linkUp 4 + b (s.ep 1).linkUp 5 + b s.bs.lmpReady 6 + b s.bs.recovery 7 +
    s.stickySummary 0x28 / 2 ^ 32 % 256 * 2 ^ 8 + s.tw.st % 4 * 2 ^ 16

/-- A fault record as SM_FAULT shows it. -/
def FaultRec.bytes (f : FaultRec) : List Byte :=
  leBytes 4 f.seq ++ leBytes 2 f.source ++ leBytes 1 f.bit ++ leBytes 1 f.detail ++ leBytes 1 f.level ++ leBytes 7 0 ++
    leBytes 8 f.ctc ++ leBytes 8 0

/-- A byte of the safety mailbox of Lantern `l`. -/
def State.smByte (s : State) (l off : Nat) : Byte :=
  let t := s.sm l
  let of (v base : Nat) : Byte := BitVec.ofNat 8 (v / 256 ^ (off - base))
  if off < 0x04 then of (0x1F2B + l * 2 ^ 16 + 2 ^ 24) 0
  else if off < 0x08 then of (s.smStatus l) 4
  else if off < 0x10 then of t.ctcLatch 8
  else if off < 0x38 then of (s.stickySummary ((off - 0x10) / 8 * 8)) (0x10 + (off - 0x10) / 8 * 8)
  else if off < 0x3C then of s.recs.seq 0x38
  else if off < 0x40 then of t.faults.length 0x3C
  else if off < 0x60 then
    match t.faults with
    | f :: _ => f.bytes.getD (off - 0x40) 0
    | [] => 0
  else if off < 0x80 then memByte t.cmd off
  else if off < 0x88 then of t.rspHdr.toNat 0x80
  else t.rsp.getD (off - 0x88) 0

/-- Read one byte at the current offset and advance: byte 0x08 latches the CTC, byte 0x5F removes the fault record. -/
def State.smReadByte (s : State) (l : Nat) : Byte × State :=
  let off := (s.sm l).offset
  let s := if off = 8 then s.modSm l fun t => { t with ctcLatch := s.clk.ctc } else s
  let b := s.smByte l off
  (b, s.modSm l fun t => { t with
    offset := (off + 1) % 256, faults := if off = 0x5F then t.faults.drop 1 else t.faults })

/-- Read bytes in order. -/
def State.readBytes (one : State → Byte × State) : Nat → State → List Byte × State
  | 0, s => ([], s)
  | n + 1, s =>
    let (b, s) := one s
    let (t, s) := State.readBytes one n s
    (b :: t, s)

/-! ### Writes -/

/-- The opcodes a safety mailbox accepts (12 R432). -/
def smOpcode (op : Nat) : Bool := op ∈ [0x71, 0x72, 0x73, 0x90, 0xA0]

/-- GO in SM_CMD_HDR (12 R431, R432): ignored while busy; an opcode of another command is refused. -/
def State.smGo (s : State) (l : Nat) : State :=
  let t := s.sm l
  if t.state = 1 then s
  else if smOpcode (t.cmdNat 0 2) then s.modSm l fun t => { t with rspHdr := smHdr 0 0 (t.cmdNat 2 2) 0 1, rsp := [] }
  else s.smComplete l stUnsupported 0 []

/-- Write one byte at the current offset and advance (12 R431): only SM_CMD_HDR and SM_CMD take writes. -/
def State.smWriteByte (s : State) (l : Nat) (b : Byte) : State :=
  let off := (s.sm l).offset
  let s := s.modSm l fun t => { t with
    offset := (off + 1) % 256, cmd := if 0x60 ≤ off ∧ off < 0x80 then memSet t.cmd off b else t.cmd }
  if off = 0x67 ∧ b = 1 then s.smGo l else s

/-! ### The recovery address (14 R476) -/

/-- RCV_STATUS: state 6 while the other Lantern or PCIe has the boot. -/
def State.rcvStatus (s : State) (l : Nat) : Nat :=
  if s.bs.goEp.isSome ∨ s.bs.rcvBy = some (1 - l) then 6 else s.bs.rcvState + s.bs.rcvErr * 2 ^ 8

/-- A byte of the recovery registers. -/
def State.rcvByte (s : State) (l off : Nat) : Byte :=
  let of (v base : Nat) : Byte := BitVec.ofNat 8 (v / 256 ^ (off - base))
  if off < 4 then of (s.rcvStatus l) 0
  else if off < 8 then of (tget 0 s.bs.rcvLen l) 4
  else if off < 0xC then of (if s.bs.rcvBy = some l then s.bs.rcvData.length else 0) 8
  else if 0x40 ≤ off ∧ off < 0x79 then memByte (tget [] s.bs.rcvOem l) (off - 0x40)
  else 0

/-- Read one byte there and advance. -/
def State.rcvReadByte (s : State) (l : Nat) : Byte × State :=
  let off := tget 0 s.bs.rcvOff l
  (s.rcvByte l off, { s with bs := { s.bs with rcvOff := tput 0 s.bs.rcvOff l ((off + 1) % 256) } })

/-- The recovery registers of Lantern `l` take writes: RECOVERY_WAIT before any claim, or its own claim. -/
def State.rcvOpen (s : State) (l : Nat) : Bool :=
  (decide (s.bs.stage = stRecoveryWait) && s.bs.rcvBy.isNone && s.bs.goEp.isNone) ||
    (decide (s.bs.rcvBy = some l) && decide (s.bs.rcvState = 2))

/-- A byte written to RCV_DATA: the first claims recovery. -/
def State.rcvData (s : State) (l : Nat) (b : Byte) : State :=
  if s.rcvOpen l then { s with bs := { s.bs with
    rcvBy := some l, stage := stRecoveryLoad, rcvState := 2, rcvErr := 0, rcvData := s.bs.rcvData ++ [b] } }
  else s

/-- RCV_GO ends the transfer and starts verification. -/
def State.rcvGo (s : State) (l : Nat) : State :=
  if s.bs.rcvBy = some l ∧ s.bs.rcvState = 2 then { s with bs := { s.bs with rcvState := 3, waitSince := s.clk.elapsed } } else s

/-- A byte written at an offset of the recovery registers; RCV_OEM_ROOT is presented as it stands (14 R477). -/
def State.rcvWriteAt (s : State) (l off : Nat) (b : Byte) : State :=
  if off = 0x10 then s.rcvData l b
  else if off = 0x14 then (if b = 1 then s.rcvGo l else s)
  else if !s.rcvOpen l then s
  else if 4 ≤ off ∧ off < 8 ∧ s.bs.rcvBy.isNone then
    let old := tget 0 s.bs.rcvLen l
    let sh := 256 ^ (off - 4)
    { s with bs := { s.bs with rcvLen := tput 0 s.bs.rcvLen l (old - old / sh % 256 * sh + b.toNat * sh) } }
  else if 0x40 ≤ off ∧ off < 0x79 then
    let reg := memSet (tget [] s.bs.rcvOem l) (off - 0x40) b
    let t : State := { s with bs := { s.bs with rcvOem := tput [] s.bs.rcvOem l reg } }
    t.presentRoot (memBytes reg 0 57)
  else s

/-- Write one byte there; the offset advances except at RCV_DATA. -/
def State.rcvWriteByte (s : State) (l : Nat) (b : Byte) : State :=
  let off := tget 0 s.bs.rcvOff l
  let s := s.rcvWriteAt l off b
  if off = 0x10 then s else { s with bs := { s.bs with rcvOff := tput 0 s.bs.rcvOff l ((off + 1) % 256) } }

/-! ### Transfers -/

/-- I3C_PRIVATE_WRITE (12 R431; 14 R476): the first byte sets the offset, the others are written from there. -/
def execI3cPrivateWrite (l : Fin 2) (recovery : Bool) (data : List Byte) (s : State) : Host.Outcome State Fault Refusal :=
  match data with
  | [] => .next s
  | off :: bs =>
    if recovery then
      let t : State := { s with bs := { s.bs with rcvOff := tput 0 s.bs.rcvOff l.val off.toNat } }
      .next (bs.foldl (fun s b => s.rcvWriteByte l.val b) t)
    else .next (bs.foldl (fun s b => s.smWriteByte l.val b) (s.modSm l.val fun t => { t with offset := off.toNat }))

/-- I3C_PRIVATE_READ (12 R431; 14 R476). -/
def execI3cPrivateRead (l : Fin 2) (recovery : Bool) (n : Nat) (s : State) : Host.Outcome State Fault Refusal :=
  let (bs, t) := State.readBytes (fun s => if recovery then s.rcvReadByte l.val else s.smReadByte l.val) n s
  .next (t.answer bs false)

/-- RCV_DATA (14 R476). -/
def execRcvData (l : Fin 2) (b : Byte) (s : State) : Host.Outcome State Fault Refusal := .next (s.rcvData l.val b)

/-- RCV_GO (14 R476). -/
def execRcvGo (l : Fin 2) (s : State) : Host.Outcome State Fault Refusal := .next (s.rcvGo l.val)

/-- I3C_CCC (12 R430): dynamic addresses, event enables, and the reads of the port's characteristics. -/
def execI3cCcc (l : Fin 2) (code : Ccc) (s : State) : Host.Outcome State Fault Refusal :=
  let reg (i n : Nat) : State := s.answer (leBytes n (Config.i3cReg l.val i)) false
  match code with
  | .entdaa a => .next (if (s.sm l.val).dynAddr.isNone then s.modSm l.val fun t => { t with dynAddr := some (a % 128) } else s)
  | .setdasa st a => .next (if st = 0x2A + l.val ∧ (s.sm l.val).dynAddr.isNone then
      s.modSm l.val fun t => { t with dynAddr := some (a % 128) } else s)
  | .rstdaa => .next (s.modSm l.val fun t => { t with dynAddr := none })
  | .enec e => .next (s.modSm l.val fun t => { t with events := t.events ||| e % 256 })
  | .disec e => .next (s.modSm l.val fun t => { t with events := t.events - (t.events &&& e) })
  | .getpid => .next (reg 0 6)
  | .getbcr => .next (reg 1 1)
  | .getdcr => .next (reg 2 1)
  | .getstatus => .next (reg 3 2)
  | .getmwl => .next (reg 4 2)
  | .getmrl => .next (reg 5 3)

/-- HOT_JOIN (12 R430): the controller of an I/O die accepts the target and assigns it a dynamic address, which the manual
leaves open; the East controller only while it has the role (11 R404). -/
def execHotJoin (side : Fin 2) (s : State) : Host.Outcome State Fault Refusal :=
  if side.val = 1 ∧ s.cam.role ≠ 0 then .next s
  else
    let (v, s) := s.draw 7
    match findLow (fun i => decide (tget 0 s.host.ctlTargets (128 * side.val + i) = 0)) 128 0 with
    | some i => .next { s with host := { s.host with ctlTargets := tput 0 s.host.ctlTargets (128 * side.val + i) (v + 1) } }
    | none => .next s

end Sys2Proof.Machine
end

