-- ==== Sys2Proof/Machine/Twin.lean ====
section
/-! DEFINITION. The twin pair (10 R351 to R371; 13 R454; 08 R299). -/

namespace Sys2Proof.Machine

/-! ### Ports -/

/-- Twin Link port `i`. -/
def State.tport (s : State) (i : Nat) : TwinPort := tget {} s.tw.ports i

/-- Change Twin Link port `i`. -/
def State.modTport (s : State) (i : Nat) (f : TwinPort → TwinPort) : State :=
  { s with tw := { s.tw with ports := tmod {} s.tw.ports i f } }

/-- Both ports are down. -/
def State.bothDown (s : State) : Bool := (s.tport 0).down && (s.tport 1).down

/-- A Twin Link port's record takes TWIN at UNIT level (10 R353, R355). -/
def State.twinFault (s : State) (port : Nat) : State := s.record (srcIo port 6) 42 lvUnit {}

/-- TWIN_IDLE_FLIT (10 R352). -/
def execTwinIdleFlit (port : Fin 2) (s : State) : Host.Outcome State Fault Refusal :=
  .next (if (s.tport port.val).down then s else s.modTport port.val fun p => p.post [{ msg := .idle }])

/-- The partner treats this member as lost, or it the partner (10 R365, R368, R371): PARTNER_LOST and PRIMARY; commands that
wait for the partner end. -/
def State.losePartner (s : State) : State :=
  let s := { s with tw := { s.tw with st := 2, role := 0, hand := none, handIn := none, refuse := 0, due := 0 } }
  (List.range 64).foldl (fun s m => match (s.mbx m).wait with
    | some (.launchLog _ _ out) => s.complete m stOk 0 out
    | some (.handover _) => s.complete m stState 2 []
    | _ => s) s

/-- A port goes down: what it has not sent, or sent and not had acknowledged, the other port sends while that is up; what it carries anyway,
TIME and idle flits, is not sent twice (10 R353; log 138). -/
def State.portDown (s : State) (i : Nat) : State :=
  let p := s.tport i
  if (s.tport (1 - i)).down then s.modTport i fun p => { p with down := true }
  else (s.modTport i fun p => { p with down := true, out := [], replay := [] }).modTport (1 - i) fun q =>
    q.post ((p.replay ++ p.out).filter fun f => decide (f.cls ≠ 0))

/-- TWIN_PORT_DOWN (10 R352, R353, R368): 30 µs without a good flit. `split` says that both ports have failed while both members
stay healthy. -/
def execTwinPortDown (port : Fin 2) (split : Bool) (s : State) : Host.Outcome State Fault Refusal :=
  if (s.tport port.val).down then .next s
  else
    let s := s.elapse ((s.tport port.val).lastGood + 30000 - s.clk.elapsed)
    let s := (s.portDown port.val).twinFault port.val
    if s.bothDown ∧ split ∧ s.tw.st = 1 then
      let s := { s with tw := { s.tw with split := true } }
      let s := s.postTwin 5 0
      .next (s.faultRec ⟨s.recs.seq, srcIo port.val 6, 42, 5, lvUnit, s.clk.ctc⟩)
    else .next s

/-! ### Pairing (10 R354 to R356; 13 R454; 14 R478, R479) -/

/-- Fields of a pairing record. -/
def recBytes (r : List Byte) (off n : Nat) : List Byte := (r.drop off).take n
def recKey (r : List Byte) (i : Nat) : List Byte := recBytes r (0x20 + 0x40 * i) 57
def recCert (r : List Byte) (i : Nat) : List Byte := recBytes r (0xA0 + 0x80 * i) 114
def recUid (r : List Byte) (i : Nat) : List Byte := recBytes r (0x10 + 8 * i) 8
def recRoot (r : List Byte) : List Byte := recBytes r 0x1A0 57

/-- Every byte of the record that has no field is zero. -/
def recPad (c : Ctx) : Option Nat :=
  ([(9, 7), (0x59, 7), (0x99, 7), (0x112, 14), (0x192, 14), (0x1D9, 7)].find? fun x => decide (c.fld x.1 x.2 ≠ 0)).map (·.1)

/-- The member of the record that this package is. -/
def State.memberOf (s : State) (r : List Byte) : Option Nat := [0, 1].find? fun i => decide (recKey r i = s.otp.idKey)

/-- Both entropy sources have failed (14 R479). -/
def State.noEntropy (s : State) : Bool := tget false s.bs.entropyBad 0 && tget false s.bs.entropyBad 1

/-- The completion of TWIN_PAIR. -/
def State.pairOut (s : State) : List Byte := le 1 s.tw.st ++ le 1 s.tw.role ++ le 1 s.tw.version ++ le 5 0

/-- The body of TWIN_PAIR; `nonce` is the random nonce this member forms. -/
def twinPairBody (nonce : List Byte) (c : Ctx) (s : State) : LmpRes :=
  let r := c.pl
  let key := recRoot r
  let other := match s.bs.oemKey with
    | some k => decide (k ≠ key)
    | none => false
  checked s [(decide (c.u8 8 ≤ 1), 8), ((recPad c).isNone, (recPad c).getD 0)]
    [((s.memberOf r).isNone || !s.otp.rootOk key || other, stAuth, 0), (s.noEntropy, stAuth, 0),
      (decide (s.tw.st = 1) && decide (s.tw.record ≠ some r), stState, s.tw.st)] fun _ =>
    if s.tw.st = 1 then .done stOk 0 s.pairOut s
    else
      let s := s.presentRoot key
      let s := { s with tw := { s.tw with
        record := some r, member := (s.memberOf r).getD 0, nonce := nonce, pairBy := s.clk.elapsed + 10000000000 } }
      .wait .pair (s.send (.auth nonce []))

/-- TWIN_PAIR. -/
def execTwinPair (m : Fin 64) (nonce : List Byte) (s : State) : Host.Outcome State Fault Refusal :=
  .next (s.lmp m.val (isOp 0x80) (twinPairBody nonce))

/-- The bytes a member signs (10 R355): PAIR_ID, the nonces in PRIMARY-then-SECONDARY order, its version range. -/
def pairMsg (r np ns : List Byte) (vmin vmax : Nat) : List Byte := recBytes r 0 8 ++ np ++ ns ++ le 1 vmin ++ le 1 vmax

/-- The standby copy of a partition is SUSPENDED but in DUAL_COMPARE (10 R357, R358); a published one is not. -/
def State.standbyCause (s : State) (p : Nat) : State :=
  let standby := s.mirrored p && !s.publishes p && decide (s.tw.mode ≠ 2)
  if standby then s.suspend p 4#8 else s.modPart p fun x => { x with causes := x.causes &&& ~~~4#8 }

/-- The publisher sends the initial copy of each mirrored partition (10 R363). -/
def State.startCopies (s : State) : State :=
  (List.range 16).foldl (fun s p => if s.mirrored p ∧ s.publishes p ∧ s.tw.mode ≠ 2 then s.sendCopy p else s) s

/-- The pair becomes PAIRED (10 R355, R356): roles as the record gives them, or as they stand after PARTNER_LOST. -/
def State.enterPair (s : State) (r : List Byte) (version : Nat) : State :=
  let lost := decide (s.tw.st = 2)
  let role := if lost then s.tw.role else if leNat (recBytes r 8 1) = s.tw.member then 0 else 1
  let s := { s with
    tw := { s.tw with
      st := 1, role := role, version := version, ctlNext := 0, txCtl := 0, ctlHeld := [], parts := [], shared := []
      pub := if lost then (if role = 0 then s.tw.mirror else 0) else s.tw.pub }
    clk := { s.clk with goodExch := 0, missExch := 0, align := decide (role = 1) } }
  let s := (List.range 16).foldl (fun s p => (s.modPart p fun x => { x with causes := x.causes &&& ~~~8#8 }).standbyCause p) s
  let s := s.startCopies
  if role = 1 then s else s.finishAll .pair stOk 0 s.pairOut

/-- The SECONDARY compares its CTC with the PRIMARY's at pairing, `ps` being the PRIMARY's less its own (08 R296): with nothing in flight
it steps, an offset of at most 10 ms it slews, with a greater one the pairing does not come about and the record is kept. -/
def State.alignCtc (s : State) (ps : Int) : State :=
  let s := { s with clk := { s.clk with align := false } }
  if ¬ s.workInFlight then
    (s.stepCtc ((s.clk.ctc : Int) + (ps + 500) / 1000).toNat).finishAll .pair stOk 0 s.pairOut
  else if ps.natAbs ≤ 10000000000 then (s.steer (-ps)).finishAll .pair stOk 0 s.pairOut
  else
    let s := { s with tw := { s.tw with st := 0 } }
    ((List.range 16).foldl (fun s p => s.standbyCause p) s).finishAll .pair stState 1 []

/-- TWIN_TIME_EXCHANGE (08 R296, R297) of a paired pair: TWIN_OFFSET in ps, or none arrived; the SECONDARY's first one aligns its CTC,
the others steer it towards the PRIMARY's. -/
def execTwinTimeExchange (offsetPs : Int) (missing : Bool) (s : State) : Host.Outcome State Fault Refusal :=
  if s.tw.st ≠ 1 then .next s
  else if missing then .next { s with clk := { s.clk with missExch := s.clk.missExch + 1, goodExch := 0 } }
  else
    let near := decide (offsetPs.natAbs ≤ 8000)
    let good := if near then s.clk.goodExch + 1 else 0
    let s := { s with clk := { s.clk with
      twinOffset := sat32 offsetPs, missExch := 0, goodExch := good
      twinValid := near && (s.clk.twinValid || decide (16 ≤ good)) } }
    .next (if s.clk.align then s.alignCtc offsetPs else if s.isSecondary then s.steer (-offsetPs) else s)

/-- Pairing fails (10 R355). -/
def State.pairFails (s : State) (status : Nat) : State :=
  ((s.twinFault 0).finishAll .pair status 0 [])

/-- PAIRING_AUTH (10 R355): the partner's nonce, signature and version range arrive; this member answers with its own
signature. -/
def State.pairAuth (s : State) (nonce sig : List Byte) (vmin vmax : Nat) : State :=
  match s.tw.record with
  | some r =>
    if s.tw.st = 1 ∨ s.tw.split then s
    else
      let me := s.tw.member
      let prim := decide (leNat (recBytes r 8 1) = me)
      let np := if prim then s.tw.nonce else nonce
      let ns := if prim then nonce else s.tw.nonce
      let fw := s.bs.fw.getD {}
      let other := 1 - me
      let s := s.send (.auth s.tw.nonce (edSign s.otp.skId (ascii "AZL-TWIN") (pairMsg r np ns fw.twinMin fw.twinMax)))
      let okSig := edVerify (recKey r other) (ascii "AZL-TWIN") (pairMsg r np ns vmin vmax) sig
      let okCert := edVerify (recRoot r) [] (recKey r other ++ recUid r other) (recCert r other)
      let v := min fw.twinMax vmax
      if !okSig || !okCert || s.noEntropy then s.pairFails stAuth
      else if v < max fw.twinMin vmin then s.pairFails stVersion
      else s.enterPair r v
  | none => s

/-- PAIRING_AUTH. -/
def execPairingAuth (nonce sig : List Byte) (vmin vmax : Nat) (s : State) : Host.Outcome State Fault Refusal :=
  .next (s.pairAuth nonce sig vmin vmax)

/-- TWIN_PAIR_TIMEOUT (13 R454): the record stays and the partner is still accepted. -/
def execTwinPairTimeout (s : State) : Host.Outcome State Fault Refusal :=
  if s.waits .pair then .next ((s.elapse (s.tw.pairBy - s.clk.elapsed)).finishAll .pair stTimeout 0 []) else .next s

/-! ### TWIN_ROLE, STAND_DOWN, TWIN_HANDOVER -/

/-- The publisher mask of a mode for a member of this role (10 R357). -/
def pubMask (mode role : Nat) (mirror home : BitVec 16) : BitVec 16 :=
  if mode = 1 then (if role = 0 then mirror &&& ~~~home else mirror &&& home) else if role = 0 then mirror else 0

/-- An image of a partition uses a construct of 08 R281. -/
def State.usesArrival (s : State) (p : Nat) : Bool := (s.part p).images.any fun (x : Nat × Option Image) => match x.2 with
  | some i => i.facts.arrival || i.facts.atomics
  | none => false

/-- The first section that refuses TWIN_ROLE (10 R357); `diff` are the sections whose roots differ from the partner's or that it
does not have, `det` the partner's DET_MODE. -/
def State.roleConflict (s : State) (mirror : BitVec 16) (diff : List Nat) (det : Bool) : Option Nat :=
  (List.range 16).find? fun p =>
    if p = 0 then decide (0 ∈ diff)
    else mirror.getLsbD p && (!(s.part p).live || decide (p ∈ diff) || (!(s.saf.det && det) && s.usesArrival p))

/-- TWIN_ROLE takes effect on a member. -/
def State.applyRole (s : State) (mode : Nat) (mirror home : BitVec 16) : State :=
  let s := { s with tw := { s.tw with
    mode := mode, mirror := mirror, home := home, pub := pubMask mode s.tw.role mirror home, parts := [], split := false } }
  let s := { s with mem := { s.mem with dirty := [] } }
  ((List.range 16).foldl (fun s p => s.standbyCause p) s).startCopies

/-- The body of TWIN_ROLE without STAND_DOWN. -/
def twinRoleBody (diff : List Nat) (det : Bool) (c : Ctx) (s : State) : LmpRes :=
  let mirror := BitVec.ofNat 16 (c.u16 2)
  let home := BitVec.ofNat 16 (c.u16 4)
  let con := s.roleConflict mirror diff det
  checked s [(decide (c.u8 0 ≤ 2), 0), (decide (c.u8 1 ≤ 1), 1), (!mirror.getLsbD 0, 2), (!home.getLsbD 0, 4), (decide (c.u16 6 = 0), 6)]
    [(!c.forwarded && !(decide (s.tw.st = 1) && decide (s.tw.role = 0)), stState, s.tw.st), (con.isSome, stConflict, con.getD 0)] fun _ =>
    .done stOk 0 [] (s.applyRole (c.u8 0) mirror home)

/-- TWIN_ROLE. -/
def execTwinRole (m : Fin 64) (diff : List Nat) (det : Bool) (s : State) : Host.Outcome State Fault Refusal :=
  .next (s.lmp m.val (fun o c => decide (o = 0x81) && !(c.u8 1).testBit 0) (shared 0x81 (fun _ => none) (twinRoleBody diff det)))

/-- The body of TWIN_ROLE with STAND_DOWN (10 R368; 13 R454). -/
def standDownBody (c : Ctx) (s : State) : LmpRes :=
  checked s [(decide (c.u8 0 ≤ 2), 0), (decide (c.u8 1 ≤ 1), 1), (decide (c.u16 2 % 2 = 0), 2), (decide (c.u16 4 % 2 = 0), 4),
      (decide (c.u16 6 = 0), 6)] [(decide (s.tw.st ≠ 2), stState, s.tw.st)] fun _ =>
    let s := { s with tw := { s.tw with role := 1, split := false, pub := 0 } }
    .done stOk 0 [] ((List.range 16).foldl (fun s p =>
      if s.tw.mirror.getLsbD p then s.suspend p 8#8 else s) s)

/-- STAND_DOWN. -/
def execStandDown (m : Fin 64) (s : State) : Host.Outcome State Fault Refusal :=
  .next (s.lmp m.val (fun o c => decide (o = 0x81) && (c.u8 1).testBit 0) standDownBody)

/-- The body of TWIN_HANDOVER (10 R370): the partitions named are mirrored, published here and TWIN_READY. -/
def twinHandoverBody (c : Ctx) (s : State) : LmpRes :=
  let mask := BitVec.ofNat 16 (c.u16 0)
  let ok := (List.range 16).all fun p => !mask.getLsbD p || (s.mirrored p && s.publishes p && (s.twp p).ready)
  checked s [(!mask.getLsbD 0, 0), (decide (c.u8 2 ≤ 1), 2), (decide (c.fld 3 5 = 0), 3)]
    [(decide (s.tw.st ≠ 1), stState, s.tw.st), (!ok || s.tw.hand.isSome, stState, s.tw.st)] fun _ =>
    let s := s.send (.command 0x82 c.part c.pl)
    .wait (.handover (c.u16 0)) { s with tw := { s.tw with hand := some (mask, decide (c.u8 2 = 1), s.sch.frame.no) } }

/-- TWIN_HANDOVER. -/
def execTwinHandover (m : Fin 64) (s : State) : Host.Outcome State Fault Refusal :=
  .next (s.lmp m.val (isOp 0x82) twinHandoverBody)

/-- Nothing of the partitions of a handover is left to run or to reach a cut (10 R370). -/
def State.handClear (s : State) (mask : BitVec 16) : Bool :=
  (List.range 16).all fun p => !mask.getLsbD p ||
    ((s.jobsOf p).all (fun j => decide ((s.job j).kind = .proposer)) && (s.twp p).ends.isEmpty)

/-- A handover's part of a frame start at the old publisher (10 R370): first it refuses new launches; once the last launch's
delta is at a cut the partner becomes publisher. -/
def State.handFrame (s : State) : State :=
  match s.tw.hand with
  | some (mask, swap, frame) =>
    if s.sch.frame.no ≤ frame then s
    else if s.tw.refuse = 0 then { s with tw := { s.tw with refuse := mask } }
    else if s.handClear mask then
      let s := { s with tw := { s.tw with
        pub := s.tw.pub &&& ~~~mask, refuse := 0, hand := none, role := if swap then 1 else s.tw.role } }
      let s := (List.range 16).foldl (fun s p => if mask.getLsbD p then (s.standbyCause p).postTwin 2 p else s) s
      s.finishAll (.handover mask.toNat) stOk 0 []
    else s
  | none => s

/-! ### Shared commands (10 R360) -/

/-- The body of an opcode that changes a shared section. -/
def sharedBody (op : Nat) (f : ImageFacts) : Ctx → State → LmpRes :=
  match op with
  | 0x10 => partitionCreateBody
  | 0x11 => partitionEndBody
  | 0x12 => partitionSetShareBody
  | 0x20 => imageLoadBody f
  | 0x21 => imageUnloadBody
  | 0x40 => seqOpenBody
  | 0x41 => seqCloseBody
  | 0x42 => seqForkBody
  | 0x43 => pageTableEditBody
  | 0x44 => fun c s => if c.u8 0 = 1 then seqWatermarksBody c s else seqSwapPolicyBody c s
  | 0x60 => worldUpdateBody
  | 0x70 => safetyConfigBody
  | 0x81 => twinRoleBody [] true
  | _ => fun _ s => .refuse stUnsupported 0 s

/-- The mailbox of a shared command waits for it still. -/
def State.sharedMbx (s : State) (c : SharedCmd) : Option Nat :=
  match c.mbx with
  | some m => if (s.mbx m).wait = some .shared then some m else none
  | none => none

/-- Apply one shared command; a fork forwarded by the partner waits at its parent. -/
def State.applyShared (s : State) (c : SharedCmd) (f : ImageFacts) : State :=
  let ctx : Ctx := { m := c.mbx.getD 0, part := c.part, pl := c.payload, forwarded := true }
  match (sharedBody c.op f ctx s).counted c.op, s.sharedMbx c with
  | .done status detail out s, some m => s.complete m status detail out
  | .done status _ _ s, none => if status = stOk ∧ changesConfig c.op c.payload then s.bump else s
  | .wait w s, some m => s.modMbx m fun b => { b with wait := some w }
  | .wait (.fork slot _) s, none => s.modSeq slot fun q => { q with forks := q.forks + 1 }
  | .wait _ s, none => s

/-- A shared command is due: the frame has started at least 1 ms after the partner acknowledged it, or there is no partner any
more. -/
def State.sharedDue (s : State) (c : SharedCmd) : Bool :=
  decide (s.tw.st ≠ 1) || match c.ackAt with
    | some t => decide (t + 1000000 ≤ s.sch.frame.start)
    | none => false

/-- Apply the commands due, in order; `imgs` are what the headers of the images they load say, in order. -/
def State.applyAll (s : State) : List SharedCmd → List ImageFacts → State
  | [], _ => s
  | c :: t, fs =>
    if c.op = 0x20 then (s.applyShared c (fs.headD {})).applyAll t (fs.drop 1)
    else (s.applyShared c {}).applyAll t fs

/-- SHARED_CONFIG_APPLY (10 R360). -/
def execSharedConfigApply (imgs : List ImageFacts) (s : State) : Host.Outcome State Fault Refusal :=
  let due := s.tw.shared.filter s.sharedDue
  let s1 := { s with tw := { s.tw with shared := s.tw.shared.filter fun c => !s.sharedDue c } }
  .next (s1.applyAll due imgs)

/-! ### Launches of the pair -/

/-- Complete every mailbox that waits for a launch-log entry. -/
def State.logDone (s : State) (f : Nat → Nat → Bool) : State :=
  (List.range 64).foldl (fun s m => match (s.mbx m).wait with
    | some (.launchLog p step out) => if f p step then s.complete m stOk 0 out else s
    | _ => s) s

/-- LAUNCH_LOG_ACK (10 R359). -/
def execLaunchLogAck (p : Fin 16) (step : Nat) (s : State) : Host.Outcome State Fault Refusal :=
  .next (s.logDone fun q k => decide (q = p.val) && decide (k = step))

/-- LAUNCH_LOG_TIMEOUT (10 R359): the launch proceeds on the publisher alone. -/
def execLaunchLogTimeout (p : Fin 16) (s : State) : Host.Outcome State Fault Refusal :=
  let waits := (List.range 64).any fun m => match (s.mbx m).wait with
    | some (.launchLog q _ _) => decide (q = p.val)
    | _ => false
  if waits then .next (((s.logDone fun q _ => decide (q = p.val)).clearReady p.val).postTwin 3 p.val) else .next s

/-- A forwarded LAUNCH_AT reaches this member (08 R299): accepted or refused under the rules of LAUNCH_AT, with the step value
given. -/
def State.forwardedAt (s : State) (m p step : Nat) (pl : List Byte) : State :=
  let c : Ctx := { m := m, part := p, pl := pl, forwarded := true }
  let at_ := c.u64 0x10
  let fields := (s.launchFields c true).filter fun x => decide (x.2 ≠ 8)
  match firstBad fields, firstHit ((s.launchConds c true).dropLast) with
  | some d, _ => s.send (.launchAnswer (Fin.ofNat 16 p) step stArg d)
  | none, some (st, d) => s.send (.launchAnswer (Fin.ofNat 16 p) step st d)
  | none, none => (s.accept c (some at_) (some step)).1.send (.launchAnswer (Fin.ofNat 16 p) step stOk 0)

/-- TWIN_LAUNCH_AT_FORWARD; one that arrives after the forwarder has given up is discarded. -/
def execTwinLaunchAtForward (m : Fin 64) (p : Fin 16) (step : Nat) (payload : List Byte) (late : Bool) (s : State) :
    Host.Outcome State Fault Refusal :=
  if late ∨ s.tw.st ≠ 1 then .next s else .next (s.forwardedAt m.val p.val step payload)

/-- The partner answers a forwarded LAUNCH_AT: both accept it, or neither (08 R299). -/
def State.launchAnswered (s : State) (p step status detail : Nat) : State :=
  (List.range 64).foldl (fun s m =>
    if (s.mbx m).st = mbBusy ∧ (s.mbx m).wait = some (.launchTwin p step) then
      if status = stOk then
        let c := s.ctx m
        let (s, out) := s.accept c (some (c.u64 0x10)) (some step)
        s.complete m stOk 0 out
      else s.complete m status detail []
    else s) s

/-- TWIN_LAUNCH_AT_TIMEOUT (08 R299). -/
def execTwinLaunchAtTimeout (m : Fin 64) (s : State) : Host.Outcome State Fault Refusal :=
  match (s.mbx m.val).wait with
  | some (.launchTwin _ _) => .next (s.complete m.val stTimeout 0 [])
  | _ => .next s

/-- The standby logs an entry and says so; in DUAL_COMPARE it also runs it, with the same step value (10 R357, R359). -/
def State.logEntry (s : State) (p m op step : Nat) (pl : List Byte) : State :=
  let s := s.modTwp p fun t => { t with log := t.log ++ [{ step := step, op := op, payload := pl, mbx := m }] }
  let s := s.send (.logAck (Fin.ofNat 16 p) step)
  if s.compareStandby p ∧ op < 0x100 then
    let c : Ctx := { m := m, part := p, pl := pl, forwarded := true }
    let n := s.sch.nextJob
    let s := (s.accept c (if op = 0x31 then some (c.u64 0x10) else none) (if step = 2 ^ 64 - 1 then none else some step)).1
    s.holdFrame pl step (some n)
  else s.holdFrame pl step none

/-- PUBLISHED_MARK (10 R364). -/
def State.mark (s : State) (p step : Nat) : State :=
  s.modTwp p fun t => { t with log := t.log.map fun e => if e.step = step then { e with marked := true } else e }

/-- PUBLISHED_MARK. -/
def execPublishedMark (p : Fin 16) (step : Nat) (s : State) : Host.Outcome State Fault Refusal := .next (s.mark p.val step)

/-- A log entry with a step value of its own. -/
def LogEntry.valued (e : LogEntry) : Bool := decide (e.step ≠ 2 ^ 64 - 1)

/-- The handles and tokens of a work list (06 R231). -/
def workTokens (pl : List Byte) : List (Nat × Nat) :=
  let f (off n : Nat) := leNat ((pl.drop off).take n)
  (List.range (nbits (f 0 8) 21 0)).map fun i => (f (64 + 16 * i + 4) 4, f (64 + 16 * i + 12) 4)

/-- Take up to `n` tokens of a handle off the entries of a step launch, from entry `i` on; answers what is left to take. -/
def consumeEntries (h : Nat) : Nat → Nat → Nat → List Byte → List Byte × Nat
  | 0, _, n, pl => (pl, n)
  | k + 1, i, n, pl =>
    let f (off w : Nat) := leNat ((pl.drop off).take w)
    let have_ := if f (48 + 8 * i) 4 = h then f (52 + 8 * i) 4 else 0
    let m := min n have_
    let pl := if m = 0 then pl else pl.take (52 + 8 * i) ++ le 4 (have_ - m) ++ pl.drop (56 + 8 * i)
    consumeEntries h k (i + 1) (n - m) pl

/-- Tokens a step has served come off the logged step launches that want them, in order; one that wants none any more has
ended (06 R528). -/
def consume (log : List LogEntry) (x : Nat × Nat) : List LogEntry :=
  let r := log.foldl (fun (a : List LogEntry × Nat) e =>
    if e.valued ∨ 0x100 ≤ e.op then (a.1 ++ [e], a.2)
    else
      let k := leNat ((e.payload.drop 4).take 2)
      let (pl, left) := consumeEntries x.1 k 0 a.2 e.payload
      let wanted := (List.range k).any fun i => decide (leNat ((pl.drop (52 + 8 * i)).take 4) ≠ 0)
      (if wanted then a.1 ++ [{ e with payload := pl }] else a.1, left)) ([], x.2)
  r.1

/-- Release the log up to a cut (10 R362). -/
def TwinPart.release (t : TwinPart) (cut : Nat) : TwinPart :=
  let gone := t.log.filter fun e => e.valued && decide (e.step ≤ cut)
  let log := gone.foldl (fun l e => if e.op < 0x100 then l else (workTokens e.payload).foldl consume l) t.log
  { t with cut := some cut, log := log.filter fun e => !e.valued || decide (cut < e.step), ends := t.ends.filter fun e => decide (cut < e.1) }

/-- MIRROR_ACK (10 R362, R363): the publisher learns the cut step; a cut that follows the initial copy makes the partition
TWIN_READY while the comparison passes. -/
def State.mirrorAcked (s : State) (p cut : Nat) : State :=
  s.modTwp p fun t => { (t.release cut) with ready := t.cfgOk, lagPosted := false }

/-- MIRROR_ACK. -/
def execMirrorAck (p : Fin 16) (cut : Nat) (s : State) : Host.Outcome State Fault Refusal :=
  if s.mirrored p.val ∧ s.publishes p.val then .next (s.mirrorAcked p.val cut) else .next s

/-- The steps after a cut, rising: those logged and those whose delta has come (10 R362). -/
def TwinPart.stepsAfter (t : TwinPart) : List Nat :=
  let all := (t.log.filter LogEntry.valued).map (·.step) ++ t.deltas.map (·.1)
  let later := all.filter fun k => match t.cut with
    | some c => decide (c < k)
    | none => true
  (later.foldl (fun (b : Tab Bool) k => tput false b k true) []).map (·.1)

/-- Apply deltas in step order up to the first gap; answers the state and the last step applied. -/
def State.applyDeltas (s : State) (p : Nat) : List Nat → State × Option Nat
  | [] => (s, none)
  | k :: t =>
    match (s.twp p).deltas.find? fun (d : Nat × Delta) => d.1 = k with
    | some (_, d) =>
      let s := (s.applyDelta p d).modTwp p fun x => { x with deltas := x.deltas.filter fun (d : Nat × Delta) => d.1 ≠ k, cut := some k }
      let (s, r) := s.applyDeltas p t
      (s, some (r.getD k))
    | none => (s, none)

/-- The standby's part of a frame start (10 R362, R363): the cut, its acknowledgement, TWIN_READY. -/
def State.cutFrame (s : State) (p : Nat) : State :=
  if s.mirrored p && !s.publishes p && decide (s.tw.mode ≠ 2) && (s.twp p).copied then
    let (s, _) := s.applyDeltas p (s.twp p).stepsAfter
    let cut := (s.twp p).cut.getD 0
    let s := s.modTwp p fun t => { (t.release cut) with ready := t.cfgOk }
    s.send (.mirrorAck (Fin.ofNat 16 p) cut)
  else s

/-- The publisher's watch of the lag (10 R362): more than two frames post MIRROR_LAG, more than four clear TWIN_READY. -/
def State.lagFrame (s : State) (p : Nat) : State :=
  if s.mirrored p && s.publishes p then
    match (s.twp p).ends with
    | e :: _ =>
      let lag := s.sch.frame.no - e.2
      let s := if 2 < lag ∧ ¬ (s.twp p).lagPosted then (s.modTwp p fun t => { t with lagPosted := true }).postTwin 4 p else s
      if 4 < lag then s.clearReady p else s
    | [] => s
  else s

/-! ### Takeover (10 R365 to R368) -/

/-- The partitions this member is to take over now: every one it stands by for when both ports are down, those the partner's
Lanterns named, those handed over. -/
def State.takeable (s : State) : BitVec 16 :=
  let standby := s.tw.mirror &&& ~~~s.tw.pub
  if s.tw.st ≠ 1 then 0
  else if s.bothDown then standby else standby &&& (s.tw.due ||| (s.tw.handIn.map (·.1)).getD 0)

/-- Rerun one log entry (10 R366). Its job joins the reruns, to be discarded at its end when it carries a PUBLISHED mark, else
posted REPUBLISHED. A step launch whose builds take their step values only wants its tokens again. -/
def State.rerun (s : State) (p : Nat) (fresh : Bool) (e : LogEntry) : State :=
  let n := s.sch.nextJob
  let add (s : State) : State :=
    let s := if e.valued ∧ s.sch.nextJob ≠ n then s.modTwp p fun t => { t with rerun := t.rerun ++ [(n, e.marked)] } else s
    if s.sch.nextJob = n then s else s.modJob n fun b => { b with republished := !fresh && !e.marked }
  if e.op < 0x100 then
    let c : Ctx := { m := e.mbx, part := p, pl := e.payload, forwarded := true }
    (add (s.accept c none (if e.valued then some e.step else none)).1).holdFrame e.payload e.step (some n)
  else
    let f (off n : Nat) := leNat ((e.payload.drop off).take n)
    let b : Build := { part := p, image := nbits (f 0 8) 31 24, phase := nbits (f 0 8) 23 22, step := e.step, explicit := true
                       entry := e.op - 0x100, admits := (workTokens e.payload).map fun x => (slotOf x.1, x.2), rest := [] }
    add (s.startStep b)

/-- Take a partition over (10 R366): apply the deltas up to the first gap, make it ACTIVE, rerun the logged steps after it in
step order. Step launches without a step value want their tokens again. -/
def State.takeOver (s : State) (p : Nat) (handed : Bool) : State :=
  let (s, _) := if s.tw.mode = 2 then (s, none) else s.applyDeltas p (s.twp p).stepsAfter
  let t := s.twp p
  let later (e : LogEntry) : Bool := match t.cut with
    | some c => decide (c < e.step)
    | none => true
  let s := { s with tw := { s.tw with pub := s.tw.pub ||| BitVec.ofNat 16 (2 ^ p) } }
  let s := s.modPart p fun x => { x with causes := x.causes &&& ~~~4#8 }
  let s := s.modTwp p fun t => { t with log := [], deltas := [] }
  let s := if s.tw.mode = 2 then s else
    let plain := t.log.filter fun e => !e.valued
    let steps := (t.stepsAfter.filter fun k => t.log.any fun e => decide (e.step = k)).flatMap fun k => t.log.filter fun e => decide (e.step = k)
    let s := plain.foldl (fun s e => s.rerun p handed e) s
    steps.foldl (fun s e => if later e then s.rerun p handed e else s) s
  s.postTwin (if handed then 2 else 1) p

/-- TAKEOVER (10 R365, R366, R368): silence on both ports for three heartbeat periods, a decision of the partner's Lanterns or a
handover. After silence this member is PARTNER_LOST and PRIMARY. -/
def execTakeover (mask : BitVec 16) (s : State) : Host.Outcome State Fault Refusal :=
  let can := s.takeable
  let silent := s.bothDown
  if s.tw.st ≠ 1 then .next s
  else
    let s := if silent then s.elapse (max (s.tport 0).lastGood (s.tport 1).lastGood + 300000 - s.clk.elapsed) else s
    let handed := (s.tw.handIn.map (·.1)).getD 0
    let swap := (s.tw.handIn.map (·.2)).getD false
    let ps := filterLow (fun p => can.getLsbD p && (silent || mask.getLsbD p)) 16
    let s := ps.foldl (fun s p => s.takeOver p (!silent && handed.getLsbD p && !s.tw.due.getLsbD p)) s
    if silent then .next s.losePartner
    else
      let done := (filterLow (fun p => handed.getLsbD p) 16).all fun p => s.publishes p
      .next { s with tw := { s.tw with
        due := s.tw.due &&& ~~~mask
        handIn := if done then none else s.tw.handIn
        role := if s.tw.handIn.isSome ∧ done ∧ swap then 0 else s.tw.role } }

/-- TAKEOVER_RERUN_DONE (10 R366): the rerun has ended; its completion is posted, or discarded where it carries a PUBLISHED
mark. -/
def execTakeoverRerunDone (job : Nat) (s : State) : Host.Outcome State Fault Refusal :=
  let b := s.job job
  let p := (findLow (fun p => (s.twp p).rerun.any fun (x : Nat × Bool) => x.1 = job) 16 0).getD 0
  match (s.twp p).rerun.find? fun (x : Nat × Bool) => x.1 = job with
  | some (_, drop) =>
    if b.live ∧ b.cause.isNone then .next s
    else
      let s := s.modTwp p fun t => { t with rerun := t.rerun.filter fun (x : Nat × Bool) => x.1 ≠ job }
      if !b.live then .next s
      else if drop then
        let s := { s with sch := { s.sch with tagGen := tput 0 s.sch.tagGen (65536 * b.mbx + b.tag) ((b.gen + 1) % 256) } }
        .next (s.modJob job fun _ => {})
      else .next (s.closeJob job)
  | none => .next s

/-- The partner's signatures of a DUAL_COMPARE launch (10 R358). -/
def State.partnerSigs (s : State) (j : Nat) (sigs : Option (List Nat)) : State :=
  let b := s.job j
  if b.live ∧ b.dual = 3 ∧ ¬ b.compared then
    match sigs with
    | some x => (s.modJob j fun b => { b with sigsS := some x }).compareDual j
    | none => (s.modJob j fun b => { b with sigsS := some [], shadowFailed := true, sigsP := some (b.sigsP.getD []) }).compareDual j
  else s

/-- DUAL_COMPARE_SIGNATURES (10 R358): they arrive, or not within one major frame. -/
def execDualCompareSignatures (job : Nat) (sigs : Option (List Nat)) (s : State) : Host.Outcome State Fault Refusal :=
  .next (s.partnerSigs job sigs)

/-! ### Delivery (10 R352, R353) -/

/-- Deliver a message of the partner. -/
def State.deliver (s : State) (x : TwinMsg) : State :=
  match x with
  | .time | .idle | .roots _ _ => s
  | .auth _ _ => s
  | .nonce port vc n => s.takeNonce (16 * port.val + vc.val) n
  | .packageDecision => { s with tw := { s.tw with due := s.tw.due ||| (s.tw.mirror &&& ~~~s.tw.pub) } }
  | .takeoverRequest p => { s with tw := { s.tw with due := s.tw.due ||| BitVec.ofNat 16 (2 ^ p.val) } }
  | .command op part pl =>
    if op = 0x82 then
      { s with tw := { s.tw with handIn := some (BitVec.ofNat 16 (leNat (pl.take 2)), decide (leNat ((pl.drop 2).take 1) = 1)) } }
    else
      let x : SharedCmd := { op := op, part := part, payload := pl, ackAt := some s.clk.ctc }
      let s : State := { s with tw := { s.tw with shared := s.tw.shared ++ [x] } }
      s.send (.commandAck op)
  | .commandAck op =>
    match s.tw.shared.findIdx? fun c => decide (c.op = op) && c.ackAt.isNone with
    | some i => { s with tw := { s.tw with shared := s.tw.shared.modify i fun (c : SharedCmd) => { c with ackAt := some s.clk.ctc } } }
    | none => s
  | .launchAt p m step pl => s.forwardedAt m.val p.val step pl
  | .launchAnswer p step status detail => s.launchAnswered p.val step status detail
  | .launchLog p m op step pl => if s.publishes p.val then s else s.logEntry p.val m.val op step pl
  | .logAck p step => s.logDone fun q k => decide (q = p.val) && decide (k = step)
  | .published p step => s.mark p.val step
  | .mirrorAck p cut => if s.mirrored p.val ∧ s.publishes p.val then s.mirrorAcked p.val cut else s
  | .delta p step d => if s.publishes p.val then s else s.modTwp p.val fun t => { t with deltas := t.deltas ++ [(step, d)] }
  | .copy p d upTo =>
    if s.publishes p.val then s
    else (s.applyDelta p.val d).modTwp p.val fun t => { t with copied := t.copied || upTo.isSome, cut := if upTo.isSome then upTo else t.cut }
  | .signatures p step sigs =>
    match (s.jobsOf p.val).find? fun j => decide ((s.job j).dual = 3) && decide ((s.job j).step = step) with
    | some j => s.partnerSigs j (some sigs)
    | none => s

/-- Deliver the CONTROL messages held, as far as they are in sequence. -/
def State.drainControl (s : State) : Nat → State
  | 0 => s
  | n + 1 =>
    match s.tw.ctlHeld.find? fun (x : Nat × TwinMsg) => x.1 = s.tw.ctlNext with
    | some (k, x) =>
      let s := { s with tw := { s.tw with
        ctlNext := (k + 1) % 2 ^ 32, ctlHeld := s.tw.ctlHeld.filter fun (y : Nat × TwinMsg) => y.1 ≠ k } }
      (s.deliver x).drainControl n
    | none => s

/-- A good flit has come (10 R352): the port is up, the flits up to the number it acknowledges leave the replay buffer, and the port sends
what waits. -/
def TwinPort.hear (p : TwinPort) (f : Flit) (now : Nat) (fresh : Bool) : TwinPort :=
  TwinPort.pump p.out.length { p with
    down := false, lastGood := now, acked := f.ack % 4096, rxNext := if fresh then (p.rxNext + 1) % 4096 else p.rxNext
    replay := match p.replay.findIdx? fun g => decide (g.seq = f.ack % 4096) with
      | some i => p.replay.drop (i + 1)
      | none => p.replay }

/-- TWIN_FLIT_RECEIVE (10 R352, R353): a flit with a bad CRC, or out of sequence, is discarded and replayed; CONTROL messages are
delivered in sequence order. -/
def execTwinFlitReceive (port : Fin 2) (f : Flit) (s : State) : Host.Outcome State Fault Refusal :=
  if !f.crcOk then .next s
  else
    let p := s.tport port.val
    let fresh := decide (f.seq = p.rxNext)
    let s := s.modTport port.val fun p => p.hear f s.clk.elapsed fresh
    if !fresh ∨ s.tw.st ≠ 1 then .next s
    else if f.cls = 1 then
      if s.tw.ctlHeld.any (fun (x : Nat × TwinMsg) => x.1 = f.msgSeq) ∨ 2 ^ 31 ≤ (f.msgSeq + 2 ^ 32 - s.tw.ctlNext) % 2 ^ 32 then .next s
      else
        let s := { s with tw := { s.tw with ctlHeld := s.tw.ctlHeld ++ [(f.msgSeq % 2 ^ 32, f.msg)] } }
        .next (s.drainControl s.tw.ctlHeld.length)
    else .next (s.deliver f.msg)

/-- What a frame start does in the pair (10 R362, R363, R370, R377): the cut, the lag, a handover, the roots sent. -/
def State.twinFrame (s : State) : State :=
  if s.tw.st ≠ 1 then s
  else
    let s := (List.range 16).foldl (fun s p => (s.cutFrame p).lagFrame p) s
    let s := s.handFrame
    s.send (.roots s.sch.frame.no (s.comparedSections.map fun x => leNat (s.sroot x)))

end Sys2Proof.Machine
end

