-- ==== Sys2Proof/Machine/Cameras.lean ====
section
/-! DEFINITION. Camera streams (11 R378 to R395), claims of the East I3C controller and the loopback test (R401, R404). -/

namespace Sys2Proof.Machine

/-- A field of a binding's payload. -/
def Binding.f (b : Binding) (off n : Nat) : Nat := leNat ((b.pl.drop off).take n)

/-- A flag of a STREAM_BIND payload (13 R448): 0 TPL_EN, 1 IDENT_EN, 2 SB_OWNER, 4 LAUNCH_EN. -/
def Binding.flag (b : Binding) (i : Nat) : Bool := (b.f 0x20 1).testBit i

/-- FRAME_TIMEOUT_MS in ns. -/
def Binding.timeoutNs (b : Binding) : Nat := 1000000 * b.f 0x0E 2

/-- EXPECTED_CAL_HASH. -/
def Binding.calHash (b : Binding) : List Byte := (b.pl.drop 0x30).take 32

/-- A receive slot by number. -/
def State.stream (s : State) (k : Nat) : Stream := tget {} s.cam.streams k

/-- Change a receive slot. -/
def State.modStream (s : State) (k : Nat) (f : Stream → Stream) : State :=
  { s with cam := { s.cam with streams := tmod {} s.cam.streams k f } }

/-- The receive port of a slot. -/
def rxSource (k : Nat) : Nat := srcIo (k / 128) (0x10 + k / 16 % 8)

/-- Post a STREAM event (12 R428). -/
def State.postStream (s : State) (k code fc : Nat) (ext : List Nat) : State :=
  s.post 5 (rxSource k) code (k % 16 * 2 ^ 28 + fc % 2 ^ 28) ext false

/-- The bytes of an image line (11 R380); `none` for a type that is no image type (R378). -/
def lineBytes (dt w : Nat) : Option Nat :=
  match dt with
  | 0x1E => some (2 * w)
  | 0x24 => some (3 * w)
  | 0x2B => some (w * 5 / 4)
  | 0x2C => some (w * 3 / 2)
  | 0x2D => some (w * 7 / 4)
  | 0x2E => some (2 * w)
  | 0x2F => some (w * 5 / 2)
  | _ => none

/-- WIDTH is a whole number of packing units (11 R380). -/
def widthUnit (dt : Nat) : Nat :=
  match dt with
  | 0x2B | 0x2D => 4
  | 0x2C | 0x2F | 0x1E => 2
  | _ => 1

/-! ### Test Pattern Lines (11 R387) -/

/-- One step of the generator. -/
def xorshift (x : Nat) : Nat :=
  let x := x ^^^ x * 2 ^ 13 % 2 ^ 32
  let x := x ^^^ x / 2 ^ 17
  x ^^^ x * 2 ^ 5 % 2 ^ 32

/-- The next `n` words of the generator. -/
def tplWords : Nat → Nat → List Byte
  | 0, _ => []
  | n + 1, x => leBytes 4 (xorshift x) ++ tplWords n (xorshift x)

/-- Test Pattern Line `ln` of `n` with FRAME_COUNT `fc`, STREAM_ID `sid` and length `len`. -/
def tplLine (fc sid ln n len : Nat) : List Byte :=
  let head := leBytes 4 fc ++ leBytes 2 sid ++ leBytes 1 ln ++ leBytes 1 n ++
    (List.range 8).map fun k => BitVec.ofNat 8 (2 ^ ((fc + k) % 8))
  let x := fc * 0x9E3779B9 % 2 ^ 32 ^^^ sid * 2 ^ 8 ^^^ ln
  let body := head ++ tplWords ((len - 20) / 4) (if x = 0 then 1 else x)
  body ++ leBytes 4 (crc32 body)

/-! ### Trust (11 R391 to R394) -/

/-- TRUST changes, with its event. -/
def State.setTrust (s : State) (k v : Nat) : State :=
  if (s.stream k).trust = v then s
  else (s.modStream k fun x => { x with trust := v }).postStream k 6 ((s.stream k).prevFc.getD 0) []

/-- A challenge is answered wrongly, or not in time (11 R392). -/
def State.untrust (s : State) (k : Nat) : State :=
  let s := s.record (rxSource k) 30 lvTask { part := (s.stream k).bind.map (·.part) }
  let s := s.modStream k fun x => { x with trust := 3, nonce := none, verify := none, left := 0, reauthAt := none }
  s.postStream k 6 ((s.stream k).prevFc.getD 0) []

/-- CAL as 11 R393 defines it: 0 UNCHECKED, 1 VALID, 2 INVALID. -/
def Stream.cal (x : Stream) (b : Binding) : Nat :=
  if b.calHash.all (fun y => decide (y = 0)) then 0
  else if x.trust = 2 ∧ x.calHash = b.calHash then 1 else 2

/-- Challenge the camera of a slot (11 R391, R395): only the member that owns the sideband does, telling its partner first;
nothing goes out while the East role is away (R404) or no entropy is left (14 R479). -/
def State.challenge (s : State) (k nonce : Nat) : State :=
  match (s.stream k).bind with
  | some b =>
    if b.flag 1 && b.flag 2 && decide (s.cam.role = 0) && !s.noEntropy then
      let s := if s.tw.st = 1 then s.send (.nonce (Fin.ofNat 16 (k / 16)) (Fin.ofNat 16 k) nonce) else s
      s.modStream k fun x => x.challenged nonce
    else s
  | none => s

/-! ### Binding (11 R380, R381; 13 R448) -/

/-- The fields of STREAM_BIND against their ranges, then the cases of 11 R380 in its order. -/
def State.streamFields (s : State) (c : Ctx) : List (Bool × Nat) :=
  let dt := c.u8 3
  let w := c.u16 6
  let pitch := 64 * c.u16 0x0C
  let fl := c.u8 0x20
  let x := s.part c.part
  let tasks := (ImageFacts_tasks (s.facts c.part (c.u8 0x23)) (c.u16 0x26)).getD []
  let line := (lineBytes dt w).getD 0
  [(decide (c.u8 0 ≤ 15), 0), (decide (c.u8 1 ≤ 15), 1), (decide (c.u8 2 = 1) || decide (c.u8 2 = 2) || decide (c.u8 2 = 4), 2),
   ((lineBytes dt 0).isSome, 3), (decide (80 ≤ c.u16 4) && decide (c.u16 4 ≤ 4500), 4),
   (decide (1 ≤ w) && decide (w ≤ 16384) && decide (w % widthUnit dt = 0), 6), (decide (1 ≤ c.u16 8) && decide (c.u16 8 ≤ 16384), 8),
   (decide (2 ≤ c.u8 0x0A) && decide (c.u8 0x0A ≤ 16), 0x0A), (decide (c.u8 0x0B ≤ 4), 0x0B),
   (decide (1 ≤ c.u16 0x0E) && decide (c.u16 0x0E ≤ 1000), 0x0E), (c.daOk 0x10 && decide (c.u64 0x10 % 64 = 0), 0x10),
   (decide (c.u32 0x18 % 64 = 0), 0x18),
   (decide (64 ≤ c.u16 0x1C) && decide (c.u16 0x1C ≤ 4096) && decide (c.u16 0x1C % 16 = 0), 0x1C), (decide (fl < 32), 0x20),
   (decide (1 ≤ c.u8 0x21) && decide (c.u8 0x21 ≤ 4), 0x21), (decide (c.u8 0x22 < 128), 0x22),
   (!fl.testBit 4 || (tget none x.images (c.u8 0x23)).isSome, 0x23), (!fl.testBit 4 || !tasks.isEmpty, 0x26),
   (decide (c.fld 0x2A 6 = 0), 0x2A),
   (decide (line ≤ pitch) && decide (c.u16 0x1C ≤ pitch), 0x0C),
   (decide (64 + pitch * (c.u8 0x0B + c.u16 8) ≤ c.u32 0x18), 0x18), (x.inRegion (c.u64 0x10) (c.u8 0x0A * c.u32 0x18), 0x10),
   (decide (x.cls = 0) || (fl.testBit 0 && fl.testBit 1), 0x20), (decide (x.cls = 0) || decide (c.fld 0x30 32 ≠ 0), 0x30)]

/-- Another slot of the port is bound with other lanes or another rate (11 R380). -/
def State.lanesDiffer (s : State) (k lanes mbps : Nat) : Bool :=
  s.cam.streams.any fun (x : Nat × Stream) => decide (x.1 / 16 = k / 16) && decide (x.1 ≠ k) && match x.2.bind with
    | some b => decide (b.f 2 1 ≠ lanes) || decide (b.f 4 2 ≠ mbps)
    | none => false

/-- The conditions of STREAM_BIND: the port's lanes, another partition's slot (11 R402), another mailbox of this one (13
R448), one that waits (13 R438). -/
def State.streamConds (s : State) (c : Ctx) (k : Nat) : List (Bool × Nat × Nat) :=
  let x := s.stream k
  let own (f : Claim → Bool) : Bool := match s.claimOf 0x20 k with
    | some h => f h
    | none => false
  [(s.lanesDiffer k (c.u8 2) (c.u16 4), stConflict, 0),
   (own fun h => decide (h.mbx ≠ c.m) && decide (h.part ≠ c.part), stBusy, ((s.claimOf 0x20 k).map (·.mbx)).getD 0),
   (own fun h => decide (h.mbx ≠ c.m), stState, 0), (x.next.isSome || x.unbind, stState, 0)]

/-- The body of STREAM_BIND: a first bind is in place at once and challenges with `nonce`; a rebind waits. -/
def streamBindBody (nonce : Nat) (c : Ctx) (s : State) : LmpRes :=
  let k := 16 * c.u8 0 + c.u8 1
  let b : Binding := { pl := c.pl, mbx := c.m, part := c.part }
  checked s (s.streamFields c) (s.streamConds c k) fun _ =>
    match (s.stream k).bind with
    | some old =>
      .wait (.streamBind k) (s.modStream k fun x => { x with
        next := some b, waitUntil := s.clk.elapsed + old.timeoutNs, spare := nonce })
    | none =>
      let s : State := { s with claims := s.claims ++ [{ res := 0x20, inst := k, mbx := c.m, part := c.part }] }
      let s := s.modStream k fun _ => { bind := some b, trust := if b.flag 1 then 1 else 0, lastStart := s.clk.elapsed }
      .done stOk 0 [] (s.challenge k nonce)

/-- STREAM_BIND. -/
def execStreamBind (m : Fin 64) (nonce : Nat) (s : State) : Host.Outcome State Fault Refusal :=
  .next (s.lmp m.val (isOp 0x50) (streamBindBody nonce))

/-- The body of STREAM_UNBIND. -/
def streamUnbindBody (c : Ctx) (s : State) : LmpRes :=
  let k := 16 * c.u8 0 + c.u8 1
  let mine := match s.claimOf 0x20 k with
    | some h => decide (h.mbx = c.m)
    | none => false
  checked s [(decide (c.u8 0 ≤ 15), 0), (decide (c.u8 1 ≤ 15), 1), (decide (c.fld 2 6 = 0), 2)] [(!mine, stState, 0)] fun _ =>
    .wait (.streamUnbind k) (s.modStream k fun x => { x with unbind := true })

/-- STREAM_UNBIND. -/
def execStreamUnbind (m : Fin 64) (s : State) : Host.Outcome State Fault Refusal :=
  .next (s.lmp m.val (isOp 0x51) streamUnbindBody)

/-- A rebind takes effect (11 R381, R392). Buffers stay held where the ring stays in place. -/
def State.applyRebind (s : State) (k : Nat) : State :=
  let x := s.stream k
  match x.bind, x.next with
  | some old, some b =>
    let keep := old.flag 1 && b.flag 1 && (decide (x.trust = 1) || decide (x.trust = 2))
    let same := decide (old.f 0x10 8 = b.f 0x10 8) && decide (old.f 0x18 4 = b.f 0x18 4)
    let s := s.modStream k fun x => { x with
      bind := some b, next := none, first := true, bufs := if same then x.bufs else [], last := if same then x.last else none }
    let s := if keep then s
      else if b.flag 1 then (s.setTrust k 1).challenge k x.spare
      else (s.setTrust k 0).modStream k fun x => { x with snap := none, nonce := none, verify := none, left := 0, reauthAt := none }
    s.finishAll (.streamBind k) stOk 0 []
  | _, _ => s

/-- An unbind takes effect (11 R381, R402). -/
def State.applyUnbind (s : State) (k : Nat) : State :=
  let s := s.dropClaims fun c => decide (c.res = 0x20) && decide (c.inst = k)
  (s.modStream k fun _ => {}).finishAll (.streamUnbind k) stOk 0 []

/-! ### Frames (11 R382 to R390) -/

/-- A buffer of the ring is FREE (11 R382): the launch it fed has ended and, where the partition is mirrored, its step is at
the cut; a standby's frame is kept until the publisher's log decides on it. -/
def State.bufFree (s : State) (p : Nat) : Option FrameUse → Bool
  | none => true
  | some u =>
    (match u.job with
      | some j => !(s.job j).live
      | none => true) &&
    (if s.mirrored p ∧ s.tw.mode ≠ 2 then match u.step, (s.twp p).cut with
        | some k, some c => decide (k ≤ c)
        | _, _ => false
      else s.publishes p || u.job.isSome || u.step.isSome)

/-- The next FREE buffer after the one last filled, in ring order. -/
def State.nextBuf (s : State) (x : Stream) (b : Binding) : Option Nat :=
  let n := b.f 0x0A 1
  let from_ := match x.last with
    | some i => i + 1
    | none => 0
  (findLow (fun i => s.bufFree b.part (tget none x.bufs ((from_ + i) % n))) n 0).map fun i => (from_ + i) % n

/-- Change the frame in progress of a slot. -/
def State.modFrame (s : State) (k : Nat) (f : RxFrame → RxFrame) : State :=
  s.modStream k fun x => { x with frame := x.frame.map f }

/-- The frame fails under CSI_ERR (11 R379, R384; 09 R325). -/
def State.csiFail (s : State) (k : Nat) : State :=
  (s.record (rxSource k) 4 lvTask { part := (s.stream k).bind.map (·.part) }).modFrame k fun r => { r with failed := true }

/-- The frame fails under TPL (11 R388 to R390), recorded once. -/
def State.tplFail (s : State) (k : Nat) : State :=
  let bad := ((s.stream k).frame.map (·.tplBad)).getD false
  let s := if bad then s else s.record (rxSource k) 30 lvTask { part := (s.stream k).bind.map (·.part) }
  s.modFrame k fun r => { r with failed := true, tplBad := true }

/-- A Test Pattern Line arrives as line `i` of the frame (11 R388); the last one ends with the continuity check (R389). -/
def State.tplArrives (s : State) (k : Nat) (b : Binding) (r : RxFrame) (data : List Byte) : State :=
  let fc := r.fc.getD (leNat (data.take 4))
  let n := b.f 0x21 1
  let s := s.modFrame k fun r => { r with tpls := r.tpls + 1, fc := some fc }
  let s := if data = tplLine fc (b.f 0x1E 2) r.tpls n (b.f 0x1C 2) then s else s.tplFail k
  let bad := ((s.stream k).frame.map (·.tplBad)).getD false
  if r.tpls + 1 < n ∨ bad then s
  else
    let x := s.stream k
    let d := (fc + 2 ^ 32 - x.prevFc.getD 0) % 2 ^ 32
    let s := s.modStream k fun x => { x with prevFc := some fc }
    if x.first ∨ x.prevFc.isNone ∨ d = 1 then s
    else if 2 ≤ d ∧ d ≤ 8 then (s.modFrame k fun r => { r with gap := true }).postStream k 5 fc []
    else s.tplFail k

/-- A slice of an Identity Block. -/
def slice (d : List Byte) (off n : Nat) : List Byte := (d.drop off).take n

/-- Four counters. -/
def four (d : List Byte) (off : Nat) : List Nat := (List.range 4).map fun i => leNat (slice d (off + 4 * i) 4)

/-- The block's length, zero fields and CRC hold (11 R390). -/
def identOk (d : List Byte) : Bool :=
  decide (d.length = 512) && decide (leNat (slice d 1 1) < 2) &&
    ([(2, 2), (20, 4), (81, 7), (218, 6), (418, 90)].all fun z => (slice d z.1 z.2).all fun y => decide (y = 0)) &&
    decide (leNat (slice d 508 4) = crc32 (d.take 508))

/-- Some counter lies below the other list's. -/
def anyBelow (a b : List Nat) : Bool := (List.range 4).any fun i => decide (a.getD i 0 < b.getD i 0)

/-- An Identity Block arrives (11 R390 to R394). -/
def State.identArrives (s : State) (k : Nat) (r : RxFrame) (d : List Byte) (nonce : Nat) : State :=
  let s := s.modFrame k fun r => { r with ident := true }
  if !identOk d then s.tplFail k
  else
    let x := s.stream k
    let me := (slice d 4 16, slice d 24 57)
    let life := four d 256
    let limit := four d 88
    let expired := (List.range 4).any fun i => decide (limit.getD i 0 ≤ life.getD i 0)
    let other := match x.snap with
      | some (i, y, _) => decide ((i, y) ≠ me) && decide (x.ident ≠ some me)
      | none => false
    let below := (match x.snap with
      | some (i, y, l) => decide ((i, y) = me) && anyBelow life l
      | none => false) || (!x.first && decide (x.ident = some me) && anyBelow life x.life)
    let answer := decide (leNat (slice d 1 1) = 1) && r.answers && decide (x.nonce = some (slice d 272 32))
    let s := s.modStream k fun x => { x with ident := some me, life := life, calHash := slice d 224 32, expired := expired }
    let s := if expired && !x.expired then s.postStream k 7 (r.fc.getD 0) [] else s
    if other then (s.setTrust k 1).challenge k nonce
    else if below then (s.setTrust k 3).modStream k fun x => { x with nonce := none, verify := none, left := 0, reauthAt := none }
    else if answer then s.modStream k fun x => { x with verify := some (d, r.fc.getD 0) }
    else s

/-- Store a line of the frame (11 R382): embedded line `e` is row e, image line y is row EMB_KEEP + y. -/
def State.storeLine (s : State) (b : Binding) (r : RxFrame) (row : Nat) (data : List Byte) : State :=
  match r.buf with
  | some i =>
    let pitch := 64 * b.f 0x0C 2
    let a := b.f 0x10 8 + i * b.f 0x18 4 + 64 + pitch * row
    s.writeCells a (data.take pitch) (s.unitAt a) (data.length + 1)
  | none => s

/-- An embedded-data line arrives (11 R384). -/
def State.embArrives (s : State) (k : Nat) (b : Binding) (r : RxFrame) (p : CsiPkt) (nonce : Nat) : State :=
  if p.ingressDrop then s.csiFail k
  else if r.lines = 0 ∧ b.flag 0 ∧ r.tpls < b.f 0x21 1 then s.tplArrives k b r p.data
  else if r.lines = 0 ∧ b.flag 1 ∧ ¬ r.ident then s.identArrives k r p.data nonce
  else if r.lines = 0 ∧ r.emb < b.f 0x0B 1 then (s.storeLine b r r.emb p.data).modFrame k fun r => { r with emb := r.emb + 1 }
  else s.modStream k fun x => { x with discarded := x.discarded + 1 }

/-- An image line arrives (11 R384). -/
def State.lineArrives (s : State) (k : Nat) (b : Binding) (r : RxFrame) (p : CsiPkt) : State :=
  let ok := decide (lineBytes p.dt (b.f 6 2) = some p.data.length) && !p.ingressDrop
  let s := if ok then (if r.lines < b.f 8 2 then s.storeLine b r (b.f 0x0B 1 + r.lines) p.data else s) else s.csiFail k
  s.modFrame k fun r => { r with lines := r.lines + 1 }

/-- CSI_PACKET (11 R379, R384): `nonce` serves the challenge of a new identity (R393). -/
def execCsiPacket (port vc : Fin 16) (pkt : CsiPkt) (nonce : Nat) (s : State) : Host.Outcome State Fault Refusal :=
  let k := 16 * port.val + vc.val
  let x := s.stream k
  if tget false s.saf.portOut port.val then .next s
  else match x.bind with
  | none => .next s
  | some b =>
    let s := if pkt.header = .single then s.modStream k fun x => { x with corrected := x.corrected + 1 } else s
    if pkt.header = .bad then .next (s.csiFail k)
    else match x.frame with
    | none => .next (s.modStream k fun x => { x with discarded := x.discarded + 1 })
    | some r =>
      if pkt.dt = 2 then
        .next (if r.openLine then s.csiFail k else s.modFrame k fun r => { r with openLine := true })
      else if pkt.dt = 3 then
        .next (if r.openLine then s.modFrame k fun r => { r with openLine := false } else s.csiFail k)
      else if !pkt.crcOk then .next (s.csiFail k)
      else if pkt.dt = 0x12 then .next (s.embArrives k b r pkt nonce)
      else if pkt.dt = b.f 3 1 then .next (s.lineArrives k b r pkt)
      else .next (s.modStream k fun x => { x with discarded := x.discarded + 1 })

/-- The header of a frame (11 R383). -/
def Stream.header (x : Stream) (b : Binding) (r : RxFrame) : List Byte :=
  le 8 (r.fc.getD 0 * 2 ^ 32 + r.lines % 2 ^ 16 * 2 ^ 16 + x.trust * 2 ^ 10 + x.cal b * 2 ^ 8 + (if x.expired then 128 else 0) +
    if r.gap then 64 else 0) ++ le 8 (r.emb * 2 ^ 48 + x.dropped % 2 ^ 32) ++ le 48 0

/-- The payload a stream-bound launch has (11 R385): IMAGE, TASK, no completion record, and for the twin's log the stream and
FRAME_COUNT (10 R359). -/
def streamLaunch (k : Nat) (b : Binding) (fc : Nat) : List Byte :=
  le 1 (b.f 0x23 1) ++ le 1 0 ++ le 2 (b.f 0x26 2) ++ le 4 0 ++ le 24 0 ++ le 8 noRecord ++ le 2 k ++ le 2 0 ++ le 4 fc

/-- Launch the binding's task on a released frame in buffer `i` (11 R385). A standby keeps the frame for the publisher's launch
(10 R362); a launch that is refused frees the buffer. -/
def State.launchFrame (s : State) (k : Nat) (b : Binding) (i fc : Nat) : State :=
  let c : Ctx := { m := b.mbx, part := b.part, pl := streamLaunch k b fc }
  let hold (s : State) (u : FrameUse) : State := s.modStream k fun x => { x with bufs := tput none x.bufs i (some u) }
  if !s.publishes b.part then hold s { fc := fc }
  else if (firstHit (s.launchConds c false)).isSome then
    (s.modStream k fun x => { x with dropped := 1 }).postStream k 3 fc []
  else
    let n := s.sch.nextJob
    let (s, step) := s.takeStep c
    let (s, _) := s.accept c none step
    let v := step.getD (2 ^ 64 - 1)
    hold (s.logLaunch b.part b.mbx 0x30 v c.pl) { job := some n, step := some v, fc := fc }

/-- A frame that is not released (09 R325; 11 R385): counted, with its event. -/
def State.lostFrame (s : State) (k code fc : Nat) : State :=
  (s.modStream k fun x => { x with dropped := satAdd 32 x.dropped 1 }).postStream k code fc []

/-- The checks at the end of a frame that has not failed yet (11 R379, R384, R388, R390). -/
def State.endChecks (s : State) (k : Nat) (b : Binding) (r : RxFrame) (complete : Bool) : State :=
  if r.failed then s
  else if !complete || r.openLine || decide (r.lines ≠ b.f 8 2) then s.csiFail k
  else if (b.flag 0 && decide (r.tpls < b.f 0x21 1)) || (b.flag 1 && !r.ident) then s.tplFail k
  else s

/-- A frame ends (11 R383, R385): with its frame end packet, or cut off by the next frame start. -/
def State.endFrame (s : State) (k : Nat) (complete : Bool) : State :=
  match (s.stream k).bind, (s.stream k).frame with
  | some b, some r =>
    let s := s.endChecks k b r complete
    let x := s.stream k
    let s := if r.answers && decide (x.left = 0) && x.nonce.isSome && x.verify.isNone then s.untrust k else s
    let x := s.stream k
    let r := x.frame.getD r
    let fc := r.fc.getD 0
    let s := match r.buf with
      | some i =>
        let a := b.f 0x10 8 + i * b.f 0x18 4
        if complete then s.writeCells a (x.header b r) (s.unitAt a) 65 else s
      | none => s
    let s := s.modStream k fun x => { x with frame := none, first := false }
    match r.buf with
    | none => s.lostFrame k 3 fc
    | some i =>
      if r.failed then s.lostFrame k 2 fc
      else if (s.part b.part).cls ≠ 0 ∧ ¬ (x.trust = 2 ∧ x.cal b = 1) then
        (s.record (rxSource k) 30 lvTask { part := some b.part }).lostFrame k 2 fc
      else
        let s := s.modStream k fun x => { x with dropped := 0 }
        let now := s.clk.ctc
        let s := s.postStream k 1 fc [r.start % 2 ^ 32, r.start / 2 ^ 32, now % 2 ^ 32, now / 2 ^ 32]
        if b.flag 4 then s.launchFrame k b i fc else s
  | _, _ => s

/-- CSI_FRAME_END (11 R385). -/
def execCsiFrameEnd (port vc : Fin 16) (s : State) : Host.Outcome State Fault Refusal :=
  .next (if tget false s.saf.portOut port.val then s else s.endFrame (16 * port.val + vc.val) true)

/-- A frame begins on a bound slot (11 R382, R386, R391). -/
def State.beginFrame (s : State) (k : Nat) (b : Binding) (n : Nat) : State :=
  let x := s.stream k
  let buf := s.nextBuf x b
  let answers := x.nonce.isSome && decide (0 < x.left)
  s.modStream k fun x => { x with
    first := x.first || x.silent
    silent := false
    lastStart := s.clk.elapsed
    left := if answers then x.left - 1 else x.left
    last := if buf.isSome then buf else x.last
    frame := some { buf := buf, no := n, start := s.clk.ctc, fc := if b.flag 0 then none else some n, answers := answers } }

/-- CSI_FRAME_START (11 R381, R382): an unbind or rebind that waits takes effect first; a frame still open ends as failed, and
one discarded by an unbind leaves nothing. -/
def execCsiFrameStart (port vc : Fin 16) (n : Nat) (s : State) : Host.Outcome State Fault Refusal :=
  let k := 16 * port.val + vc.val
  if tget false s.saf.portOut port.val then .next s
  else if (s.stream k).unbind then .next (s.applyUnbind k)
  else
    let s := (s.endFrame k false).applyRebind k
    match (s.stream k).bind with
    | some b => .next (s.beginFrame k b n)
    | none => .next s

/-- STREAM_SILENT (11 R386; 13 R448): no frame start for FRAME_TIMEOUT_MS, posted once; a rebind that has waited as long is
applied. -/
def execStreamSilent (port vc : Fin 16) (s : State) : Host.Outcome State Fault Refusal :=
  let k := 16 * port.val + vc.val
  match (s.stream k).bind with
  | none => .next s
  | some b =>
    let x := s.stream k
    if !x.silent then
      let s := s.elapse (x.lastStart + b.timeoutNs - s.clk.elapsed)
      let s := (s.modStream k fun x => { x with silent := true }).postStream k 4 (x.prevFc.getD 0) []
      let s := s.record (rxSource k) 4 lvTask { part := some b.part }
      .next (if x.next.isSome ∧ x.waitUntil ≤ s.clk.elapsed then s.applyRebind k else s)
    else if x.next.isSome then .next ((s.elapse (x.waitUntil - s.clk.elapsed)).applyRebind k)
    else .next s

/-! ### Challenges (11 R391, R392, R395) -/

/-- The response in an Identity Block verifies (11 R390, R391). -/
def State.responseOk (s : State) (d : List Byte) (fc : Nat) : Bool :=
  let key := slice d 24 57
  match s.bs.oemKey with
  | some root =>
    edVerify key [] (slice d 272 32 ++ slice d 4 16 ++ key ++ slice d 224 32 ++ slice d 256 16 ++ le 4 fc) (slice d 304 114) &&
      edVerify root [] (slice d 4 16 ++ key ++ slice d 88 16) (slice d 104 114)
  | none => false

/-- RESPONSE_VERIFIED (11 R391, R392). -/
def execResponseVerified (port vc : Fin 16) (s : State) : Host.Outcome State Fault Refusal :=
  let k := 16 * port.val + vc.val
  let x := s.stream k
  match x.bind, x.verify with
  | some b, some (d, fc) =>
    if s.responseOk d fc then
      let due := if b.f 0x28 2 = 0 then none else some (s.clk.elapsed + 1000000000 * b.f 0x28 2)
      let s := s.modStream k fun x => { x with
        snap := some (slice d 4 16, slice d 24 57, four d 256), nonce := none, verify := none, left := 0, reauthAt := due }
      .next (s.setTrust k 2)
    else .next (s.untrust k)
  | _, _ => .next s

/-- REAUTH_CHALLENGE (11 R391, R395): REAUTH_S has passed on a TRUSTED stream. -/
def execReauthChallenge (port vc : Fin 16) (nonce : Nat) (s : State) : Host.Outcome State Fault Refusal :=
  let k := 16 * port.val + vc.val
  let x := s.stream k
  match x.bind, x.reauthAt with
  | some b, some t =>
    if x.trust = 2 then
      let s := s.elapse (t - s.clk.elapsed)
      let s := s.modStream k fun x => { x with reauthAt := some (s.clk.elapsed + 1000000000 * b.f 0x28 2) }
      .next (s.challenge k nonce)
    else .next s
  | _, _ => .next s

/-- CHALLENGE_NONCE_RECEIVE (11 R395). -/
def execChallengeNonceReceive (port vc : Fin 16) (nonce : Nat) (s : State) : Host.Outcome State Fault Refusal :=
  .next (if s.tw.st = 1 then s.takeNonce (16 * port.val + vc.val) nonce else s)

/-! ### The East I3C controller role (11 R404) -/

/-- I3C_HANDOFF_ACCEPTED: the claim holds from now on, or times out with no effect. -/
def execI3cHandoffAccepted (ok : Bool) (s : State) : Host.Outcome State Fault Refusal :=
  match s.cam.role, s.cam.roleClaim with
  | 1, some c =>
    if !ok then
      .next (({ s with cam := { s.cam with role := 0, roleClaim := none } }).finishAll .i3cHandoff stTimeout 0 [])
    else if s.waits .i3cHandoff then
      let c : Claim := { c with until_ := if c.res = 5 then some (s.clk.elapsed + 1000000000 * c.value) else none }
      let s : State := { s with cam := { s.cam with role := 2, roleClaim := some c }, claims := s.claims ++ [c] }
      .next (s.bump.finishAll .i3cHandoff stOk 0 [])
    else .next s.askRoleBack
  | _, _ => .next s

/-- CAM_SB_BULK_EXPIRY: the claim ends after LIMIT_S and the role is asked back. -/
def execCamSbBulkExpiry (s : State) : Host.Outcome State Fault Refusal :=
  match s.claimOf 5 0 with
  | some c => .next (((s.elapse (c.until_.getD 0 - s.clk.elapsed)).dropClaims fun x => decide (x.res = 5)).bump)
  | none => .next s

/-- I3C_ROLE_RETURN: every stream whose binding has an identity is challenged, in slot order, with one nonce each. -/
def execI3cRoleReturn (nonces : List Nat) (s : State) : Host.Outcome State Fault Refusal :=
  if s.cam.role ≠ 3 then .next s
  else
    let s : State := { s with cam := { s.cam with role := 0, roleClaim := none } }
    let keys := (s.cam.streams.filter fun (x : Nat × Stream) => match x.2.bind with
      | some b => b.flag 1
      | none => false).map (·.1)
    .next ((List.range keys.length).foldl (fun s i => s.challenge (keys.getD i 0) (nonces.getD i 0)) s)

/-- I3C_ROLE_REQUEST_RETRY: the role has not come back in time. -/
def execI3cRoleRequestRetry (s : State) : Host.Outcome State Fault Refusal :=
  if s.cam.role ≠ 3 then .next s
  else
    let s := s.elapse (s.cam.retryAt - s.clk.elapsed)
    let s := s.record (srcIo 1 8) 3 lvTask {}
    .next { s with cam := { s.cam with retryAt := s.clk.elapsed + 100000000 } }

/-- LOOPBACK_TEST_DONE (11 R401): `fails` are the transmit ports that failed; the claim ends. -/
def execLoopbackTestDone (fails : List Nat) (s : State) : Host.Outcome State Fault Refusal :=
  match s.claimOf 3 0 with
  | none => .next s
  | some _ =>
    let bad := (List.range 4).filter fun p => decide (p ∈ fails)
    let s := bad.foldl (fun s p =>
      let s := s.record (srcIo (p / 2) (0x18 + p % 2)) 33 lvUnit {}
      { s with cam := { s.cam with portOff := tput false s.cam.portOff p true } }) s
    let s : State := { s with saf := { s.saf with test := { s.saf.test with loopback := if bad.isEmpty then 1 else 2 } } }
    .next ((s.dropClaims fun c => decide (c.res = 3)).bump)

end Sys2Proof.Machine
end

