-- ==== Sys2Proof/Machine/Links.lean ====
section
/-! DEFINITION. The PCIe links and what crosses them (12 R406, R407, R415; 01 R523; 07 R274, R275; 16 R520), memory reads, the
major frame start, the ends of tasks. -/

namespace Sys2Proof.Machine

/-! ### Spill engines (07 R268, R274, R275) -/

/-- The words of a queue in order, each with its place: 0 head, 1 the ring or the run that faulted, 2 tail. -/
def SpillQ.placed (q : SpillQ) (run : Nat) : List (Nat × (W64 × Bool)) :=
  q.head.map (fun w => (0, w)) ++ q.mid.map (fun w => (1, (w, false))) ++
    (q.tail.take run).map (fun w => (1, (w, false))) ++ (q.tail.drop run).map (fun w => (2, (w, false)))

/-- A word that continues an event group (12 R427). -/
def isExt (w : W64) : Bool := decide (bits w 61 56 = 0x3E)

/-- Split a list of placed words into event groups. -/
def eventGroups : List (Nat × (W64 × Bool)) → List (List (Nat × (W64 × Bool)))
  | [] => []
  | x :: t =>
    match eventGroups t with
    | g :: gs => match g with
      | y :: _ => if isExt y.2.1 then (x :: g) :: gs else [x] :: g :: gs
      | [] => [x] :: gs
    | [] => [[x]]

/-- A queue after a spill or refill fault (07 R275): it stops accepting pushes and discards what its ring held, with the run
of the access that faulted; the Event Queue discards whole groups and counts them for LOST (12 R429). -/
def SpillQ.fault (q : SpillQ) (evq : Bool) (run : Nat) : SpillQ :=
  let ws := q.placed run
  let hit (g : List (Nat × (W64 × Bool))) : Bool := g.any fun x => decide (x.1 = 1)
  let gs := if evq then eventGroups ws else ws.map fun x => [x]
  let kept : List (Nat × (W64 × Bool)) := (gs.filter fun g => !hit g).flatten
  ({ q with
    enable := false, spillFault := true, linkLost := false, popWait := 0, mid := []
    head := (kept.filter fun (x : Nat × (W64 × Bool)) => decide (x.1 = 0)).map fun (x : Nat × (W64 × Bool)) => x.2
    tail := (kept.filter fun (x : Nat × (W64 × Bool)) => decide (x.1 = 2)).map fun (x : Nat × (W64 × Bool)) => x.2.1
    dropped := satAdd 32 q.dropped (ws.length - kept.length)
    lost := if evq then satAdd 32 q.lost (gs.filter hit).length else q.lost }).settle

/-- Every task that produces into or consumes from stream `i` of partition `p` ends with a memory fault (07 R275). -/
def State.failStream (s : State) (p i src bit : Nat) : State :=
  (s.jobsOf p).foldl (fun s j =>
    match (s.job j).tasks.findIdx? fun t => decide (i ∈ t.decl.streams) && decide (t.phase ≠ .done) && decide (t.phase ≠ .failed) with
    | some k => s.failTask j k causeFault src bit
    | none => s) s

/-- A ring that its endpoint no longer reaches (07 R274, R275): SPILL_FAULT, the middle is out of reach, and pops that wait for it return
VALID = 0. -/
def State.ringLost (s : State) (q : QueueId) : State :=
  let v := s.q q.key
  if v.enable ∨ ¬ v.mid.isEmpty then
    let s1 := s.setQ q.key { v with spillFault := true, linkLost := true, popWait := 0 }
    if v.popWait = 0 then s1 else s1.popEmpty q
  else s

/-- SQ_SPILL (07 R268, R274, R275): a run of 8 words moves from tail to middle, or up to 8 from middle to head; or the
access ends in a fault. -/
def execSqSpill (q : QueueId) (toHead : Bool) (ending : SpillEnd) (s : State) : Host.Outcome State Fault Refusal :=
  let v := s.q q.key
  let faulted (bit : Nat) : State :=
    let src := s.queueUnit q
    let s1 := s.setQ q.key (v.fault (decide (q = .evq)) (if toHead then 0 else 8))
    let s1 := s1.record src bit lvTask { addr := v.base }
    match q with
    | .stream p i => s1.failStream p.val i src bit
    | _ => s1
  match ending with
  | .ok =>
    if s.ringUnreachable v then .next s
    else if toHead then .next ((s.setQ q.key (v.refill []).settle).serveWaiting q 16)
    else if 8 ≤ v.tail.length ∧ v.mid.length + 8 ≤ v.size ∧ 16 ≤ v.head.length + 8 * v.mid.length then
      .next (s.setQ q.key v.spillRun)
    else .next s
  | .decodeFault => .next (faulted 11)
  | .dmaFault => .next (faulted 18)
  | .linkDown => .next (s.ringLost q)

/-! ### Links and power states -/

/-- The queue of a number. -/
def queueOf (k : Nat) : QueueId :=
  if k = 0 then .evq else if k ≤ 16 then .ingress (Fin.ofNat 16 (k - 1)) else if k ≤ 18 then .plan (Fin.ofNat 2 (k - 17))
  else .stream (Fin.ofNat 16 ((k - 32) % 16)) ((k - 32) / 16)

/-- The queues that endpoint `e` serves and whose ring it can no longer reach (07 R274). -/
def State.loseRings (s : State) (e : Nat) : State :=
  s.queues.foldl (fun s (x : Nat × SpillQ) => if hostBase ≤ x.2.base ∧ x.2.via = e then s.ringLost (queueOf x.1) else s) s

/-- Queues of endpoint `e` whose ring holds nothing accept pushes again; the others wait for their refill (07 R275). -/
def State.regainRings (s : State) (e : Nat) : State :=
  if s.epSends e then
    { s with queues := tabMap {} (fun (x : SpillQ) =>
      if x.via = e ∧ x.mid.isEmpty then { x with linkLost := false } else x) s.queues }
  else s

/-- Change endpoint `e`, and with it what its queues reach. -/
def State.setLink (s : State) (e : Nat) (f : Endpoint → Endpoint) : State :=
  let up := s.epSends e
  let s1 := s.modEp e f
  if up && !s1.epSends e then s1.loseRings e else if !up then s1.regainRings e else s1

/-- PCIE_LINK_DOWN (12 R407; 07 R274). -/
def execPcieLinkDown (ep : Fin 2) (s : State) : Host.Outcome State Fault Refusal :=
  .next (s.setLink ep.val fun e => { e with linkUp := false })

/-- PCIE_LINK_UP (07 R274; 14 R465): an endpoint still in reset or held by PERST trains no link; the first link of a
boot at L0 opens WAIT_IMAGE (log 25). -/
def execPcieLinkUp (ep : Fin 2) (s : State) : Host.Outcome State Fault Refusal :=
  if !s.saf.identOk || (s.ep ep.val).perst then .next s
  else
    let s1 := s.setLink ep.val fun e => { e with linkUp := true }
    if s1.bs.stage = stReleased then .next { s1 with bs := { s1.bs with stage := stWaitImage, waitSince := s1.clk.elapsed } }
    else .next s1

/-- D3HOT (12 R407). -/
def execD3hot (ep : Fin 2) (on : Bool) (s : State) : Host.Outcome State Fault Refusal :=
  .next (s.setLink ep.val fun e => { e with d3hot := on })

/-- What a function level reset resets (12 R406): configuration space with the power state, BAR2 windows, MSI-X table. -/
def Endpoint.flr (e : Endpoint) : Endpoint :=
  { e with d3hot := false, winBase := [], winCtrl := [], reject := 0, msix := [] }

/-- FUNCTION_LEVEL_RESET (12 R406). -/
def execFunctionLevelReset (ep : Fin 2) (s : State) : Host.Outcome State Fault Refusal := .next (s.setLink ep.val Endpoint.flr)

/-- PERST (16 R520): low resets the link and what a function level reset resets; on release the link trains. -/
def execPerst (ep : Fin 2) (low : Bool) (s : State) : Host.Outcome State Fault Refusal :=
  .next (s.setLink ep.val fun e => if low then { e.flr with perst := true, linkUp := false } else { e with perst := false })

/-! ### Reads of memory -/

/-- The first DRAM page whose Page Directory entry the reservation holds at an address (06 R527). -/
def dirPage (a : Nat) : Option Nat :=
  let o := a - towerSramBase
  let t := o / 0x10000000
  if towerSramBase ≤ a ∧ t < 4 ∧ 0xF800000 ≤ o % 0x10000000 then some (2 ^ 20 * t + (o % 0x10000000 - 0xF800000) / 8) else none

/-- The word of a Spill Queue's ring at an address (07 R268): what the middle holds there (log 6). -/
def State.ringWord (s : State) (a : Nat) : Option Nat :=
  (s.queues.find? fun x => decide (x.2.base ≤ a) && decide (a < x.2.base + 8 * x.2.size)).bind fun x =>
    let v := x.2
    let slot := (a - v.base) / 8
    let first := v.spilled - v.mid.length
    let i := (slot + v.size - first % max 1 v.size) % max 1 v.size
    (v.mid[i]?).map (·.toNat)

/-- The bytes of memory at an address: in the reservation those of the Page Directory (06 R527; 04 R137), in a ring its words. -/
def State.viewBytes (s : State) (a n : Nat) : List Byte :=
  (List.range n).map fun i =>
    match dirPage (a + i), s.ringWord (a + i) with
    | some ppn, _ => BitVec.ofNat 8 (s.pageWord ppn / 2 ^ (8 * ((a + i) % 8)))
    | none, some w => BitVec.ofNat 8 (w / 2 ^ (8 * ((a + i) % 8)))
    | none, none => s.byte (a + i)

/-- The Spill Queue whose register block an address lies in, with the offset (07 R272). -/
def sqBlock (a : Nat) : Option (QueueId × Nat) :=
  ((List.range 1056).find? fun k => decide (Config.spillQueueDa k ≤ a) && decide (a < Config.spillQueueDa k + 0x40)).map fun k =>
    (queueOf k, a - Config.spillQueueDa k)

/-- A register of unit control space as a Cupola or Lantern reads it (01 R40): the sequence table, the CTC registers, a Spill Queue's
block (04 R114; 08 R293; 07 R272); the manual describes no other beside DIE_IDENT (log 12). -/
def State.unitReg (s : State) (a : Nat) : Nat :=
  if Config.seqTableDa ≤ a ∧ a < Config.seqTableDa + 32 * 4096 then
    ((s.sq ((a - Config.seqTableDa) / 32)).words).getD ((a - Config.seqTableDa) % 32 / 8) 0
  else if Config.ctcDa 0 ≤ a ∧ a < Config.ctcDa 0 + 0x38 then s.ctcReg (a - Config.ctcDa 0)
  else if Config.ctcDa 1 ≤ a ∧ a < Config.ctcDa 1 + 0x38 then s.ctcReg (a - Config.ctcDa 1)
  else match sqBlock a with
    | some (q, off) => (s.q q.key).reg off
    | none => 0

/-- A read of unit control space by a Cupola or Lantern (01 R41): of 8 bytes at a register, which for SQ_POP and SQ_DROPPED acts; else of
the bytes there. -/
def State.unitAccess (s : State) (a n : Nat) : State :=
  if (identDie a n).isSome then s.answer (s.unitRead a n) false
  else match n, sqBlock a with
  | 8, some (q, 0x30) => match execSqPop q true 0 s with
    | .next t => t
    | _ => s
  | 8, some (q, 0x28) => match execSqDroppedRead q s with
    | .next t => t
    | _ => s
  | n, _ => s.answer ((List.range n).map fun i => BitVec.ofNat 8 (s.unitReg ((a + i) / 8 * 8) / 2 ^ (8 * ((a + i) % 8)))) false

/-- A read of a Planning Engine's world store (05 R199): an uncorrectable error quarantines the engine. -/
def State.worldRead (s : State) (e a : Nat) : List EccCond → State
  | [] => s
  | .clean :: t | .ctrl :: t => s.worldRead e (a + 8) t
  | .single :: t => (s.record (srcIo e 3) 5 lvMasked { addr := a }).worldRead e (a + 8) t
  | .bad :: _ => (s.record (srcIo e 3) 6 lvTask { addr := a }).engineQuarantine e

/-- A read of `n` bytes: what it delivers, which is memory as it shows itself, and what the units record (07 R238, R242, R243, R249; 01
R39, R41, R42, R523). A requester
that does not act reads nothing. -/
def State.readOp (s : State) (r : Requester) (a n : Nat) (conds : List EccCond) : State :=
  if !s.acts r then s
  else if s.kindRange a n = some .unit then
    match r with
    | .cupola _ | .lantern _ => s.answer (s.unitRead a n) false
    | r => if (identDie a n).isSome then s.answer (s.unitRead a n) false else (s.answer (List.replicate n 0) false).decodeFault r a
  else if !s.allowed r a n false then (s.answer [] false).decodeFault r a
  else if s.hostCut r a n then (s.answer [] false).memFault r a
  else if .ctrl ∈ conds then (s.answer [] false).transferFault r a
  else
    let da := reqDa r a
    let t := s.fetch (s.origin r) da n conds
    if t.anyBad da n then (t.answer (t.rd da n) true).poisoned r a else t.answer (s.viewBytes da n) false

/-- MEMORY_READ (07 R238, R242, R249, R272; 01 R39, R41; 06 R527). An address from 2⁵² on of a Planning Engine is an offset of its
world store, whose words the errors listed concern in turn (05 R199). -/
def execMemoryRead (req : Requester) (da n : Nat) (conds : List EccCond) (s : State) : Host.Outcome State Fault Refusal :=
  match req with
  | .engine e => if ownBase ≤ da then .next (s.worldRead e.val (da - ownBase) conds) else .next (s.readOp req da n conds)
  | .cupola _ | .lantern _ => if s.kindRange da n = some .unit then .next (s.unitAccess da n) else .next (s.readOp req da n conds)
  | _ => .next (s.readOp req da n conds)

/-! ### Accesses of the host and to the host -/

/-- The device address of an access of `n` bytes at BAR2 offset `off` through endpoint `ep`, where its window takes it (12
R415): bit 61 of WIN_CTRL for reads, 62 for writes. -/
def State.bar2Da (s : State) (ep off n bit : Nat) : Option (Nat × Nat) :=
  let w := off / 2 ^ 32
  let o := off % 2 ^ 32
  let c := tget 0 (s.ep ep).winCtrl w
  if w < 16 ∧ 1 ≤ n ∧ c.getLsbD 63 ∧ c.getLsbD bit ∧ o + n ≤ (bits c 11 0 + 1) * mib then
    some (tget 0 (s.ep ep).winBase w + o, bits c 47 40)
  else none

/-- An access no window takes: Unsupported Request for a read, a write discarded, DECODE at the endpoint (12 R415). -/
def State.bar2Refuse (s : State) (ep off : Nat) (read : Bool) : State :=
  let s1 := s.record (srcIo ep 5) 11 lvTask { addr := off }
  if read then { s1 with host := { s1.host with read := { data := [], poison := false, refused := true } } } else s1

/-- BAR2_ACCESS (12 R406, R415; 07 R242). -/
def execBar2Access (ep : Fin 2) (off : Nat) (acc : Access) (conds : List EccCond) (s : State) : Host.Outcome State Fault Refusal :=
  match acc with
  | .poisoned => .next (s.record (srcIo ep.val 5) 3 lvTask {})
  | .read n => match s.bar2Da ep.val off n 61 with
    | some (da, p) => .next (s.readOp (.host ep (Fin.ofNat 16 p)) da n conds)
    | none => .next (s.bar2Refuse ep.val off true)
  | .write d => match s.bar2Da ep.val off d.length 62 with
    | some (da, p) => .next (s.writeOp (.host ep (Fin.ofNat 16 p)) da d conds)
    | none => .next (s.bar2Refuse ep.val off false)

/-- A host-window read that delivers no data (01 R523): the endpoint and the requester record it, the task ends. -/
def State.hostReadFails (s : State) (ep : Nat) (req : Requester) (da : Nat) : State :=
  let s1 := s.record (srcIo ep 5) 3 lvTask (s.note req da)
  let s2 := s1.answer [] false
  (s2.record (reqSource req) 17 lvTask (s2.note req da)).failReq req 17

/-- A requester waits for a read of the host window that endpoint `ep` carries: the one its die reaches first, the other when that sends
nothing (01 R20, R42; 12 R407). -/
def State.hostReader (s : State) (ep : Nat) (req : Requester) (da n : Nat) : Bool :=
  s.acts req && s.allowed req da n false && decide (s.kindRange da n = some .host) && decide (s.route (reqDie req).near = ep) && s.epSends ep

/-- HOST_READ_COMPLETION (01 R42, R523; 07 R242): `data` is what the host's memory held. -/
def execHostReadCompletion (ep : Fin 2) (req : Requester) (da : Nat) (st : ReadStatus) (data : List Byte) (s : State) :
    Host.Outcome State Fault Refusal :=
  if !s.hostReader ep.val req da (max 1 data.length) then .next s
  else match st with
  | .ok => .next ((s.wr da data).answer data false)
  | .poisoned => .next (((s.record (srcIo ep.val 5) 3 lvTask (s.note req da)).answer data true).poisoned req da)
  | .unsupported => .next (s.hostReadFails ep.val req da)
  | .aborted => .next (s.hostReadFails ep.val req da)

/-- HOST_READ_TIMEOUT (01 R42, R523): on the endpoint that carries the requester's reads, or one that has gone down under them. -/
def execHostReadTimeout (ep : Fin 2) (req : Requester) (da : Nat) (s : State) : Host.Outcome State Fault Refusal :=
  if s.hostReader ep.val req da 1 ∨ (s.acts req ∧ s.allowed req da 1 false ∧ s.kindRange da 1 = some .host ∧ !s.epSends ep.val) then
    .next (s.hostReadFails ep.val req da)
  else .next s

/-! ### Frames, tasks, pins -/

/-- MAJOR_FRAME_START (06 R207 to R209; 10 R362, R363, R370, R377; 16 R521): FRAME_MARK rises while claimed. -/
def execMajorFrameStart (s : State) : Host.Outcome State Fault Refusal :=
  let s1 := s.frameStart
  .next ({ s1 with frameMark := s1.claimed 2 }).twinFrame

/-- FRAME_MARK_END (16 R521): 1 µs after the frame start FRAME_MARK falls. -/
def execFrameMarkEnd (s : State) : Host.Outcome State Fault Refusal :=
  if s.frameMark then .next { s.elapseTo (s.sch.frame.start + 1000) with frameMark := false } else .next s

/-- TASK_END (06 R217, R226): the task of Spire `sp` ends `dt` ns after the previous command. -/
def execTaskEnd (sp : Fin 64) (dt : Nat) (s : State) : Host.Outcome State Fault Refusal := .next (s.taskEnd sp.val dt)

/-- LANT_HB_TOGGLE (09 R322): the pin of a Lantern that toggles. -/
def execLantHbToggle (l : Fin 2) (s : State) : Host.Outcome State Fault Refusal :=
  .next (if (s.lantern l.val).toggling then s.modLantern l.val fun x => { x with hbLevel := !x.hbLevel } else s)

end Sys2Proof.Machine
end

