-- ==== Sys2Proof/Machine/Boot.lean ====
section
/-! DEFINITION. Resets and wipes (14 R462 to R464), the package identity check (01 R23 to R32), the boot (14 R465 to R476), FW_STAGE
and FW_ACTIVATE (13 R461; 14 R474), entropy (14 R479). -/

namespace Sys2Proof.Machine

/-! ### Resets (14 R462) -/

/-- A Lantern through a warm reset: it keeps running, its pin goes low, its PACKAGE decision ends (09 R322, R323). -/
def Lantern.warm (x : Lantern) : Lantern :=
  { x with package := false, pinLow := true, miss := [], cwMiss := 0, peerLost := false, level := 0 }

/-- What a warm reset leaves (14 R462, R464; 12 R422): the Lanterns with their mailboxes and firmware, the record files, the
staging record, the strap samples, OTP, the life counters (15 R505) and the host's own memory; everything else is as after
power-on. -/
def State.warmReset (s : State) (cause : Nat) : State :=
  { recs := s.recs
    queues := resetQueues
    host := { sm := s.host.sm, msixSent := s.host.msixSent, read := s.host.read
              eps := (s.host.eps.filter fun (x : Nat × Endpoint) => x.2.perst).map fun (x : Nat × Endpoint) => (x.1, { perst := true }) }
    mem := { bytes := s.mem.bytes.filter fun c => decide (hostBase ≤ c.1) }
    saf := { lanterns := (tput {} (tput {} [] 0 (s.lantern 0).warm) 1 (s.lantern 1).warm)
             prevStraps := s.saf.prevStraps, test := { everDisabled := s.saf.test.everDisabled } }
    bs := { cause := cause, lantFw := s.bs.lantFw, staging := s.bs.staging }
    otp := s.otp
    heat := { life := { s.ageLife.heat.life with at_ := 0 } }
    free := s.free
    pending := s.pending }

/-- The fuse write of a life-cycle transition, and the wipe of the Lanterns' SRAM but for the record mirrors (14 R464, R481). -/
def State.transition (s : State) (lc : Nat) : State :=
  { s with
    otp := { s.otp with lc := lc, count := s.otp.count + 1 }
    bs := { s.bs with staging := none }
    host := { s.host with sm := s.host.sm.map fun (x : Nat × I3cTarget) =>
      (x.1, { dynAddr := x.2.dynAddr, events := x.2.events, ibis := x.2.ibis, lastIbi := x.2.lastIbi }) } }

/-- DELAYED_WARM_RESET (14 R462, R481; 13 R451, R455, R461): at least 1 ms after the completion. -/
def execDelayedWarmReset (s : State) : Host.Outcome State Fault Refusal :=
  match s.bs.delayed with
  | some (cause, at_) =>
    let s1 := s.elapse (at_ - s.clk.elapsed)
    let s2 := match s1.bs.lcTo with
      | some lc => s1.transition lc
      | none => s1
    .next (s2.warmReset cause)
  | none => .next s

/-- RESET_IN_N_PULSE (16 R520; 14 R463): a low pulse of at least 10 µs is a warm reset, one below 1 µs nothing; between
them the manual leaves it open (log 4). -/
def execResetInNPulse (ns : Nat) (s : State) : Host.Outcome State Fault Refusal :=
  if 10000 ≤ ns then .next (s.warmReset 1)
  else if ns < 1000 then .next s
  else
    let (v, s) := s.draw 1
    .next (if v = 1 then s.warmReset 1 else s)

/-- The block before power: nothing but OTP is kept (14 R462; 16 R516); the host's own memory is not the block's (R464). -/
def State.cold (s : State) (powered : Bool) : State :=
  { queues := resetQueues, otp := s.otp, bs := { powered := powered }, free := s.free, pending := s.pending
    mem := { bytes := s.mem.bytes.filter fun c => decide (hostBase ≤ c.1) } }

/-- POWER_LOSS (16 R516). -/
def execPowerLoss (s : State) : Host.Outcome State Fault Refusal := .next (s.cold false)

/-- POWER_ON (16 R514): release of power-on reset. -/
def execPowerOn (s : State) : Host.Outcome State Fault Refusal := .next (if s.bs.powered then s else s.cold true)

/-! ### The package identity check (01 R23 to R32) -/

/-- Dies in the order of their units: Towers 0 to 3, West, East; the unit that stands for a die (09 R343). -/
def dieUnit (d : Nat) : Nat := if d < 4 then srcTower d 0x1A else srcIo (d - 4) 0

/-- ROT and MIR of a strap word. -/
def strapRot (w : Nat) : Nat := w % 4
def strapMir (w : Nat) : Nat := w / 4 % 2

/-- The strap word R25 or R26 predicts for the far end of a port: the three ports of base dies in order CW, CCW, IO, then Q0
and Q1 of the I/O dies. -/
def farEnd (ws : List Nat) (port : Nat) : Nat :=
  if port < 12 then
    let r := strapRot (ws.getD (port / 3) 0)
    match port % 3 with
    | 0 => (r + 1) % 4
    | 1 => (r + 3) % 4
    | _ => if r = 0 ∨ r = 3 then 0 else 4
  else
    let m := strapMir (ws.getD (4 + (port - 12) / 2) 0)
    match m, (port - 12) % 2 with
    | 0, 0 => 0
    | 0, _ => 3
    | _, 0 => 1
    | _, _ => 2

/-- The die a port belongs to. -/
def portDie (port : Nat) : Nat := if port < 12 then port / 3 else 4 + (port - 12) / 2

/-- The first inconsistency of the words (01 R29, codes 1 to 6) in the order of its table, with the reporting die. `ws` are the 6 strap words, then the
words received at the 16 ports (a number from 8 up where none was). -/
def identCheck (prev ws : List Nat) : Option (Nat × Nat) :=
  let w (i : Nat) : Nat := ws.getD i 0
  let bad (code : Nat) (p : Nat → Bool) (n : Nat) (die : Nat → Nat) : Option (Nat × Nat) := (findLow p n 0).map fun i => (code, die i)
  (bad 1 (fun i => decide (strapMir (w i) = 1)) 4 id).or
  ((bad 2 (fun i => decide (strapRot (w (4 + i)) ≠ 0)) 2 (· + 4)).or
  ((bad 3 (fun i => (List.range i).any fun k => decide (strapRot (w k) = strapRot (w i))) 4 id).or
  ((if strapMir (w 4) = strapMir (w 5) then some (4, 5) else none).or
  ((bad 5 (fun i => decide (ws.getD (6 + i) 0xFF ≠ farEnd ws i)) 16 portDie).or
  (if prev.isEmpty then none else bad 6 (fun i => decide (w i ≠ prev.getD i 0)) 6 id)))))

/-- Base die `t` powers the P2 link of one outer site, which its ROT names, and keeps the other powered down (01 R25). -/
def State.sitePowered (s : State) (t : Nat) (x : OuterSite) : Bool := decide (p2Site (strapRot (s.saf.prevStraps.getD t t)) = x)

/-- Lantern `l` finds the package inconsistent (01 R31): PKG_IDENT in its record, a fault record naming code and die, its pin low. -/
def State.identFails (s : State) (l code die : Nat) : State :=
  let s := s.record (srcIo l 2) 34 lvPackage { detail := code }
  let s := s.modSm l fun t => t.addFault ⟨s.recs.seq, dieUnit die, 34, code, lvPackage, s.clk.ctc⟩
  s.packageDecision l s.recs.seq

/-- What the Lanterns in service find: both, what the words show; each, PEER_SILENT where it does not hear of the other's check, whose die
is then its own (01 R29; log 131). -/
def State.identFound (s : State) (prev ws : List Nat) (hears : LanternsHear) : List (Nat × Nat × Nat) :=
  let inService := [0, 1].filter fun l => !(s.lantern l).out
  match identCheck prev ws with
  | some (code, die) => inService.map fun l => (l, code, die)
  | none => (inService.filter fun l => !(if l = 0 then hears.a else hears.b) || (s.lantern (1 - l)).out).map fun l => (l, 7, 4 + l)

/-- Every finding takes effect. -/
def State.identFailsAll (s : State) (found : List (Nat × Nat × Nat)) : State := found.foldl (fun s f => s.identFails f.1 f.2.1 f.2.2) s

/-- A Lantern healthy after its start-up self-test toggles its heartbeat; released, its pin goes high (09 R322, R323). -/
def State.lanternsUp (s : State) (release : Bool) : State :=
  [0, 1].foldl (fun s l => if (s.lantern l).out then s
    else s.modLantern l fun x => { x with toggling := true, pinLow := x.pinLow && !release }) s

/-- PKG_IDENT_CHECK (01 R29 to R32; 14 R465 step 3, R482): both Lanterns complete the check. Without an inconsistency now or
since power was applied the resets are released. -/
def execPkgIdentCheck (words : List Nat) (hears : LanternsHear) (s : State) : Host.Outcome State Fault Refusal :=
  if s.saf.identOk ∨ s.bs.powered = false then .next s
  else
    let found := s.identFound s.saf.prevStraps words hears
    let s1 := { s with saf := { s.saf with prevStraps := words.take 6 } }
    if !found.isEmpty then .next ((s1.identFailsAll found).lanternsUp false)
    else if s.pkgIdent 0 || s.pkgIdent 1 || (s.lantern 0).out || (s.lantern 1).out then .next (s1.lanternsUp false)
    else
      let s2 := s1.lanternsUp true
      let s3 := { s2 with saf := { s2.saf with identOk := true } }
      if s.otp.lc = 5 then .next ({ s3 with bs := { s3.bs with stage := stHalted } }.bootErr 3 0x0C)
      else .next { s3 with bs := { s3.bs with stage := stReleased } }

/-! ### Tower reset -/

/-- The state of a Tower's compute die, Page Walker and monitors after its reset (14 R462): quarantines end, counters, tokens,
DMA channels, gathers and sorters start anew. -/
def State.freshTower (s : State) (t : Nat) : State :=
  let out (k n : Nat) : Bool := decide (k / n ≠ t)
  let s1 := (List.range 16).foldl (fun s i => s.modSpire (16 * t + i) fun x =>
    { clk := x.clk, want := x.want, keep := false }) s
  { s1 with
    heat := { s1.heat with towers := tput {} s1.heat.towers t { at_ := (s1.tower t).at_ } }
    sch := { s1.sch with
      ctrs := s1.sch.ctrs.filter fun (x : Nat × Nat) => out x.1 256
      ctrFailed := s1.sch.ctrFailed.filter fun (x : Nat × Bool) => out x.1 256
      tokens := s1.sch.tokens.filter fun (x : Nat × Nat) => out x.1 256
      tokFailed := s1.sch.tokFailed.filter fun (x : Nat × Bool) => out x.1 256
      shadows := s1.sch.shadows.filter fun (x : Nat × Nat) => out x.1 4096
      reads := s1.sch.reads.filter fun (x : Nat × Nat) => out x.1 256
      readFailed := s1.sch.readFailed.filter fun (x : Nat × Bool) => out x.1 256 }
    mem := { s1.mem with dma := s1.mem.dma.filter fun (x : Nat × Dma) => out x.1 16 }
    seq := { s1.seq with
      gathers := s1.seq.gathers.filter fun (x : Nat × List Gather) => out x.1 4
      micro := s1.seq.micro.filter fun (x : Nat × List (Nat × Nat × Nat)) => out x.1 4
      tlb := s1.seq.tlb.filter fun (x : Nat × List (Nat × Nat × Nat)) => out x.1 64
      masked := s1.seq.masked.filter fun (x : Nat × List Nat) => out x.1 4 }
    sorters := s1.sorters.filter fun (x : Nat × Sorter) => out x.1 4
    saf := { s1.saf with
      towerQ := tput false s1.saf.towerQ t false
      domeOut := s1.saf.domeOut.filter fun (x : Nat × Bool) => out x.1 4
      kvOut := s1.saf.kvOut.filter fun (x : Nat × Bool) => out x.1 4
      sorterOut := s1.saf.sorterOut.filter fun (x : Nat × Bool) => out x.1 4 } }

/-- TOWER_RESET_DONE (14 R463; 01 R23, R29 to R32; 09 R341): the Tower's base die samples its straps again and the package is checked
with them; units that fail their start-up self-test stay out of service; the command completes. A package found inconsistent goes into
reset as at a warm reset and stays there (log 132). -/
def execTowerResetDone (t : Fin 4) (words : List Nat) (hears : LanternsHear) (fails : List Nat) (s : State) :
    Host.Outcome State Fault Refusal :=
  if !s.waits (.towerReset t.val) then .next s
  else
    let prev := s.saf.prevStraps
    let straps := prev.set t.val (words.getD t.val 0)
    let found := s.identFound prev (straps ++ words.drop 6) hears
    let s1 := { s with saf := { s.saf with prevStraps := straps } }
    if !found.isEmpty ∨ s.pkgIdent 0 ∨ s.pkgIdent 1 then .next (((s1.warmReset s.bs.cause).identFailsAll found).lanternsUp false)
    else
      let s2 := s1.freshTower t.val
      let s3 := (fails.filter fun u => decide (srcTowerOf u = some t.val)).foldl (fun s u => s.selftestFail u 0) s2
      .next (s3.finishAll (.towerReset t.val) stOk 0 [])

/-! ### Firmware images (14 R470 to R472) -/

/-- Codes of R469 that an image's checks give. -/
abbrev fwFormat : Nat := 3
abbrev fwTarget : Nat := 4
abbrev fwLifecycle : Nat := 5
abbrev fwKey : Nat := 6
abbrev fwSignature : Nat := 7
abbrev fwDigest : Nat := 8
abbrev fwRollback : Nat := 9
abbrev fwStaged : Nat := 10

/-- A field of a header. -/
def hField (h : List Byte) (off n : Nat) : Nat := leNat ((h.drop off).take n)

/-- A section of a header: type, offset, bytes, digest. -/
def section_ (h : List Byte) (i : Nat) : Nat × Nat × Nat × List Byte :=
  let b := 0x100 + 48 * i
  (hField h b 1, hField h (b + 8) 4, hField h (b + 12) 4, (h.drop (b + 16)).take 32)

/-- The sections of a header. -/
def sections (h : List Byte) : List (Nat × Nat × Nat × List Byte) := (List.range (hField h 6 2)).map (section_ h)

/-- Two sections do not overlap. -/
def apart (a b : Nat × Nat × Nat × List Byte) : Bool := decide (a.2.1 + a.2.2.1 ≤ b.2.1) || decide (b.2.1 + b.2.2.1 ≤ a.2.1)

/-- The header and section table keep R470, for an image of `n` bytes. -/
def formatOk (h : List Byte) (n : Nat) : Bool :=
  let total := hField h 0x10 4
  let ns := hField h 6 2
  let ss := sections h
  let count (ty : Nat) : Nat := (ss.filter fun x => decide (x.1 = ty)).length
  decide (hField h 0 4 = 0x4E525A41) && decide (hField h 4 2 = 1) && decide (2 ≤ ns) && decide (ns ≤ 16) &&
    decide (hField h 0xC 4 ≤ 128) && decide (65536 ≤ total) && decide (total ≤ 16 * mib) && decide (total % 64 = 0) &&
    decide (total ≤ n) && decide (hField h 0x15 1 < 64) && decide (hField h 0x1A 1 < 4) && decide (hField h 0x1B 5 = 0) &&
    decide (hField h 0x59 39 = 0) && decide (hField h 0xF2 14 = 0) && decide (hField h (0x100 + 48 * ns) (48 * (16 - ns)) = 0) &&
    (List.range ns).all (fun i => decide (hField h (0x101 + 48 * i) 7 = 0)) &&
    ss.all (fun x => decide (1 ≤ x.1) && decide (x.1 ≤ 4) && decide (x.2.1 % 64 = 0) && decide (0x400 ≤ x.2.1) &&
      decide (x.2.1 + x.2.2.1 ≤ total) && (decide (x.1 ≠ 2) || decide (x.2.2.1 ≤ mib))) &&
    (List.range ns).all (fun i => (List.range i).all fun k => apart (section_ h k) (section_ h i)) &&
    decide (count 1 = 1) && decide (count 2 = 1)

/-- The message a firmware signature covers (14 R471). -/
def hdr0 (h : List Byte) : List Byte := h.take 0x80 ++ List.replicate 114 0 ++ h.drop 0xF2

/-- The digest of the first section of a type. -/
def digestOf (h : List Byte) (ty : Nat) : List Byte :=
  match (sections h).find? fun x => decide (x.1 = ty) with
  | some x => x.2.2.2
  | none => []

/-- The signer is an unrevoked firmware key of OTP; its measurement is formed as OEM_ROOT's (log 26). -/
def Otp.fwKeyOk (o : Otp) (h : List Byte) : Bool :=
  let i := hField h 0x1A 1
  decide (shake256 (le 1 0x30 ++ (h.drop 0x20).take 57) 32 = o.fwKey.getD i []) && decide (i < o.fwKey.length) && !o.revoked.getLsbD i

/-- The checks of an image in the order of R469's codes, after FETCH: what the image is, or the code of the first that fails
(14 R472). -/
def State.checkImage (s : State) (img : List Byte) : FwImage ⊕ Nat :=
  let h := img.take 1024
  let digestsOk := (sections h).all fun x => decide (shake256 (le 1 0x11 ++ le 1 x.1 ++ (img.drop x.2.1).take x.2.2.1) 32 = x.2.2.2)
  if !formatOk h img.length then .inr fwFormat
  else if hField h 0x14 1 ≠ Config.siliconRev.toNat then .inr fwTarget
  else if !(hField h 0x15 1).testBit s.otp.lc then .inr fwLifecycle
  else if !s.otp.fwKeyOk h then .inr fwKey
  else if !edVerify ((h.drop 0x20).take 57) (ascii "AZL-FW") (hdr0 h) ((h.drop 0x80).take 114) then .inr fwSignature
  else if !digestsOk then .inr fwDigest
  else if hField h 0xC 4 < s.otp.rollback then .inr fwRollback
  else .inl { version := hField h 8 4, rollback := hField h 0xC 4, twinMin := hField h 0x18 1, twinMax := hField h 0x19 1
              cupola := digestOf h 1, lantern := digestOf h 2, meas := shake256 (le 1 0x10 ++ h) 32 }

/-! ### The boot (14 R465 to R476) -/

/-- NO_IMAGE (14 R469, R473): no GO within 1 s of WAIT_IMAGE, or no link at L0 within 100 ms of release. -/
def execNoImage (s : State) : Host.Outcome State Fault Refusal :=
  if s.bs.stage = stWaitImage ∧ s.bs.goEp.isNone then
    .next (((s.elapse (s.bs.waitSince + 1000000000 - s.clk.elapsed)).bootErr 3 1).recoveryWait)
  else if s.bs.stage = stReleased then .next (((s.elapse (100000000 - s.clk.elapsed)).bootErr 3 1).recoveryWait)
  else .next s

/-- FETCH_TIMEOUT (14 R469): a fetch read did not complete within 50 ms. -/
def execFetchTimeout (s : State) : Host.Outcome State Fault Refusal :=
  if s.bs.stage = stFetch then .next (((s.elapse 50000000).bootErr s.bs.slot 2).trySlot) else .next s

/-- An image that passed: LOAD (14 R465 step 8). -/
def State.loadImage (s : State) (f : FwImage) (booted : Nat) (recovery : Bool) : State :=
  { s with bs := { s.bs with stage := stLoad, fw := some f, booted := booted, recovery := recovery, lanternsUp := [] } }

/-- The staging record refuses the image of a hinted slot (14 R472, R474). -/
def State.stagedDiffers (s : State) (slot : Nat) (f : FwImage) : Bool :=
  match s.bs.staging with
  | some (h, meas, true) => decide (h = slot) && decide (meas ≠ f.meas)
  | _ => false

/-- IMAGE_FETCH_DONE (14 R472, R473): the slot's image is in; `ok` is false where a read ended poisoned or with an error. -/
def execImageFetchDone (ok : Bool) (s : State) : Host.Outcome State Fault Refusal :=
  let i := s.bs.slot
  let n := s.slotLen i
  let fails (code : Nat) : State := (s.bootErr i code).trySlot
  if s.bs.stage ≠ stFetch then .next s
  else if !ok || !s.srcOk (s.bootDa i) n then .next (fails 2)
  else match s.checkImage (s.rd (s.bootDa i) n) with
    | .inr code => .next (fails code)
    | .inl f => .next (if s.stagedDiffers i f then fails fwStaged else s.loadImage f i false)

/-- RECOVERY_VERIFY_DONE (14 R476). -/
def execRecoveryVerifyDone (s : State) : Host.Outcome State Fault Refusal :=
  match s.bs.rcvBy with
  | some l =>
    if s.bs.rcvState ≠ 3 then .next s
    else match s.checkImage (s.bs.rcvData.take (tget 0 s.bs.rcvLen l)) with
      | .inl f =>
        let t := s.loadImage f 2 true
        .next { t with bs := { t.bs with rcvState := 4 } }
      | .inr code =>
        let t := (s.bootErr 2 code).recoveryWait
        .next { t with bs := { t.bs with rcvErr := code } }
  | none => .next s

/-- Every Lantern in service has done its step 8. -/
def State.sectionsDone (s : State) : Bool := [0, 1].all fun l => (s.lantern l).out || tget false s.bs.lanternsUp l

/-- LANTERN_SECTION_CHECK (14 R467, R472): Lantern `l` keeps its firmware when the LANTERN section's digest is that of what
it runs; else it takes the new one if the signature and digest it checks itself hold (`ok`), Lantern B first at a warm
reset; a mismatch is SELFTEST and PACKAGE. -/
def execLanternSectionCheck (l : Fin 2) (ok : Bool) (s : State) : Host.Outcome State Fault Refusal :=
  match s.bs.fw with
  | some f =>
    let runs := tget none s.bs.lantFw l.val
    let same := decide (runs = some f.lantern)
    if s.bs.stage ≠ stLoad ∨ (s.lantern l.val).out ∨ tget false s.bs.lanternsUp l.val then .next s
    else if l.val = 0 ∧ runs.isSome ∧ !same ∧ !(s.lantern 1).out ∧ !tget false s.bs.lanternsUp 1 then .next s
    else
      let s1 := { s with bs := { s.bs with
        lanternsUp := tput false s.bs.lanternsUp l.val true
        lantFw := if same || ok then tput none s.bs.lantFw l.val (some f.lantern) else s.bs.lantFw } }
      let s2 := if same || ok then s1 else (s1.record (srcIo l.val 2) 33 lvPackage {}).packageDecision l.val s1.recs.seq
      .next (if s2.sectionsDone then { s2 with bs := { s2.bs with stage := stUnitInit } } else s2)
  | none => .next s

/-- UNIT_INIT_DONE (14 R465 step 9, R466; 09 R341): a unit that fails stays out of service, BOOT_ERR records SELFTEST. -/
def execUnitInitDone (fails : List Nat) (s : State) : Host.Outcome State Fault Refusal :=
  if s.bs.stage ≠ stUnitInit then .next s
  else
    let bad := fails.filter srcUsed
    let s1 := bad.foldl (fun s u => s.selftestFail u 0) s
    let s2 := if bad.isEmpty then s1 else s1.bootErr s.bs.booted 0x0B
    .next { s2 with bs := { s2.bs with stage := stConfig } }

/-- DRAM_WIPE_DONE (14 R465 step 4): DRAM is trained and wiped. -/
def execDramWipeDone (s : State) : Host.Outcome State Fault Refusal :=
  if s.saf.identOk then .next { s with bs := { s.bs with wiped := true } } else .next s

/-- Firmware sets up a queue of the reservation's lower area; its place and size are open (07 R276; 06 R527; log 27). -/
def State.placeQueue (s : State) (q : QueueId) (drop : Bool) (t : Nat) : State :=
  let (a, s) := s.draw 14
  let (n, s) := s.draw 3
  s.setQ q.key { enable := true, drop := drop, base := towerSramBase + t * 0x10000000 + 0xF008000 + 64 * a, size := 64 * 2 ^ n }

/-- The queues firmware serves come up: line ingress and planning results (07 R276). -/
def State.placeQueues (s : State) : State :=
  let s := (List.range 16).foldl (fun s i => s.placeQueue (.ingress (Fin.ofNat 16 i)) true (i / 8)) s
  (List.range 2).foldl (fun s i => s.placeQueue (.plan (Fin.ofNat 2 i)) false i) s

/-- LMP_READY (14 R465 steps 10 and 11, R474, R475): the Event Queue is enabled, mailboxes open, the staging record is erased,
the rollback counter raised. -/
def execLmpReady (s : State) : Host.Outcome State Fault Refusal :=
  match s.bs.fw with
  | some f =>
    if s.bs.stage ≠ stConfig ∨ s.bs.wiped = false then .next s
    else
      let s1 := s.placeQueues
      let s2 := s1.setQ 0 { s1.q 0 with enable := true }
      .next { s2 with
        bs := { s2.bs with stage := stReady, lmpReady := true, timeUs := s2.clk.elapsed / 1000, staging := none }
        otp := { s2.otp with rollback := max s2.otp.rollback f.rollback } }
  | none => .next s

/-! ### FW_STAGE and FW_ACTIVATE (13 R461; 14 R474) -/

/-- FW_STAGE. -/
def fwStageBody (ok : Bool) (c : Ctx) (s : State) : LmpRes :=
  let da := c.u64 0
  let n := c.u32 8
  checked s [(decide (hostBase ≤ da) && decide (da + n ≤ 2 * hostBase), 0), (decide (65536 ≤ n) && decide (n ≤ 16 * mib), 8),
      (decide (c.u8 0xC < 2), 0xC), (decide (c.fld 0xD 3 = 0), 0xD)]
    [(!ok || !s.srcOk da n, stArg, 0xFFFF)] fun _ =>
    match s.checkImage (s.rd da n) with
    | .inl f => .done stOk 0 (le 4 f.version ++ le 4 f.rollback ++ f.meas)
        { s with bs := { s.bs with staging := some (c.u8 0xC, f.meas, false) } }
    | .inr code =>
      if code ≤ fwLifecycle then .refuse 0x0200 code s
      else if code ≤ fwDigest then .refuse stAuth 0 s
      else .refuse 0x0201 0 s

/-- FW_STAGE. -/
def execFwStage (m : Fin 64) (ok : Bool) (s : State) : Host.Outcome State Fault Refusal :=
  .next (s.lmp m.val (isOp 0xF0) (fwStageBody ok))

/-- FW_ACTIVATE (13 R461; 10 R369). -/
def fwActivateBody (c : Ctx) (s : State) : LmpRes :=
  let slot := c.u8 0
  let publishing := decide (s.tw.st = 1) && decide (s.tw.mirror &&& s.tw.pub ≠ 0)
  match s.bs.staging with
  | some (h, meas, _) =>
    checked s [(decide (slot < 2), 0), (decide (c.fld 1 7 = 0), 1)] [(decide (h ≠ slot), stState, 0), (publishing, stState, 0)] fun _ =>
      .done stOk 0 [] (({ s with bs := { s.bs with staging := some (h, meas, true) } }).warmDue 3)
  | none => checked s [(decide (slot < 2), 0), (decide (c.fld 1 7 = 0), 1)] [(true, stState, 0)] fun _ => .refuse stState 0 s

/-- FW_ACTIVATE. -/
def execFwActivate (m : Fin 64) (s : State) : Host.Outcome State Fault Refusal := .next (s.lmp m.val (isOp 0xF1) fwActivateBody)

/-- ENTROPY_HEALTH_FAIL (14 R479): SELFTEST; with both sources failed the failure reacts at UNIT level. -/
def execEntropyHealthFail (side : Fin 2) (s : State) : Host.Outcome State Fault Refusal :=
  let s1 := { s with bs := { s.bs with entropyBad := tput false s.bs.entropyBad side.val true } }
  .next (s1.record (srcIo side.val 0) 33 (if tget false s1.bs.entropyBad (1 - side.val) then lvUnit else lvMasked) {})

end Sys2Proof.Machine
end

