-- ==== Sys2Proof/Machine/Displays.lean ====
section
/-! DEFINITION. Display streams (11 R396 to R400; 13 R449). -/

namespace Sys2Proof.Machine

/-- A transmit port. -/
def State.display (s : State) (p : Nat) : Display := tget {} s.cam.ports p

/-- Change a transmit port. -/
def State.modDisplay (s : State) (p : Nat) (f : Display → Display) : State :=
  { s with cam := { s.cam with ports := tmod {} s.cam.ports p f } }

/-- The source unit of a transmit port. -/
def txSource (p : Nat) : Nat := srcIo (p / 2) (0x18 + p % 2)

/-- A layer of a DISPLAY_BIND payload (13 R449). -/
structure Layer where
  da : Nat
  pitch : Nat
  w : Nat
  h : Nat
  x : Nat
  y : Nat
  alpha : Nat
  z : Nat
  flags : Nat
  deriving DecidableEq, Repr

/-- Layer `l` of a binding. -/
def Binding.layer (b : Binding) (l : Nat) : Layer :=
  let o := 0x28 + 32 * l
  { da := b.f o 8, pitch := 64 * b.f (o + 8) 2, w := b.f (o + 10) 2, h := b.f (o + 12) 2, x := b.f (o + 14) 2, y := b.f (o + 16) 2
    alpha := b.f (o + 18) 1, z := b.f (o + 19) 1, flags := b.f (o + 20) 1 }

/-- Bytes of a source pixel: ARGB8888 or RGB888. -/
def Layer.bpp (l : Layer) : Nat := if l.flags.testBit 1 then 4 else 3

/-- The bytes a layer's source spans. -/
def Layer.span (l : Layer) : Nat := if l.w = 0 ∨ l.h = 0 then 0 else (l.h - 1) * l.pitch + l.w * l.bpp

/-- Payload bytes of an output image line (11 R396). -/
def Binding.outBytes (b : Binding) : Nat := if b.f 3 1 = 0x24 then 3 * b.f 6 2 else 2 * b.f 6 2

/-- The fields of DISPLAY_BIND against their ranges, then the cases of 11 R396 in its order. The longest line's packet counts
with its 4-byte header and 2-byte footer. -/
def State.displayFields (s : State) (c : Ctx) : List (Bool × Nat) :=
  let b : Binding := { pl := c.pl, mbx := c.m, part := c.part }
  let ls := (List.range 4).map b.layer
  let w := c.u16 6
  let h := c.u16 8
  let n := c.u8 0x0A
  let period := c.u64 0x18
  let line := c.u32 0x14
  let bytes := max (max b.outBytes (c.u16 0x0C)) 64 + 6
  [(decide (c.u8 0 ≤ 3), 0), (decide (c.u8 1 ≤ 15), 1), (decide (c.u8 2 = 1) || decide (c.u8 2 = 2) || decide (c.u8 2 = 4), 2),
   (decide (c.u8 3 = 0x24) || decide (c.u8 3 = 0x1E), 3), (decide (80 ≤ c.u16 4) && decide (c.u16 4 ≤ 4500), 4),
   (decide (2 ≤ w) && decide (w ≤ 4096) && decide (w % 2 = 0), 6), (decide (1 ≤ h) && decide (h ≤ 4096), 8),
   (decide (1 ≤ n) && decide (n ≤ 4), 0x0A), (decide (c.u8 0x0B = 0), 0x0B),
   (decide (64 ≤ c.u16 0x0C) && decide (c.u16 0x0C ≤ 4096) && decide (c.u16 0x0C % 16 = 0), 0x0C), (decide (c.u32 0x10 < 2 ^ 24), 0x10)] ++
  ((List.range 4).flatMap fun i =>
    let l := b.layer i
    let o := 0x28 + 32 * i
    [(c.daOk o, o), (decide (l.z ≤ 3) && (ls.take i).all (fun k => decide (k.z ≠ l.z)), o + 19), (decide (l.flags < 4), o + 20),
      (decide (c.fld (o + 21) 11 = 0), o + 21)]) ++
  [(decide (w * h * 1000000000 ≤ 497664000 * period), 0x18), (decide ((h + n + 1) * line + 20000 ≤ period), 0x14),
   (decide (8 * bytes * 1000 ≤ line * c.u8 2 * c.u16 4), 0x14)] ++
  (List.range 4).map fun i =>
    let l := b.layer i
    (!l.flags.testBit 0 || (s.part c.part).inRegion l.da l.span, 0x28 + 32 * i)

/-- The body of DISPLAY_BIND: it completes at the first frame start at least 1 ms after acceptance (11 R398). -/
def displayBindBody (c : Ctx) (s : State) : LmpRes :=
  let p := c.u8 0
  let mine := match s.claimOf 0x21 p with
    | some h => decide (h.mbx = c.m)
    | none => false
  let con := if mine then [] else s.conflicts 0x21 p 0
  checked s (s.displayFields c) [(!con.isEmpty, stBusy, con.min?.getD 0), ((s.display p).next.isSome, stState, 0)] fun _ =>
    let b : Binding := { pl := c.pl, mbx := c.m, part := c.part }
    let s : State := if mine then s else { s with claims := s.claims ++ [{ res := 0x21, inst := p, mbx := c.m, part := c.part }] }
    .wait (.displayBind p) (s.modDisplay p fun d => { d with next := some b, nextAt := s.clk.ctc + 1000000 })

/-- DISPLAY_BIND. -/
def execDisplayBind (m : Fin 64) (s : State) : Host.Outcome State Fault Refusal :=
  .next (s.lmp m.val (isOp 0x52) displayBindBody)

/-- The start of frame `k` of a binding (11 R396). -/
def Binding.frameAt (b : Binding) (k : Nat) : Nat := b.f 0x20 8 + k * b.f 0x18 8

/-- The first frame of a binding that starts at or after a CTC. -/
def Binding.frameFrom (b : Binding) (t : Nat) : Nat := ceilDiv (t - b.f 0x20 8) (b.f 0x18 8)

/-- The content line (11 R400). -/
def contentLine (fc flags prevCrc : Nat) : List Byte :=
  let body := le 4 fc ++ le 4 flags ++ le 8 prevCrc ++ le 44 0
  body ++ le 4 (crc32 body)

/-- A frame of a port begins (11 R400). -/
def Display.begin_ (d : Display) (b : Binding) (changed : Bool) : Display :=
  let fc := d.frames % 2 ^ 32
  let n := b.f 0x0A 1
  let tpls := (List.range n).map fun i => tplLine fc (b.f 0x0E 2) i n (b.f 0x0C 2)
  let prev := if d.frames = 0 then 0 else d.crc
  { d with
    frames := d.frames + 1
    under := false
    crc := 0
    line := 0
    sent := []
    header := tpls ++ [contentLine fc ((if d.under then 1 else 0) + if changed then 2 else 0) prev] }

/-- DISPLAY_FRAME_START (11 R398, R400): the first frame of a bind, a frame with a change, or the next one. A port that failed
its self-test sends nothing. -/
def execDisplayFrameStart (port : Fin 4) (s : State) : Host.Outcome State Fault Refusal :=
  let p := port.val
  let d := s.display p
  if tget false s.cam.portOff p then .next s
  else match d.bind, d.next with
  | none, none => .next s
  | none, some b =>
    let k := b.frameFrom d.nextAt
    let s := s.elapseTo (b.frameAt k)
    .next ((s.modDisplay p fun _ => ({ bind := some b, k := k + 1 } : Display).begin_ b false).finishAll (.displayBind p) stOk 0 [])
  | some old, nx =>
    let s := s.elapseTo (old.frameAt d.k)
    match nx with
    | some b =>
      if d.nextAt ≤ s.clk.ctc then
        let k := b.frameFrom (s.clk.ctc + 1)
        let s := s.modDisplay p fun d => ({ d with bind := some b, next := none, k := k, disabled := 0 }).begin_ b true
        .next (s.finishAll (.displayBind p) stOk 0 [])
      else .next (s.modDisplay p fun d => ({ d with k := d.k + 1 }).begin_ old false)
    | none => .next (s.modDisplay p fun d => ({ d with k := d.k + 1 }).begin_ old false)

/-- A layer's source read fails (11 R399): disabled until the next DISPLAY_BIND, recorded as 01 R39 or 07 R242 asks, with its
event. -/
def State.disableLayer (s : State) (p l : Nat) : State :=
  let d := s.display p
  match d.bind with
  | some b =>
    let y := b.layer l
    if !y.flags.testBit 0 || d.disabled.getLsbD l then s
    else
      let bit := if (s.kindRange y.da (max 1 y.span)).isSome then 17 else 11
      let s := s.record (txSource p) bit lvTask { addr := y.da, part := some b.part, source := some (txSource p) }
      let s := s.modDisplay p fun d => { d with disabled := d.disabled ||| BitVec.ofNat 4 (2 ^ l) }
      s.post 6 (txSource p) 1 (p * 16 + l) [] false
  | none => s

/-- LAYER_DISABLED (11 R399). -/
def execLayerDisabled (port : Fin 4) (layer : Fin 4) (s : State) : Host.Outcome State Fault Refusal :=
  .next (s.disableLayer port.val layer.val)

/-- A colour. -/
structure Rgb where
  r : Nat
  g : Nat
  b : Nat
  deriving DecidableEq, Repr

/-- A source pixel of a layer with its alpha (11 R397). -/
def State.pixel (s : State) (l : Layer) (x y : Nat) : Rgb × Nat :=
  let a := l.da + (y - l.y) * l.pitch + (x - l.x) * l.bpp
  (⟨(s.byte a).toNat, (s.byte (a + 1)).toNat, (s.byte (a + 2)).toNat⟩, if l.flags.testBit 1 then (s.byte (a + 3)).toNat else 255)

/-- Blend a source pixel over a colour (11 R397). -/
def blend (alpha : Nat) (c : Rgb) (p : Rgb × Nat) : Rgb :=
  let a := (alpha * p.2 + 127) / 255
  let mix (s d : Nat) : Nat := (a * s + (255 - a) * d + 127) / 255
  ⟨mix p.1.r c.r, mix p.1.g c.g, mix p.1.b c.b⟩

/-- The layers a line is composed of, from the background upwards: enabled, not disabled, on this line. -/
def Binding.stack (b : Binding) (disabled : BitVec 4) (y : Nat) : List (Nat × Layer) :=
  ((List.range 4).flatMap fun z => ((List.range 4).filter fun i => decide ((b.layer i).z = z)).map fun i => (i, b.layer i)).filter
    fun (x : Nat × Layer) => x.2.flags.testBit 0 && !disabled.getLsbD x.1 && decide (x.2.y ≤ y) && decide (y < x.2.y + x.2.h)

/-- One output pixel; `late` gives for a layer the first pixel whose bytes have not arrived. -/
def State.composePixel (s : State) (b : Binding) (ls : List (Nat × Layer)) (late : List (Nat × Nat)) (x y : Nat) : Rgb :=
  let bg := b.f 0x10 4
  ls.foldl (fun c (l : Nat × Layer) =>
    if l.2.x ≤ x ∧ x < l.2.x + l.2.w ∧ ¬ (late.any fun t => decide (t.1 = l.1) && decide (t.2 ≤ x)) then
      blend l.2.alpha c (s.pixel l.2 x y)
    else c) ⟨nbits bg 23 16, nbits bg 15 8, nbits bg 7 0⟩

/-- Y, U and V of a colour (11 R397). -/
def yuv (c : Rgb) : Int × Int × Int :=
  let r : Int := c.r
  let g : Int := c.g
  let b : Int := c.b
  ((47 * r + 157 * g + 16 * b + 128) / 256 + 16, (-26 * r - 86 * g + 112 * b + 128) / 256 + 128,
    (112 * r - 102 * g - 10 * b + 128) / 256 + 128)

/-- The payload of a line of colours (11 R397). -/
def packLine (rgb : Bool) : List Rgb → List Byte
  | [] => []
  | c :: t =>
    if rgb then le 1 c.b ++ le 1 c.g ++ le 1 c.r ++ packLine rgb t
    else match t with
      | [] => []
      | d :: t =>
        let p := yuv c
        let q := yuv d
        le 1 ((p.2.1 + q.2.1 + 1) / 2).toNat ++ le 1 p.1.toNat ++ le 1 ((p.2.2 + q.2.2 + 1) / 2).toNat ++ le 1 q.1.toNat ++ packLine rgb t

/-- The bytes of a layer's line that lie in an active area of width `w` cannot be read. -/
def State.layerFaults (s : State) (w : Nat) (l : Layer) (y : Nat) : Bool :=
  let a := l.da + (y - l.y) * l.pitch
  let n := min l.w (w - l.x) * l.bpp
  decide (n ≠ 0) && ((s.kindRange a n).isNone || s.anyBad a n)

/-- DISPLAY_LINE_SEND (11 R397, R399): the next image line goes out; a layer that is late from some pixel on is transparent for
the rest of the line, one whose source cannot be read is disabled. -/
def execDisplayLineSend (port : Fin 4) (late : List (Nat × Nat)) (s : State) : Host.Outcome State Fault Refusal :=
  let p := port.val
  let d := s.display p
  match d.bind with
  | none => .next s
  | some b =>
    let y := d.line
    if b.f 8 2 ≤ y ∨ d.frames = 0 ∨ tget false s.cam.portOff p then .next s
    else
      let bad := (b.stack d.disabled y).filter fun (x : Nat × Layer) => s.layerFaults (b.f 6 2) x.2 y
      let s := bad.foldl (fun s (x : Nat × Layer) => s.disableLayer p x.1) s
      let d := s.display p
      let ls := b.stack d.disabled y
      let w := b.f 6 2
      let hit := ls.any fun (l : Nat × Layer) => late.any fun t =>
        decide (t.1 = l.1) && decide (t.2 < min w (l.2.x + l.2.w)) && decide (l.2.x < w)
      let bytes := packLine (decide (b.f 3 1 = 0x24)) ((List.range w).map fun x => s.composePixel b ls late x y)
      .next (s.modDisplay p fun d => { d with
        line := y + 1, under := d.under || hit, sent := bytes, crc := bytes.foldl (crcByte 64 0x42F0E1EBA9EA3693) d.crc })

end Sys2Proof.Machine
end

