-- ==== Sys2Proof/Machine/Sorter.lean ====
section
/-! DEFINITION. The Score Sorters of the Domes (03 R102 to R110). -/

namespace Sys2Proof.Machine

/-- A SORT_DESC's fields (03 R102). -/
structure SortDesc where
  score : Nat
  out : Nat
  aux : Nat
  thr : W32
  mode : Nat
  asc : Bool
  sfmt : Nat
  thrEn : Bool
  boxFp16 : Bool
  classAware : Bool
  iouThr : W32
  k : Nat
  n : Nat
  rsvOk : Bool
  deriving DecidableEq, Repr

/-- Read a SORT_DESC. -/
def sortFields (ws : List W64) : SortDesc :=
  let w (i : Nat) : W64 := ws.getD i 0
  { score := bits (w 0) 51 0, out := bits (w 1) 51 0, aux := bits (w 2) 51 0
    thr := BitVec.ofNat 32 (bits (w 3) 63 32), mode := bits (w 3) 7 6, asc := (w 3).getLsbD 5, sfmt := bits (w 3) 4 3
    thrEn := (w 3).getLsbD 2, boxFp16 := (w 3).getLsbD 1, classAware := (w 3).getLsbD 0
    iouThr := BitVec.ofNat 32 (bits (w 4) 63 32), k := bits (w 4) 29 20 + 1, n := bits (w 4) 19 0 + 1
    rsvOk := decide (bits (w 0) 63 52 = 0) && decide (bits (w 1) 63 52 = 0) && decide (bits (w 2) 63 52 = 0) &&
      decide (bits (w 3) 31 8 = 0) && decide (bits (w 4) 31 30 = 0) }

/-- Bytes of one score and of one box. -/
def SortDesc.sz (d : SortDesc) : Nat := if d.sfmt = 1 ∨ d.sfmt = 2 then 2 else 4
def SortDesc.box (d : SortDesc) : Nat := if d.boxFp16 then 8 else 16

/-- Where the class array starts (03 R102). -/
def SortDesc.classes (d : SortDesc) : Nat := d.aux + roundUp (d.n * d.box) 64

/-- The ranges an operation may touch: (address, bytes, written). -/
def SortDesc.ranges (d : SortDesc) : List (Nat × Nat × Bool) :=
  [(d.score, d.n * d.sz, false), (d.out, 8 + 8 * (if d.mode = 1 then d.n else min d.k d.n), true)] ++
    (if d.mode = 1 then [(d.aux, 8 * d.n, true)] else []) ++
    (if d.mode = 2 then (d.aux, d.n * d.box, false) :: (if d.classAware then [(d.classes, 2 * d.n, false)] else []) else [])

/-- The validation of 03 R103 after the descriptor itself could be read. -/
def State.sortOk (s : State) (p sp : Nat) (d : SortDesc) : Bool :=
  d.rsvOk && decide (d.mode ≠ 3) && decide (d.score % 8 = 0) && decide (d.out % 64 = 0) &&
    (if d.mode = 0 then decide (d.aux = 0) else decide (d.aux ≠ 0)) &&
    d.ranges.all fun r => s.reach p sp r.1 r.2.1 r.2.2

/-- A score as FP32 bits, or as INT32 bits (03 R104, R105). -/
def scoreWord (d : SortDesc) (raw : Nat) : W32 :=
  if d.sfmt = 0 ∨ d.sfmt = 3 then BitVec.ofNat 32 raw
  else f32 (decodeFmt (if d.sfmt = 1 then .bf16 else .fp16) raw)

/-- Score `x` is eligible (03 R104). -/
def SortDesc.eligible (d : SortDesc) (x : W32) : Bool :=
  if !d.thrEn then true
  else if d.sfmt = 3 then (if d.asc then decide (x.toInt ≤ d.thr.toInt) else decide (d.thr.toInt ≤ x.toInt))
  else if d.asc then (ofF32 x).le (ofF32 d.thr) else (ofF32 d.thr).le (ofF32 x)

/-- Score `x` ranks strictly before `y` by value (03 R104). -/
def SortDesc.before (d : SortDesc) (x y : W32) : Bool :=
  if d.sfmt = 3 then (if d.asc then decide (x.toInt < y.toInt) else decide (y.toInt < x.toInt))
  else
    let nx := decide (ofF32 x = .nan)
    let ny := decide (ofF32 y = .nan)
    if nx then false else if ny then true
    else if d.asc then !(ofF32 y).le (ofF32 x) else !(ofF32 x).le (ofF32 y)

/-- Insert an entry (index, score) before the first that ranks after it; entries come in ascending index, so equal keys
keep the lower index first. -/
def SortDesc.insert (d : SortDesc) (x : Nat × W32) : List (Nat × W32) → List (Nat × W32)
  | [] => [x]
  | y :: t => if d.before x.2 y.2 then x :: y :: t else y :: d.insert x t

/-- The eligible scores in rank order (03 R104). -/
def State.ranked (s : State) (d : SortDesc) (sp : Nat) : List (Nat × W32) :=
  (List.range d.n).foldl (fun l i =>
    let x := scoreWord d (s.rdNat (resolve sp d.score + i * d.sz) d.sz)
    if d.eligible x then d.insert (i, x) l else l) []

/-- A coordinate of a box, widened to FP32. -/
def State.coord (s : State) (d : SortDesc) (sp i c : Nat) : W32 :=
  let sz := d.box / 4
  let raw := s.rdNat (resolve sp d.aux + i * d.box + c * sz) sz
  if d.boxFp16 then f32 (decodeFmt .fp16 raw) else BitVec.ofNat 32 raw

/-- The overlap test of 03 R106 for two boxes. -/
def overlaps (thr : W32) (a b : Nat → W32) : Bool :=
  let iw := fmax 0 (fsub (fmin (a 2) (b 2)) (fmax (a 0) (b 0)))
  let ih := fmax 0 (fsub (fmin (a 3) (b 3)) (fmax (a 1) (b 1)))
  let inter := fmul iw ih
  let area (x : Nat → W32) := fmul (fmax 0 (fsub (x 2) (x 0))) (fmax 0 (fsub (x 3) (x 1)))
  let uni := fsub (fadd (area a) (area b)) inter
  fgt uni 0 && fgt inter (fmul thr uni)

/-- Suppression over the candidates in rank order (03 R106); `fuel` is their number. -/
def suppress (hit : Nat → Nat → Bool) : Nat → List (Nat × W32) → List (Nat × W32)
  | 0, _ => []
  | _, [] => []
  | n + 1, x :: t => x :: suppress hit n (t.filter fun y => !hit x.1 y.1)

/-- The records an operation gives and SUPPRESSED (03 R105, R106). -/
def State.sortResult (s : State) (d : SortDesc) (sp : Nat) : List (Nat × W32) × Nat :=
  let r := s.ranked d sp
  if d.mode = 1 then (r, 0)
  else
    let cand := r.take d.k
    if d.mode = 0 then (cand, 0)
    else
      let cls (i : Nat) := s.rdNat (resolve sp d.classes + 2 * i) 2
      let out := suppress (fun i j => (!d.classAware || decide (cls i = cls j)) &&
        overlaps d.iouThr (s.coord d sp i) (s.coord d sp j)) cand.length cand
      (out, cand.length - out.length)

/-- The output bytes: count word and records (03 R105). -/
def sortBytes (r : List (Nat × W32) × Nat) : List Byte :=
  leBytes 8 (r.1.length + r.2 * 2 ^ 32) ++ r.1.flatMap fun x => leBytes 8 (x.2.toNat + x.1 * 2 ^ 32)

/-- Dome `d`'s Score Sorter. -/
def State.sorter (s : State) (d : Nat) : Sorter := tget {} s.sorters d

/-- Change Dome `d`'s Score Sorter. -/
def State.modSorter (s : State) (d : Nat) (f : Sorter → Sorter) : State := { s with sorters := tmod {} s.sorters d f }

/-- A sorter fault (03 R103, R109): the Dome's record, and the requesting task ends. -/
def State.sorterFault (s : State) (d : Nat) (r : SortReq) : State :=
  (s.record (srcDome d) 19 lvTask { part := some (s.job r.task.1).part, source := some r.sp }).failRun r.task (srcDome d) 19

/-- Enter a request, stalled while eight are pending (03 R108). -/
def Sorter.enter (x : Sorter) (r : SortReq) : Sorter :=
  if x.queue.length < 8 then { x with queue := x.queue ++ [r] } else { x with stalled := x.stalled ++ [r] }

/-- Route a request of Dome `own` to its Score Sorter, or to the lowest other of the Tower in service whose Dome belongs to the partition's
set (03 R108, R110). -/
def State.sortRoute (s : State) (own : Nat) (r : SortReq) : State :=
  let p := (s.job r.task.1).part
  let to_ := if tget false s.saf.sorterOut own then
      ((List.range 4).map fun i => own / 4 * 4 + i).find? fun d =>
        decide (d ≠ own) && !tget false s.saf.sorterOut d && (s.setDomes p).getLsbD d
    else some own
  match to_ with
  | some d => s.modSorter d fun x => x.enter r
  | none => s.sorterFault own r

/-- SORT_REQUEST (03 R108, R110): a task that does not wait asks. -/
def execSortRequest (sp : Fin 64) (da : Nat) (s : State) : Host.Outcome State Fault Refusal :=
  match s.running sp.val with
  | some (j, i) =>
    if (s.task j i).waitSince.isSome then .next s
    else .next (s.sortRoute (sp.val / 4) { sp := sp.val, da := da, task := s.taskId j i })
  | none => .next s

/-- The Score Sorter of Dome `d` as it works for the task on Spire `sp`. -/
def sorterOf (d sp : Nat) : Requester := .sorter ⟨d % 16, Nat.mod_lt _ (by decide)⟩ ⟨sp % 64, Nat.mod_lt _ (by decide)⟩

/-- The Spire a request's task runs on now; while the task is saved its requests wait (log 126). -/
def State.sortSpire (s : State) (r : SortReq) : Option Nat :=
  let t := s.task r.task.1 r.task.2.1
  if s.running t.spire = some (r.task.1, r.task.2.1) then some t.spire else none

/-- SORT_START (03 R103, R108): the oldest request is taken and validated before anything is read; a request whose task goes on no more is
late, counted and dropped (06 R236). -/
def execSortStart (dome : Fin 16) (s : State) : Host.Outcome State Fault Refusal :=
  let x := s.sorter dome.val
  match x.cur, x.queue with
  | none, r :: rest =>
    if s.testing (.sorter dome) then .next s else
    let s1 := s.modSorter dome.val fun x => { x with
      queue := rest ++ x.stalled.take 1, stalled := x.stalled.drop 1, again := false }
    if !s.liveRun r.task then .next (s1.stale (srcDome dome.val))
    else match s.sortSpire r with
      | none => .next s
      | some sp =>
        let p := (s.job r.task.1).part
        if r.da % 64 ≠ 0 ∨ !s.reach p sp r.da 40 false then .next (s1.sorterFault dome.val r)
        else
          let q := sorterOf dome.val sp
          let da := resolve sp r.da
          let s := s1.fetch (s1.origin q) da 40 []
          if s.anyBad da 40 then .next (s.memFault q r.da)
          else
            let ws := (List.range 5).map fun i => BitVec.ofNat 64 (s.rdNat (da + 8 * i) 8)
            if s.sortOk p sp (sortFields ws) then .next (s.modSorter dome.val fun x => { x with cur := some (r, ws) })
            else .next (s.sorterFault dome.val r)
  | _, _ => .next s

/-- Read ranges for the task on Spire `sp`; the first uncorrectable one. -/
def State.sortReads (s : State) (q : Requester) (sp : Nat) : List (Nat × Nat) → State × Option Nat
  | [] => (s, none)
  | (a, n) :: t =>
    let s := s.fetch (s.origin q) (resolve sp a) n []
    if s.anyBad (resolve sp a) n then (s, some a) else s.sortReads q sp t

/-- The boxes and classes of the candidates of a TOPK_IOU (03 R102, R106). -/
def State.candReads (s : State) (f : SortDesc) (sp : Nat) : List (Nat × Nat) :=
  if f.mode = 2 then
    ((s.ranked f sp).take f.k).flatMap fun x =>
      (f.aux + x.1 * f.box, f.box) :: if f.classAware then [(f.classes + 2 * x.1, 2)] else []
  else []

/-- A FULL sort leaves open bytes in its scratch (03 R102; log 130). -/
def State.sortScratch (s : State) (q : Requester) (f : SortDesc) : State :=
  let k := s.free
  { s with free := k + 1 }.writeOp q f.aux ((List.range (8 * f.n)).map (Config.scratchByte k)) []

/-- Write an operation's output, or end the task where what it reads is poisoned (07 R242); an operation whose task goes on no more is
late, counted and dropped (06 R226, R236). -/
def State.sortWrite (s : State) (d : Nat) (r : SortReq) (ws : List W64) : State :=
  let f := sortFields ws
  let out := s.modSorter d fun x => { x with cur := none, again := false }
  if !s.liveRun r.task then out.stale (srcDome d)
  else match s.sortSpire r with
    | none => s
    | some sp =>
      let q := sorterOf d sp
      match out.sortReads q sp [(f.score, f.n * f.sz)] with
      | (s, some a) => s.memFault q a
      | (s, none) => match s.sortReads q sp (s.candReads f sp) with
        | (s, some a) => s.memFault q a
        | (s, none) =>
          let res := sortBytes (s.sortResult f sp)
          let s := if f.mode = 1 then s.sortScratch q f else s
          s.writeOp q f.out res []

/-- SORT_DONE (03 R109): checked and written, or repeated once. -/
def execSortDone (dome : Fin 16) (mismatch : Bool) (s : State) : Host.Outcome State Fault Refusal :=
  let x := s.sorter dome.val
  match x.cur, x.again with
  | some (r, ws), false =>
    if mismatch then .next (s.modSorter dome.val fun x => { x with again := true }) else .next (s.sortWrite dome.val r ws)
  | _, _ => .next s

/-- SORT_REPEAT_DONE (03 R109): a repeat that passes is counted; one that mismatches quarantines the Score Sorter, ends the
operation with a sorter fault, and leaves its pending requests to the rerouting of R110. -/
def execSortRepeatDone (dome : Fin 16) (mismatch : Bool) (s : State) : Host.Outcome State Fault Refusal :=
  let x := s.sorter dome.val
  match x.cur, x.again with
  | some (r, ws), true =>
    let d := dome.val
    if mismatch then
      let s := { s with saf := { s.saf with sorterOut := tput false s.saf.sorterOut d true } }
      let s := s.modSorter d fun _ => {}
      let s := s.record (srcDome d) 22 lvUnit {}
      let s := s.sorterFault d r
      .next ((x.queue ++ x.stalled).foldl (fun s r => s.sortRoute d r) s)
    else .next ((s.record (srcDome d) 21 lvMasked { part := some (s.job r.task.1).part, source := some r.sp }).sortWrite d r ws)
  | _, _ => .next s

end Sys2Proof.Machine
end

