-- ==== Sys2Proof/Machine/Thermal.lean ====
section
/-! DEFINITION. Power, heat and coolant (15 R484 to R507; 13 R460). -/

namespace Sys2Proof.Machine

/-! ### Events and life counters -/

/-- Post a THERMAL event (15 R506). -/
def State.postHeat (s : State) (src code payload : Nat) (ext : List Nat) : State := s.post 9 src code payload ext false

/-- The West I3C controller port, source of coolant events and of R500's (15 R498, R506; log 28). -/
abbrev srcHub : Nat := 0x0108

/-- A clock step in whole MHz; an odd step's half MHz rounds to a side the manual leaves open (log 4). -/
def State.mhz (s : State) (n : Nat) : Nat × State :=
  if n % 2 = 0 then (n * 125 / 2, s)
  else
    let (v, s) := s.draw 1
    (n * 125 / 2 + v, s)

/-- Count thermal cycles at a temperature (15 R505; log 29). -/
def Life.cycle (l : Life) (h : Int) : Life :=
  if l.rising then
    if l.high < h then { l with high := h }
    else if h < l.high then { l with rising := false, cycles := satAdd 32 l.cycles 1, low := some h }
    else l
  else
    let low := min (l.low.getD h) h
    if low + 160 ≤ h then { l with rising := true, high := h, low := some low } else { l with low := some low }

/-- Post a LIFE event (15 R505, R506). -/
def State.postLife (s : State) : State :=
  let s := s.ageLife
  let l := s.heat.life
  let minutes (ns : Nat) : Nat := min (ns / 60000000000) (2 ^ 32 - 1)
  let band (i : Nat) : Nat := minutes (tget 0 l.bands i)
  s.postHeat (srcIo 0 2) 0x0A (l.ns / 3600000000000)
    [minutes l.ns, band 0, band 1, band 2, band 3, band 4, l.cycles, min l.survivals 0xFFFF + min l.trips 0xFFFF * 2 ^ 16]

/-- LIFE (15 R505): every 60 minutes of operation. -/
def execLife (s : State) : Host.Outcome State Fault Refusal :=
  let s1 := s.ageLife
  let s2 := s1.elapse ((s1.heat.life.hours + 1) * 3600000000000 - s1.heat.life.ns)
  let s3 := s2.ageLife
  .next ({ s3 with heat := { s3.heat with life := { s3.heat.life with hours := s3.heat.life.hours + 1 } } }).postLife

/-! ### Sensors (15 R489 to R491) -/

/-- A reading that R490 keeps. -/
def kept (r : Option Int) : Option Int :=
  match r with
  | some v => if -200 ≤ v ∧ v ≤ 600 then some v else none
  | none => none

/-- The limit of a hot spot's die in 0.25 °C (15 R490). -/
def spotLimit (i : Nat) : Int := if i < 32 ∧ 4 ≤ i % 8 then 420 else 500

/-- The aggregator of a hot spot (15 R490). -/
def spotUnit (i : Nat) : Nat := if i < 32 then srcTower (i / 8) 0x18 else srcIo ((i - 32) / 2) 0

/-- The governing temperature of two readings, whether the hot spot has a condition, whether THERM_DISAGREE is set (15 R490). -/
def govern (i : Nat) (a b : Option Int) : Int × Bool × Bool :=
  match kept a, kept b with
  | some x, some y => if (x - y).natAbs ≤ 24 then ((x + y + 1) / 2, false, false) else (max x y, true, true)
  | some x, none => (x, true, true)
  | none, some y => (y, true, true)
  | none, none => (spotLimit i, true, false)

/-- SENSOR_READ (15 R490). -/
def execSensorRead (spot : Fin 36) (a b : Option Int) (s : State) : Host.Outcome State Fault Refusal :=
  let (g, cond, dis) := govern spot.val a b
  let s1 := s.ageLife
  let x := s1.spot spot.val
  let y : HotSpot := { gov := g, cond := cond, since := if x.cond then x.since else s1.clk.elapsed, reported := x.reported && cond }
  let s2 := { s1 with heat := { s1.heat with spots := tput {} s1.heat.spots spot.val y } }
  let s3 := { s2 with heat := { s2.heat with life := s2.heat.life.cycle (s2.hottest computeSpots) } }
  if dis then
    let (level, s4) := s3.openLevel
    .next (s4.record (spotUnit spot.val) 39 level { detail := spot.val })
  else .next s3

/-- SENSOR_FAULT_PERSIST (15 R491): more than 1 s of a condition: both Lanterns record it, the die slows down. -/
def execSensorFaultPersist (spot : Fin 36) (s : State) : Host.Outcome State Fault Refusal :=
  let x := s.spot spot.val
  if !x.cond || x.reported then .next s
  else
    let s1 := s.elapse (x.since + 1000000001 - s.clk.elapsed)
    let s2 := { s1 with heat := { s1.heat with spots := tput {} s1.heat.spots spot.val { x with reported := true } } }
    let s3 := [0, 1].foldl (fun s l => if (s.lantern l).out then s else s.record (srcIo l 2) 39 lvUnit { detail := spot.val }) s2
    let s4 := s3.postHeat (spotUnit spot.val) 3 spot.val []
    if spot.val < 32 then .next ((s4.modTower (spot.val / 8) fun t => { t with cap := 8 }).wantTower (spot.val / 8))
    else .next { s4 with heat := { s4.heat with halfRate := tput false s4.heat.halfRate ((spot.val - 32) / 2) true } }

/-! ### Ceilings and trips (15 R492 to R494) -/

/-- The ceiling that R492 gives next, and whether the base die decides it. -/
def TowerHeat.next (t : TowerHeat) (tc tb : Int) (now : Nat) : TowerHeat × Option Bool :=
  let cool := decide (tc < 456) && decide (tb < 388)
  let t := { t with
    hotSince := if 420 ≤ tb then some (t.hotSince.getD now) else none
    coolSince := if cool then some (t.coolSince.getD now) else none
    paused := decide (420 ≤ tb) || (t.paused && decide (412 ≤ tb)) }
  if 420 ≤ tb then ({ t with ceil := 4 }, some true)
  else if 500 ≤ tc ∨ 412 ≤ tb then ({ t with ceil := 4 }, some (decide (tc < 500)))
  else if 472 ≤ tc ∨ 400 ≤ tb then ({ t with ceil := max 4 (t.ceil - 1) }, some (decide (tc < 472)))
  else match t.coolSince with
    | some c => if c + 10000000 ≤ now ∧ t.raisedAt + 10000000 ≤ now then ({ t with ceil := min 16 (t.ceil + 1), raisedAt := now }, none)
      else (t, none)
    | none => (t, none)

/-- THERMAL_CEILING_UPDATE (15 R492): each ms. A change of at least 2 steps from the last report is posted. -/
def execThermalCeilingUpdate (t : Fin 4) (s : State) : Host.Outcome State Fault Refusal :=
  if s.heat.towersOff then .next s
  else
    let s1 := s.elapse ((s.tower t.val).at_ - s.clk.elapsed)
    let (x, base) := (s1.tower t.val).next (s1.hottest (towerSpots t.val)) (s1.hottest (baseSpots t.val)) s1.clk.elapsed
    let far := decide (x.ceil + 2 ≤ x.told) || decide (x.told + 2 ≤ x.ceil)
    let s2 := s1.modTower t.val fun _ => { x with at_ := s1.clk.elapsed + 1000000, told := if far then x.ceil else x.told }
    let s3 := s2.wantTower t.val
    if far then
      let (f, s4) := s3.mhz x.ceil
      let (d, s5) := s4.draw 1
      let side := match base with
        | some b => if b then 1 else 0
        | none => d
      .next (s5.postHeat (srcTower t.val 0x18) 2 (side * 2 ^ 24 + f) [])
    else .next s3

/-- BASE_DIE_OVERHEAT (15 R493): T_b at or above 105 °C for 100 ms. -/
def execBaseDieOverheat (t : Fin 4) (s : State) : Host.Outcome State Fault Refusal :=
  match (s.tower t.val).hotSince with
  | some h => .next (((s.elapse (h + 100000000 - s.clk.elapsed)).record (srcTower t.val 0x18) 40 lvPackage { detail := 2 }).packageFrom (srcTower t.val 0x18))
  | none => .next s

/-- THERMAL_TRIP (15 R494, R505, R506): a compute-die sensor reads at least 127 °C; the Tower's Spire clocks stop. -/
def execThermalTrip (t : Fin 4) (spot : Fin 8) (s : State) : Host.Outcome State Fault Refusal :=
  if 4 ≤ spot.val then .next s
  else
    let s1 := s.ageLife
    let s2 := (List.range 16).foldl (fun s i => s.modSpire (16 * t.val + i) fun x => { x with stopped := true }) s1
    let s3 := s2.record (srcTower t.val 0x18) 40 lvTower { detail := 1 }
    let s4 := if tget false s3.saf.towerQ t.val then s3 else s3.towerQuarantine t.val
    let s5 := s4.postHeat (srcTower t.val 0x18) 4 (8 * t.val + spot.val) []
    .next ({ s5 with heat := { s5.heat with life := { s5.heat.life with trips := s5.heat.life.trips + 1 } } }).postLife

/-! ### Spire supplies (15 R486, R487) -/

/-- The voltage requested for a Tower's clock step, in mV (15 R486). -/
def vReq (t n : Nat) : Nat := ceilDiv (min 800000 (max 550000 (Config.vFuse t n + 15000))) 1000

/-- AVS_VOLTAGE_CONFIRMED (15 R487): a readback within 5 mV of the request lets the Spires rise. -/
def execAvsVoltageConfirmed (t : Fin 4) (mv : Nat) (s : State) : Host.Outcome State Fault Refusal :=
  let x := s.tower t.val
  let v := vReq t.val x.reqStep
  if mv ≤ v + 5 ∧ v ≤ mv + 5 then .next ((s.modTower t.val fun x => { x with okStep := x.reqStep, lostReg := false }).wantTower t.val)
  else .next s

/-- AVS_CURRENT_READ (15 R487): the rail current of a Tower. -/
def execAvsCurrentRead (t : Fin 4) (ma : Nat) (s : State) : Host.Outcome State Fault Refusal :=
  .next (s.modTower t.val fun x => { x with ma := ma })

/-- REGULATOR_NO_ANSWER (15 R487): three commands in a row unanswered: VMON, and no step above what the last confirmed
voltage supports. -/
def execRegulatorNoAnswer (t : Fin 4) (s : State) : Host.Outcome State Fault Refusal :=
  let (level, s1) := s.openLevel
  let s2 := s1.record (srcTower t.val 0x18) 37 level { detail := 1 }
  .next ((s2.modTower t.val fun x => { x with lostReg := true }).wantTower t.val)

/-! ### Power throttling (15 R500) -/

/-- A partition is protected from progressive throttling (15 R500). -/
def State.protected_ (s : State) (p : Nat) : Bool := (s.part p).priv || s.heat.cool.protect.getLsbD p

/-- Insert a partition by ascending SHARE, then number. -/
def State.insertShare (s : State) (p : Nat) : List Nat → List Nat
  | [] => [p]
  | q :: t => if (s.part p).share < (s.part q).share ∨ ((s.part p).share = (s.part q).share ∧ p < q) then p :: q :: t
    else q :: s.insertShare p t

/-- Partitions by ascending SHARE, then number. -/
def State.byShare (s : State) (l : List Nat) : List Nat := l.foldl (fun o p => s.insertShare p o) []

/-- Throttle order (15 R500): unprotected partitions, then protected ones. -/
def State.throttleOrder (s : State) : List Nat :=
  s.byShare (s.users.filter fun p => !s.protected_ p) ++ s.byShare (s.users.filter fun p => s.protected_ p)

/-- Set a partition's power ceiling and post POWER_THROTTLE (15 R500, R506). -/
def State.setCeil (s : State) (p n : Nat) : State :=
  let s1 := (s.modPart p fun x => { x with ceil := n }).wantAll
  let (f, s2) := s1.mhz n
  s2.postHeat srcHub 1 (p * 2 ^ 16 + f) []

/-- One throttling action (15 R500). -/
def State.heatStep (s : State) : State :=
  let order := s.throttleOrder
  let low (prot : Bool) : Option Nat := order.find? fun p => decide (s.protected_ p = prot) && decide (4 < (s.part p).ceil)
  match low false with
  | some p => s.setCeil p ((s.part p).ceil - 1)
  | none =>
    match order.find? fun p => !s.protected_ p && decide ((s.part p).cls = 0) && !(s.part p).causes.getLsbD 1 with
    | some p => (s.suspend p 2#8).postHeat srcHub 0x0B p []
    | none =>
      match low true with
      | some p => s.setCeil p ((s.part p).ceil - 1)
      | none => s

/-- One reversal (15 R500): suspended partitions first, then ceilings, each in reverse throttle order. -/
def State.heatRelease (s : State) : State :=
  let order := s.throttleOrder.reverse
  match order.find? fun p => (s.part p).causes.getLsbD 1 with
  | some p => (s.modPart p fun x => { x with causes := x.causes &&& ~~~2#8 }).postHeat srcHub 0x0B (p + 2 ^ 8) []
  | none =>
    match order.find? fun p => decide ((s.part p).ceil < 16) with
    | some p => s.setCeil p ((s.part p).ceil + 1)
    | none => s

/-- The comparison of P_meas, in W, with P_allow at a sample (15 R500). -/
def State.balancePower (s : State) (p : Nat) : State :=
  let c := s.heat.cool
  if c.allow < p then ({ s with heat := { s.heat with cool := { c with lowSince := none } } }).heatStep
  else if p + 10 < c.allow then
    let since := c.lowSince.getD s.clk.elapsed
    let t : State := { s with heat := { s.heat with cool := { c with lowSince := some since } } }
    if since + 1000000000 ≤ s.clk.elapsed then t.heatRelease else t
  else { s with heat := { s.heat with cool := { c with lowSince := none } } }

/-! ### Survival (15 R502 to R504) -/

/-- Start a handover of what this member publishes and the partner can take (15 R503; 10 R370). -/
def State.surviveHandover (s : State) : State :=
  let mask : BitVec 16 := (List.range 16).foldl (fun m p =>
    if s.mirrored p && s.publishes p && (s.twp p).ready then m ||| BitVec.ofNat 16 (2 ^ p) else m) 0
  if !s.heat.cool.handover || decide (mask = 0) || s.tw.hand.isSome then s
  else
    let t := s.send (.command 0x82 0 (le 2 mask.toNat ++ le 6 0))
    { t with tw := { t.tw with hand := some (mask, false, t.sch.frame.no) } }

/-- Enter Survival (15 R503): every Spire at step 4, QM partitions SUSPENDED, COOLANT with the cause, the event, LIFE. -/
def State.survive (s : State) (cause : Nat) : State :=
  if s.heat.cool.survival.isSome ∨ s.heat.towersOff then s
  else
    let s1 := s.ageLife
    let s2 := { s1 with heat := { s1.heat with
      cool := { s1.heat.cool with survival := some (s1.clk.elapsed, cause), checked := false }
      life := { s1.heat.life with survivals := s1.heat.life.survivals + 1 } } }
    let s3 := (s2.users.filter fun p => decide ((s2.part p).cls = 0)).foldl (fun s p => s.suspend p 1#8) s2.wantAll
    let (level, s4) := s3.openLevel
    let s5 := (s4.record srcHub 41 level { detail := cause }).postHeat srcHub 7 cause []
    s5.postLife.surviveHandover

/-- End Survival (15 R504): every power ceiling at 4, the suspended partitions left to R500. -/
def State.surviveEnd (s : State) : State :=
  let s1 := { s with heat := { s.heat with cool := { s.heat.cool with survival := none, lowSince := none } } }
  let s2 := s1.users.foldl (fun s p => s.modPart p fun x => { x with
    ceil := 4
    causes := if x.causes.getLsbD 0 then (x.causes &&& ~~~1#8) ||| 2#8 else x.causes }) s1
  s2.wantAll.postHeat srcHub 8 0 []

/-- The accepted samples of the last `ns`. -/
def State.recent (s : State) (ns : Nat) : List (Nat × Option Nat) := s.heat.cool.flows.filter fun x => decide (s.clk.elapsed < x.1 + ns)

/-- A flow is below 0.2 Q_nom. -/
def lowFlow (nom q : Nat) : Bool := decide (5 * q < nom)

/-- A sample reports a flow below 0.2 Q_nom, or of at least 0.5 Q_nom; one without a valid FLOW reports neither (15 R497). -/
def saysLow (nom : Nat) (q : Option Nat) : Bool := q.any (lowFlow nom)
def saysGood (nom : Nat) (q : Option Nat) : Bool := q.any fun q => decide (nom ≤ 2 * q)

/-- Why flow is lost at an accepted sample, if it is (15 R502, R506). -/
def State.flowLost (s : State) : Option Nat :=
  let nom := s.heat.cool.qNom
  let half := s.recent 500000000
  match s.heat.cool.flows with
  | a :: b :: _ =>
    if saysLow nom a.2 && saysLow nom b.2 && half.any (fun x => saysGood nom x.2) then some 0
    else if half.all fun x => saysLow nom x.2 then some 1
    else if s.heat.cool.allow < 60 then some 3 else none
  | _ => if half.all fun x => saysLow nom x.2 then some 1 else if s.heat.cool.allow < 60 then some 3 else none

/-! ### The tray sensor hub (15 R496 to R499) -/

/-- A read is an accepted sample (15 R497). -/
def hubAccepted (last : Option Nat) (ok : Bool) (w : List Byte) : Bool :=
  let b (i : Nat) : Nat := (w.getD i 0).toNat
  ok && decide (w.length = 16) && decide (b 15 = crc8 7 0 (w.take 15)) && decide (b 0 = 1) && decide (b 2 < 8) && decide (b 3 = 0) &&
    (List.range 5).all (fun i => decide (b (10 + i) = 0)) && decide (last ≠ some (b 1))

/-- The allowed power in W (15 R499): T_IN in 1/64 °C, the flow ratio `a / b` from 0.2 to 1. -/
def allowedPower (tIn : Int) (a b : Nat) : Nat := min 390 (Int.toNat ((7168 - tIn) * (25 * a : Nat) / (64 * (2 * a + b) : Nat)))

/-- The allowed power at a flow (15 R498, R499); below 0.2 it is not evaluated. -/
def Coolant.evaluate (c : Coolant) (q : Nat) : Nat :=
  if lowFlow c.qNom q then c.allow
  else
    let q := min q c.qNom
    if c.capped ∧ c.qNom < 2 * q then allowedPower c.tIn 1 2 else allowedPower c.tIn q c.qNom

/-- The coolant state after an accepted sample: the policy accepted before takes effect (15 R507), T_IN falls back to the last
valid one for 1 s and to 85 °C after it (R497), the balance window and P_allow go on. -/
def Coolant.sample (c : Coolant) (w : List Byte) (now : Nat) : Coolant :=
  let u (i : Nat) : Nat := leNat ((w.drop i).take 2)
  let valid (i : Nat) : Bool := (w.getD 2 0).getLsbD i
  let c := { c with seqNo := some (w.getD 1 0).toNat, qNom := c.newNom, protect := c.newProtect }
  let tInAt := if valid 0 then some now else c.tInAt
  let held := match tInAt with
    | some t => decide (now < t + 1000000000)
    | none => false
  let c := { c with
    tIn := if valid 0 then toSigned 16 (u 4) else if held then c.tIn else 5440
    tInAt := tInAt
    tOut := if valid 1 then some (toSigned 16 (u 6)) else none }
  let c := { c with flows := (now, if valid 2 then some (u 8) else none) ::
    (c.flows.take 9 ++ (c.flows.drop 9).filter fun (x : Nat × Option Nat) => decide (now < x.1 + 1000000000)) }
  if valid 2 then
    let q := u 8
    let c := { c with
      flowAt := now
      winSum := c.winSum + q * (c.tOut.getD c.tIn - c.tIn)
      winN := c.winN + 1
      winOk := c.winOk && c.tOut.isSome && !lowFlow c.qNom q }
    { c with allow := c.evaluate q }
  else { c with winOk := false }

/-- HUB_SAMPLE_READ (15 R497, R499, R500, R502, R504): the 10 ms read of the hub; `pMeas` is P_meas averaged over the last
100 ms, in W. -/
def execHubSampleRead (ok : Bool) (words : List Byte) (pMeas : Nat) (s : State) : Host.Outcome State Fault Refusal :=
  let s1 := s.elapse (s.heat.cool.at_ - s.clk.elapsed)
  let s1 := { s1 with heat := { s1.heat with cool := { s1.heat.cool with at_ := s1.clk.elapsed + 10000000 } } }
  if !hubAccepted s1.heat.cool.seqNo ok words then .next s1
  else
    let c := s1.heat.cool.sample words s1.clk.elapsed
    let far := decide (c.allow + 10 ≤ c.told) || decide (c.told + 10 ≤ c.allow)
    let s2 := { s1 with heat := { s1.heat with cool := { c with told := if far then c.allow else c.told } } }
    let q := match c.flows with
      | x :: _ => x.2.getD 0
      | [] => 0
    let s3 := if far then s2.postHeat srcHub 5 (q % 2 ^ 16 * 2 ^ 16 + c.allow) [] else s2
    if s3.heat.cool.survival.isSome then
      if (s3.recent 1000000000).all (fun x => saysGood c.qNom x.2) then .next s3.surviveEnd else .next s3
    else
      match s3.flowLost with
      | some cause => .next (s3.survive cause)
      | none => .next (s3.balancePower pMeas)

/-- HUB_SILENT (15 R497, R502): no accepted sample with a valid FLOW for 50 ms. -/
def execHubSilent (s : State) : Host.Outcome State Fault Refusal :=
  .next ((s.elapse (s.heat.cool.flowAt + 50000000 - s.clk.elapsed)).survive 2)

/-- HEAT_BALANCE_WINDOW (15 R498): a 5 s window ends; `pMeas` is the mean P_meas in mW. A window in which flow or T_OUT
failed is not compared. -/
def execHeatBalanceWindow (pMeas : Nat) (s : State) : Host.Outcome State Fault Refusal :=
  let s := s.elapse (s.heat.cool.winAt - s.clk.elapsed)
  let c := s.heat.cool
  let fresh : Coolant := { c with winSum := 0, winN := 0, winOk := true, winAt := s.clk.elapsed + 5000000000 }
  if !c.winOk || decide (c.winN = 0) then .next { s with heat := { s.heat with cool := fresh } }
  else
    let den : Int := (384 * c.winN : Nat)
    let diff := c.winSum * 370 - pMeas * den
    let fails := decide ((pMeas * den + 80000 * den) < 4 * (diff.natAbs : Int))
    let failing := if fails then c.failing + 1 else 0
    let passing := if fails then 0 else c.passing + 1
    let trips := fails && decide (failing = 3)
    let c2 : Coolant := { fresh with
      failing := failing, passing := passing, capped := (c.capped || decide (3 ≤ failing)) && decide (passing < 3) }
    let s2 := { s with heat := { s.heat with cool := c2 } }
    if trips then
      let (level, s3) := s2.openLevel
      let pCool := Int.toNat (c.winSum * 370 / (den * 1000))
      .next ((s3.record srcHub 41 level { detail := 1 }).postHeat srcHub 6 (pCool % 2 ^ 16 * 2 ^ 16 + pMeas / 1000 % 2 ^ 16) [])
    else .next s2

/-- TOWERS_OFF (15 R504): 5 s after the decision Survival lasts and the last 10 samples are not all good: PACKAGE, and every
Tower is switched off; what it held is lost (R485) and every user partition is DEGRADED. -/
def execTowersOff (s : State) : Host.Outcome State Fault Refusal :=
  match s.heat.cool.survival with
  | some (at_, _) =>
    if s.heat.cool.checked || s.heat.towersOff then .next s
    else
      let s1 := s.elapse (at_ + 5000000000 - s.clk.elapsed)
      let last := s1.heat.cool.flows.take 10
      let s2 := { s1 with heat := { s1.heat with cool := { s1.heat.cool with checked := true } } }
      if last.length = 10 ∧ last.all (fun x => saysGood s1.heat.cool.qNom x.2) then .next s2
      else
        let s3 := (s2.postHeat srcHub 9 0 []).packageAll
        let off : Tab Bool := (List.range 164).foldl (fun t k =>
          if k < 144 ∨ 160 ≤ k then tput false t k true else t) s3.heat.domainOff
        let s4 := (List.range 64).foldl (fun s sp => s.modSpire sp fun x => { x with stopped := true }) s3
        let s5 := { s4 with
          heat := { s4.heat with towersOff := true, domainOff := off }
          mem := { s4.mem with bytes := s4.mem.bytes.filter fun c => decide (hostBase ≤ c.1), bad := [] } }
        .next (s5.users.foldl (fun s p => s.degrade p) s5)
  | none => .next s

/-! ### Power domains (15 R484, R485) -/

/-- The number of a domain: Spire logic from 0, Stores from 64, Domes from 128, banks from 144, base logic from 160, the
I/O dies' fixed ones from 164, Planning Engines from 172, CSI PHYs from 174. -/
def domainKey : PowerDomain → Nat
  | .spireLogic sp => sp.val
  | .spireStore sp => 64 + sp.val
  | .dome d => 128 + d.val
  | .sramBank b => 144 + b.val
  | .towerBase t => 160 + t.val
  | .ioDie side part => 164 + 4 * side.val + part.val
  | .planEngine e => 172 + e.val
  | .csiPhy side => 174 + side.val

/-- No partition's Spire set includes a Spire. -/
def State.inNoSet (s : State) (sp : Nat) : Bool := !s.users.any fun p => s.inSet p sp

/-- A Tower SRAM bank holds nothing that R241 names: no region, save area, page table or ring lies in it, and it is not the
bank of the reservation (06 R527). -/
def State.bankIdle (s : State) (b : Nat) : Bool :=
  let a := towerSramBase + b * 0x4000000
  let meets (x n : Nat) : Bool := decide (x < a + 0x4000000) && decide (a < x + n)
  decide (b % 4 ≠ 3) && s.users.all (fun p => (s.part p).regions.all fun r => !meets r.1 r.2) &&
    s.queues.all (fun (q : Nat × SpillQ) => !meets q.2.base (8 * q.2.size))

/-- A transmit port or receive slot of a side is bound (15 R484). -/
def State.csiBound (s : State) (side : Nat) : Bool :=
  s.cam.streams.any (fun (x : Nat × Stream) => decide (x.1 / 128 = side) && (x.2.bind.isSome || x.2.next.isSome)) ||
    s.cam.ports.any (fun (x : Nat × Display) => decide (x.1 / 2 = side) && (x.2.bind.isSome || x.2.next.isSome))

/-- A domain may be switched off (15 R484, R485). -/
def State.mayOff (s : State) (d : PowerDomain) : Bool :=
  match d with
  | .spireLogic sp => (s.inNoSet sp.val || (s.spire sp.val).quarantined) && (s.spire sp.val).job.isNone
  | .spireStore sp => tget false s.heat.domainOff sp.val && s.inNoSet sp.val
  | .dome d => (List.range 4).all (fun i => s.inNoSet (4 * d.val + i) && (s.spire (4 * d.val + i)).job.isNone) &&
      (s.gathers d.val).isEmpty && (tget {} s.sorters d.val).cur.isNone && (tget {} s.sorters d.val).queue.isEmpty &&
      (List.range 4).all fun c => ((tget {} s.mem.dma (4 * d.val + c) : Dma).running.isNone)
  | .sramBank b => s.bankIdle b.val
  | .planEngine e => !s.users.any (fun p => decide ((s.part p).role ≠ 0)) && (s.eng e.val).cur.isNone
  | .csiPhy side => !s.csiBound side.val && !s.claimed 3
  | _ => false

/-- What switching a domain off loses (15 R485). -/
def State.loseDomain (s : State) (d : PowerDomain) : State :=
  match d with
  | .spireStore sp => s.zero (spireStoreBase + sp.val * 0x400000) 0x400000
  | .dome d => s.zero (domeStoreBase + d.val * 0x1000000) 0x1000000
  | .sramBank b =>
    let t := s.zero (towerSramBase + b.val * 0x4000000) 0x4000000
    { t with mem := { t.mem with bankOff := tput false t.mem.bankOff b.val true } }
  | .planEngine e => s.modEng e.val fun y => { y with world := {} }
  | _ => s

/-- What switching a domain on restores: an engine's world from the other engine (15 R484; 05 R199); a bank accepts accesses
after BANK_POWER_UP (07 R241). -/
def State.gainDomain (s : State) (d : PowerDomain) : State :=
  match d with
  | .planEngine e => s.modEng e.val fun y => { y with world := (s.eng (1 - e.val)).world }
  | _ => s

/-- POWER_DOMAIN_SWITCH (15 R484, R485): firmware never switches a domain outside the conditions. -/
def execPowerDomainSwitch (dom : PowerDomain) (on : Bool) (s : State) : Host.Outcome State Fault Refusal :=
  let k := domainKey dom
  let off := tget false s.heat.domainOff k
  if on then
    if off && !s.heat.towersOff then
      .next ({ s with heat := { s.heat with domainOff := tput false s.heat.domainOff k false } }.gainDomain dom)
    else .next s
  else if !off && s.mayOff dom then
    .next ({ s with heat := { s.heat with domainOff := tput false s.heat.domainOff k true } }.loseDomain dom)
  else .next s

/-! ### THERMAL_POLICY (13 R460; 15 R507) -/

/-- THERMAL_POLICY. -/
def thermalPolicyBody (c : Ctx) (s : State) : LmpRes :=
  checked s [(decide (c.u16 0 % 2 = 0), 0), (decide (1000 ≤ c.u16 2) && decide (c.u16 2 ≤ 4000), 2), (decide (c.u8 4 ≤ 1), 4),
      (decide (c.fld 5 3 = 0), 5)] [] fun _ =>
    .done stOk 0 (le 2 s.heat.cool.allow ++ le 1 (if s.heat.cool.survival.isSome then 1 else 0) ++ le 5 0)
      { s with heat := { s.heat with cool := { s.heat.cool with
        newProtect := BitVec.ofNat 16 (c.u16 0), newNom := c.u16 2, handover := decide (c.u8 4 = 1) } } }

/-- THERMAL_POLICY. -/
def execThermalPolicy (m : Fin 64) (s : State) : Host.Outcome State Fault Refusal :=
  .next (s.lmp m.val (isOp 0xE0) thermalPolicyBody)

end Sys2Proof.Machine
end

