-- ==== Sys2Proof/Machine/Dispatch.lean ====
section
/-! DEFINITION. The meaning of a command: one direct call per constructor. -/

namespace Sys2Proof.Machine

/-- The effect of a command on everything but the queue. -/
def exec (i : Instr) (s : State) : Host.Outcome State Fault Refusal :=
  match i with
  | .hello m => Sys2Proof.Machine.execHello m s
  | .capsGet m => Sys2Proof.Machine.execCapsGet m s
  | .mbxAssign m => Sys2Proof.Machine.execMbxAssign m s
  | .partitionCreate m => Sys2Proof.Machine.execPartitionCreate m s
  | .partitionDestroy m => Sys2Proof.Machine.execPartitionDestroy m s
  | .partitionReset m => Sys2Proof.Machine.execPartitionReset m s
  | .partitionSetShare m => Sys2Proof.Machine.execPartitionSetShare m s
  | .imageLoad m img => Sys2Proof.Machine.execImageLoad m img s
  | .imageUnload m => Sys2Proof.Machine.execImageUnload m s
  | .launch m => Sys2Proof.Machine.execLaunch m s
  | .launchAt m => Sys2Proof.Machine.execLaunchAt m s
  | .taskAbort m => Sys2Proof.Machine.execTaskAbort m s
  | .seqOpen m => Sys2Proof.Machine.execSeqOpen m s
  | .seqClose m => Sys2Proof.Machine.execSeqClose m s
  | .seqFork m => Sys2Proof.Machine.execSeqFork m s
  | .pageTableEdit m => Sys2Proof.Machine.execPageTableEdit m s
  | .seqSwapPolicy m => Sys2Proof.Machine.execSeqSwapPolicy m s
  | .seqSwapWatermarks m => Sys2Proof.Machine.execSeqSwapWatermarks m s
  | .streamBind m nonce => Sys2Proof.Machine.execStreamBind m nonce s
  | .streamUnbind m => Sys2Proof.Machine.execStreamUnbind m s
  | .displayBind m => Sys2Proof.Machine.execDisplayBind m s
  | .worldUpdate m => Sys2Proof.Machine.execWorldUpdate m s
  | .planRequest m => Sys2Proof.Machine.execPlanRequest m s
  | .planCancel m => Sys2Proof.Machine.execPlanCancel m s
  | .detMode m => Sys2Proof.Machine.execDetMode m s
  | .majorFrameUs m => Sys2Proof.Machine.execMajorFrameUs m s
  | .rhT1 m => Sys2Proof.Machine.execRhT1 m s
  | .rhT2 m => Sys2Proof.Machine.execRhT2 m s
  | .dual m => Sys2Proof.Machine.execDual m s
  | .selftestRotation m => Sys2Proof.Machine.execSelftestRotation m s
  | .towerReset m => Sys2Proof.Machine.execTowerReset m s
  | .warmReset m => Sys2Proof.Machine.execWarmReset m s
  | .errorsRead src => Sys2Proof.Machine.execErrorsRead src s
  | .errorsClear src => Sys2Proof.Machine.execErrorsClear src s
  | .selftestStatus src => Sys2Proof.Machine.execSelftestStatus src s
  | .twinPair m nonce => Sys2Proof.Machine.execTwinPair m nonce s
  | .twinRole m diff det => Sys2Proof.Machine.execTwinRole m diff det s
  | .standDown m => Sys2Proof.Machine.execStandDown m s
  | .twinHandover m => Sys2Proof.Machine.execTwinHandover m s
  | .configRootGet src => Sys2Proof.Machine.execConfigRootGet src s
  | .attest src => Sys2Proof.Machine.execAttest src s
  | .lifecycleAdvance m => Sys2Proof.Machine.execLifecycleAdvance m s
  | .timeSyncStep m => Sys2Proof.Machine.execTimeSyncStep m s
  | .timeSyncSlew m => Sys2Proof.Machine.execTimeSyncSlew m s
  | .syncSet m => Sys2Proof.Machine.execSyncSet m s
  | .resourceClaim m => Sys2Proof.Machine.execResourceClaim m s
  | .resourceRelease m => Sys2Proof.Machine.execResourceRelease m s
  | .accountingRead m => Sys2Proof.Machine.execAccountingRead m s
  | .thermalPolicy m => Sys2Proof.Machine.execThermalPolicy m s
  | .fwStage m ok => Sys2Proof.Machine.execFwStage m ok s
  | .fwActivate m => Sys2Proof.Machine.execFwActivate m s
  | .mbxStateFilling m ep => Sys2Proof.Machine.execMbxStateFilling m ep s
  | .mbxStateFree m ep => Sys2Proof.Machine.execMbxStateFree m ep s
  | .mbxGo m ep => Sys2Proof.Machine.execMbxGo m ep s
  | .registerWrite tgt v => Sys2Proof.Machine.execRegisterWrite tgt v s
  | .sqPush q payload poison => Sys2Proof.Machine.execSqPush q payload poison s
  | .sqStalledPushAccept q => Sys2Proof.Machine.execSqStalledPushAccept q s
  | .sqPop q wide flip => Sys2Proof.Machine.execSqPop q wide flip s
  | .sqRefillDone q poison => Sys2Proof.Machine.execSqRefillDone q poison s
  | .sqSpill q toHead ending => Sys2Proof.Machine.execSqSpill q toHead ending s
  | .sqDroppedRead q => Sys2Proof.Machine.execSqDroppedRead q s
  | .sqCtrlWrite q v => Sys2Proof.Machine.execSqCtrlWrite q v s
  | .sqConfigWrite q isSize v => Sys2Proof.Machine.execSqConfigWrite q isSize v s
  | .evqIrqWrite ep v => Sys2Proof.Machine.execEvqIrqWrite ep v s
  | .evqHoldoffExpiry => Sys2Proof.Machine.execEvqHoldoffExpiry s
  | .winCtrlWrite ep w v => Sys2Proof.Machine.execWinCtrlWrite ep w v s
  | .bar2Access ep off acc conds => Sys2Proof.Machine.execBar2Access ep off acc conds s
  | .pcieLinkDown ep => Sys2Proof.Machine.execPcieLinkDown ep s
  | .pcieLinkUp ep => Sys2Proof.Machine.execPcieLinkUp ep s
  | .perst ep low => Sys2Proof.Machine.execPerst ep low s
  | .functionLevelReset ep => Sys2Proof.Machine.execFunctionLevelReset ep s
  | .hostReadCompletion ep req da st data => Sys2Proof.Machine.execHostReadCompletion ep req da st data s
  | .hostReadTimeout ep req da => Sys2Proof.Machine.execHostReadTimeout ep req da s
  | .ctcLowRead ep => Sys2Proof.Machine.execCtcLowRead ep s
  | .syncInEdge dt => Sys2Proof.Machine.execSyncInEdge dt s
  | .syncMissed => Sys2Proof.Machine.execSyncMissed s
  | .holdover => Sys2Proof.Machine.execHoldover s
  | .twinTimeExchange offsetPs missing => Sys2Proof.Machine.execTwinTimeExchange offsetPs missing s
  | .twinValidLoss => Sys2Proof.Machine.execTwinValidLoss s
  | .launchAtStart job => Sys2Proof.Machine.execLaunchAtStart job s
  | .majorFrameStart => Sys2Proof.Machine.execMajorFrameStart s
  | .windowStart p => Sys2Proof.Machine.execWindowStart p s
  | .slackStart => Sys2Proof.Machine.execSlackStart s
  | .reclaimLead p => Sys2Proof.Machine.execReclaimLead p s
  | .goldenTileSlot p => Sys2Proof.Machine.execGoldenTileSlot p s
  | .goldenTileSignature sp sig => Sys2Proof.Machine.execGoldenTileSignature sp sig s
  | .goldenTileSlotEnd p => Sys2Proof.Machine.execGoldenTileSlotEnd p s
  | .budgetExhausted sp => Sys2Proof.Machine.execBudgetExhausted sp s
  | .taskReady job idx => Sys2Proof.Machine.execTaskReady job idx s
  | .taskDispatch sp => Sys2Proof.Machine.execTaskDispatch sp s
  | .yieldPoint sp y ctx w dt => Sys2Proof.Machine.execYieldPoint sp y ctx w dt s
  | .saveDone sp dt => Sys2Proof.Machine.execSaveDone sp dt s
  | .yieldWaitTimeout sp => Sys2Proof.Machine.execYieldWaitTimeout sp s
  | .taskEnd sp dt => Sys2Proof.Machine.execTaskEnd sp dt s
  | .taskOverrun sp => Sys2Proof.Machine.execTaskOverrun sp s
  | .overrunAbort sp => Sys2Proof.Machine.execOverrunAbort sp s
  | .tileComplete sp op faults dt => Sys2Proof.Machine.execTileComplete sp op faults dt s
  | .tileRetryDone sp faults dt => Sys2Proof.Machine.execTileRetryDone sp faults dt s
  | .taskFailover sp => Sys2Proof.Machine.execTaskFailover sp s
  | .spireFllRelock sp => Sys2Proof.Machine.execSpireFllRelock sp s
  | .rowTokenAdvance dome t b1 => Sys2Proof.Machine.execRowTokenAdvance dome t b1 s
  | .tokenShadowUpdate dome src t v => Sys2Proof.Machine.execTokenShadowUpdate dome src t v s
  | .tokenWaitDone sp => Sys2Proof.Machine.execTokenWaitDone sp s
  | .ringReadTokenAdvance dome t lo hi => Sys2Proof.Machine.execRingReadTokenAdvance dome t lo hi s
  | .sortRequest sp da => Sys2Proof.Machine.execSortRequest sp da s
  | .sortStart dome => Sys2Proof.Machine.execSortStart dome s
  | .sortDone dome mismatch => Sys2Proof.Machine.execSortDone dome mismatch s
  | .sortRepeatDone dome mismatch => Sys2Proof.Machine.execSortRepeatDone dome mismatch s
  | .gatherRequest sp desc wf tensor => Sys2Proof.Machine.execGatherRequest sp desc wf tensor s
  | .gatherTileWritten dome mismatch => Sys2Proof.Machine.execGatherTileWritten dome mismatch s
  | .gatherTileRelease sp => Sys2Proof.Machine.execGatherTileRelease sp s
  | .appendWrite sp handle layer pos data => Sys2Proof.Machine.execAppendWrite sp handle layer pos data s
  | .appendCounterAdvance slot pos => Sys2Proof.Machine.execAppendCounterAdvance slot pos s
  | .pageWalkDone dome slot vpn parity => Sys2Proof.Machine.execPageWalkDone dome slot vpn parity s
  | .tlbInvalidationAck unit slot => Sys2Proof.Machine.execTlbInvalidationAck unit slot s
  | .stepBuild p image phase => Sys2Proof.Machine.execStepBuild p image phase s
  | .copyOnWriteDone slot => Sys2Proof.Machine.execCopyOnWriteDone slot s
  | .stepComplete job => Sys2Proof.Machine.execStepComplete job s
  | .swapOutCopyDone slot => Sys2Proof.Machine.execSwapOutCopyDone slot s
  | .swapInCopyDone slot => Sys2Proof.Machine.execSwapInCopyDone slot s
  | .planSearchStart v => Sys2Proof.Machine.execPlanSearchStart v s
  | .proposerBatchSend e => Sys2Proof.Machine.execProposerBatchSend e s
  | .proposerComplete e fault => Sys2Proof.Machine.execProposerComplete e fault s
  | .candidateCheckDone e otherDiffers => Sys2Proof.Machine.execCandidateCheckDone e otherDiffers s
  | .planDeadline e => Sys2Proof.Machine.execPlanDeadline e s
  | .pathRecheckDone v => Sys2Proof.Machine.execPathRecheckDone v s
  | .publishRound v => Sys2Proof.Machine.execPublishRound v s
  | .publishLocked v => Sys2Proof.Machine.execPublishLocked v s
  | .resultPublished e => Sys2Proof.Machine.execResultPublished e s
  | .worldUpdateApply e => Sys2Proof.Machine.execWorldUpdateApply e s
  | .memoryRead req da n conds => Sys2Proof.Machine.execMemoryRead req da n conds s
  | .memoryWrite req da data conds => Sys2Proof.Machine.execMemoryWrite req da data conds s
  | .sramScrub bank conds => Sys2Proof.Machine.execSramScrub bank conds s
  | .bankPowerUp bank => Sys2Proof.Machine.execBankPowerUp bank s
  | .dmaDescriptor dome ch words sp => Sys2Proof.Machine.execDmaDescriptor dome ch words sp s
  | .dmaComplete dome ch => Sys2Proof.Machine.execDmaComplete dome ch s
  | .dramRequestIssue ch cond link => Sys2Proof.Machine.execDramRequestIssue ch cond link s
  | .refreshInterval ch => Sys2Proof.Machine.execRefreshInterval ch s
  | .forcedRefab ch => Sys2Proof.Machine.execForcedRefab ch s
  | .mr4Read ch rate => Sys2Proof.Machine.execMr4Read ch rate s
  | .linkEccCountRead ch n => Sys2Proof.Machine.execLinkEccCountRead ch n s
  | .rhWindowStart => Sys2Proof.Machine.execRhWindowStart s
  | .creditRefill => Sys2Proof.Machine.execCreditRefill s
  | .dramPatrolScrub ch cond => Sys2Proof.Machine.execDramPatrolScrub ch cond s
  | .detReduction src out n => Sys2Proof.Machine.execDetReduction src out n s
  | .arrivalOrderAdd sp da v => Sys2Proof.Machine.execArrivalOrderAdd sp da v s
  | .atomicOp req op da v => Sys2Proof.Machine.execAtomicOp req op da v s
  | .supplyExcursion rail => Sys2Proof.Machine.execSupplyExcursion rail s
  | .clockMonitorWindow isl count => Sys2Proof.Machine.execClockMonitorWindow isl count s
  | .towerMonitorHeartbeat t l ok => Sys2Proof.Machine.execTowerMonitorHeartbeat t l ok s
  | .cupolaHeartbeat side l ok => Sys2Proof.Machine.execCupolaHeartbeat side l ok s
  | .hbLost src l => Sys2Proof.Machine.execHbLost src l s
  | .crossWatchSend l => Sys2Proof.Machine.execCrossWatchSend l s
  | .crossWatchFrame l ok level => Sys2Proof.Machine.execCrossWatchFrame l ok level s
  | .peerSilent l => Sys2Proof.Machine.execPeerSilent l s
  | .lanternDecision l rep => Sys2Proof.Machine.execLanternDecision l rep s
  | .lockstepMismatch unit cfgParity => Sys2Proof.Machine.execLockstepMismatch unit cfgParity s
  | .cupolaTakeover => Sys2Proof.Machine.execCupolaTakeover s
  | .dualSignature job shadow sigs => Sys2Proof.Machine.execDualSignature job shadow sigs s
  | .dualArbitration p bad => Sys2Proof.Machine.execDualArbitration p bad s
  | .selftestSlot fails => Sys2Proof.Machine.execSelftestSlot fails s
  | .configAudit l leafOk rootOk => Sys2Proof.Machine.execConfigAudit l leafOk rootOk s
  | .twinRootCompare port frame roots diff => Sys2Proof.Machine.execTwinRootCompare port frame roots diff s
  | .towerLinkCrcRetry e => Sys2Proof.Machine.execTowerLinkCrcRetry e s
  | .laneFailure e mdl repaired => Sys2Proof.Machine.execLaneFailure e mdl repaired s
  | .twinFlitReceive port f => Sys2Proof.Machine.execTwinFlitReceive port f s
  | .twinIdleFlit port => Sys2Proof.Machine.execTwinIdleFlit port s
  | .twinPortDown port split => Sys2Proof.Machine.execTwinPortDown port split s
  | .pairingAuth nonce sig vmin vmax => Sys2Proof.Machine.execPairingAuth nonce sig vmin vmax s
  | .twinPairTimeout => Sys2Proof.Machine.execTwinPairTimeout s
  | .launchLogAck p step => Sys2Proof.Machine.execLaunchLogAck p step s
  | .launchLogTimeout p => Sys2Proof.Machine.execLaunchLogTimeout p s
  | .sharedConfigApply imgs => Sys2Proof.Machine.execSharedConfigApply imgs s
  | .mirrorAck p cut => Sys2Proof.Machine.execMirrorAck p cut s
  | .publishedMark p step => Sys2Proof.Machine.execPublishedMark p step s
  | .takeover mask => Sys2Proof.Machine.execTakeover mask s
  | .takeoverRerunDone job => Sys2Proof.Machine.execTakeoverRerunDone job s
  | .twinLaunchAtForward m p step payload late => Sys2Proof.Machine.execTwinLaunchAtForward m p step payload late s
  | .twinLaunchAtTimeout m => Sys2Proof.Machine.execTwinLaunchAtTimeout m s
  | .dualCompareSignatures job sigs => Sys2Proof.Machine.execDualCompareSignatures job sigs s
  | .csiFrameStart port vc n => Sys2Proof.Machine.execCsiFrameStart port vc n s
  | .csiPacket port vc pkt nonce => Sys2Proof.Machine.execCsiPacket port vc pkt nonce s
  | .responseVerified port vc => Sys2Proof.Machine.execResponseVerified port vc s
  | .reauthChallenge port vc nonce => Sys2Proof.Machine.execReauthChallenge port vc nonce s
  | .challengeNonceReceive port vc nonce => Sys2Proof.Machine.execChallengeNonceReceive port vc nonce s
  | .csiFrameEnd port vc => Sys2Proof.Machine.execCsiFrameEnd port vc s
  | .streamSilent port vc => Sys2Proof.Machine.execStreamSilent port vc s
  | .displayFrameStart port => Sys2Proof.Machine.execDisplayFrameStart port s
  | .displayLineSend port late => Sys2Proof.Machine.execDisplayLineSend port late s
  | .layerDisabled port layer => Sys2Proof.Machine.execLayerDisabled port layer s
  | .loopbackTestDone fails => Sys2Proof.Machine.execLoopbackTestDone fails s
  | .i3cHandoffAccepted ok => Sys2Proof.Machine.execI3cHandoffAccepted ok s
  | .camSbBulkExpiry => Sys2Proof.Machine.execCamSbBulkExpiry s
  | .i3cRoleReturn nonces => Sys2Proof.Machine.execI3cRoleReturn nonces s
  | .i3cRoleRequestRetry => Sys2Proof.Machine.execI3cRoleRequestRetry s
  | .i3cPrivateWrite l recovery data => Sys2Proof.Machine.execI3cPrivateWrite l recovery data s
  | .i3cPrivateRead l recovery n => Sys2Proof.Machine.execI3cPrivateRead l recovery n s
  | .i3cCcc l code => Sys2Proof.Machine.execI3cCcc l code s
  | .rcvData l b => Sys2Proof.Machine.execRcvData l b s
  | .rcvGo l => Sys2Proof.Machine.execRcvGo l s
  | .recoveryVerifyDone => Sys2Proof.Machine.execRecoveryVerifyDone s
  | .powerOn => Sys2Proof.Machine.execPowerOn s
  | .powerLoss => Sys2Proof.Machine.execPowerLoss s
  | .resetInNPulse ns => Sys2Proof.Machine.execResetInNPulse ns s
  | .delayedWarmReset => Sys2Proof.Machine.execDelayedWarmReset s
  | .pkgIdentCheck words hears => Sys2Proof.Machine.execPkgIdentCheck words hears s
  | .towerResetDone t words hears fails => Sys2Proof.Machine.execTowerResetDone t words hears fails s
  | .dramWipeDone => Sys2Proof.Machine.execDramWipeDone s
  | .bootGo ep => Sys2Proof.Machine.execBootGo ep s
  | .imageFetchDone ok => Sys2Proof.Machine.execImageFetchDone ok s
  | .noImage => Sys2Proof.Machine.execNoImage s
  | .fetchTimeout => Sys2Proof.Machine.execFetchTimeout s
  | .lanternSectionCheck l ok => Sys2Proof.Machine.execLanternSectionCheck l ok s
  | .unitInitDone fails => Sys2Proof.Machine.execUnitInitDone fails s
  | .lmpReady => Sys2Proof.Machine.execLmpReady s
  | .entropyHealthFail side => Sys2Proof.Machine.execEntropyHealthFail side s
  | .sensorRead spot a b => Sys2Proof.Machine.execSensorRead spot a b s
  | .sensorFaultPersist spot => Sys2Proof.Machine.execSensorFaultPersist spot s
  | .thermalCeilingUpdate t => Sys2Proof.Machine.execThermalCeilingUpdate t s
  | .baseDieOverheat t => Sys2Proof.Machine.execBaseDieOverheat t s
  | .thermalTrip t spot => Sys2Proof.Machine.execThermalTrip t spot s
  | .avsVoltageConfirmed t mv => Sys2Proof.Machine.execAvsVoltageConfirmed t mv s
  | .avsCurrentRead t ma => Sys2Proof.Machine.execAvsCurrentRead t ma s
  | .regulatorNoAnswer t => Sys2Proof.Machine.execRegulatorNoAnswer t s
  | .hubSampleRead ok words pmeas => Sys2Proof.Machine.execHubSampleRead ok words pmeas s
  | .hubSilent => Sys2Proof.Machine.execHubSilent s
  | .heatBalanceWindow pMeas => Sys2Proof.Machine.execHeatBalanceWindow pMeas s
  | .towersOff => Sys2Proof.Machine.execTowersOff s
  | .life => Sys2Proof.Machine.execLife s
  | .powerDomainSwitch dom on => Sys2Proof.Machine.execPowerDomainSwitch dom on s
  | .partitionZeroingDone p => Sys2Proof.Machine.execPartitionZeroingDone p s
  | .lantHbToggle l => Sys2Proof.Machine.execLantHbToggle l s
  | .frameMarkEnd => Sys2Proof.Machine.execFrameMarkEnd s
  | .referenceClockLoss => Sys2Proof.Machine.execReferenceClockLoss s
  | .d3hot ep on => Sys2Proof.Machine.execD3hot ep on s
  | .hotJoin side => Sys2Proof.Machine.execHotJoin side s
  | .testWindow unit opens => Sys2Proof.Machine.execTestWindow unit opens s

end Sys2Proof.Machine
end

