-- ==== Sys2Proof/Machine/Package.lean ====
section
/-! DEFINITION. The package as its pins show it (16 R510 to R513): the function of every ball, and the operating range of every
rail. Tables only: no command changes them.
-/

namespace Sys2Proof.Machine

/-- A rail of 16 R513, with the Tower of a VDD_SPIRE rail and the Lantern (false A, true B) of a VDD_LANT rail. -/
inductive Supply where
  | spire (t : Fin 4) | base | io | phy085 | phy12 | lant (b : Bool) | gpio | vdd1 | vdd2h | vdd2l | vddq
  deriving DecidableEq, Repr

/-- The signals of 16 R511. `ep`, `side` and `port` are numbered as the package numbers them; `n` is true on the N ball of a pair;
lane 0 of a camera or display port is CLK, lane 1 + i is D i. -/
inductive Signal where
  | csiRx (port lane : Nat) (n : Bool)
  | csiTx (port lane : Nat) (n : Bool)
  | pcieTx (ep lane : Nat) (n : Bool)
  | pcieRx (ep lane : Nat) (n : Bool)
  | refclk (ep : Nat) (n : Bool)
  | xtal (side : Nat) (out : Bool)
  | twinTx (port lane : Nat) (n : Bool)
  | twinRx (port lane : Nat) (n : Bool)
  | i3cTgt (side : Nat) (sda : Bool)
  | i3cCtl (side : Nat) (sda : Bool)
  | faultN (side : Nat)
  | lantHb (side : Nat)
  | perstN (ep : Nat)
  | avsClk (tower : Nat) | avsMdata (tower : Nat) | avsSdata (tower : Nat)
  | resetInN
  | syncInGpio3
  deriving DecidableEq, Repr

/-- What a ball is for (16 R510): a supply, ground, a signal, or a ball left unconnected (R512). -/
inductive Ball where
  | vss
  | rail (r : Supply)
  | signal (x : Signal)
  | rsvd
  deriving DecidableEq, Repr

/-- The ball in column `c` (1 to 10, as the West field has it) of odd row 19 + 2 k of a signal field; `s` is 0 West, 1 East
(16 R511). -/
def fieldBall (s k c : Nat) : Ball :=
  let j := (c - 1) / 2
  let n := decide (c % 2 = 0)
  let near := if s = 0 then 0 else 1
  let far := if s = 0 then 3 else 2
  if k ≤ 7 then .signal (.csiRx (8 * s + k) j n)
  else if k ≤ 9 then .signal (.csiTx (2 * s + k - 8) j n)
  else if k = 10 then .signal (.pcieTx s j n)
  else if k = 11 then
    if j ≤ 2 then .signal (.pcieTx s (5 + j) n)
    else if j = 3 then .signal (.refclk s n)
    else .signal (.xtal s n)
  else if k = 12 then .signal (.pcieRx s j n)
  else if k = 13 then if j ≤ 2 then .signal (.pcieRx s (5 + j) n) else .rsvd
  else if k = 14 then if j ≤ 3 then .signal (.twinTx s j n) else .rsvd
  else if k = 15 then if j ≤ 3 then .signal (.twinRx s j n) else .rsvd
  else if k = 16 then
    if c ≤ 2 then .signal (.i3cTgt s n)
    else if c ≤ 4 then .signal (.i3cCtl s n)
    else if c = 5 then .signal (.faultN s)
    else if c = 6 then .signal (.lantHb s)
    else if c = 7 then .signal (.perstN s)
    else .rsvd
  else if k = 17 then
    if c = 1 then .signal (.avsClk near)
    else if c = 2 then .signal (.avsMdata near)
    else if c = 3 then .signal (.avsSdata near)
    else if c = 4 then .signal (.avsClk far)
    else if c = 5 then .signal (.avsMdata far)
    else if c = 6 then .signal (.avsSdata far)
    else .rsvd
  else if s = 0 ∧ c = 1 then .signal .resetInN
  else if s = 0 ∧ c = 2 then .signal .syncInGpio3
  else .rsvd

/-- The function of ball (c, r), each 1 to 73: the first row of 16 R510 that contains it. -/
def ballFunction (c r : Nat) : Ball :=
  let cols := decide (c ≤ 10) || decide (64 ≤ c)
  let rows := decide (19 ≤ r) && decide (r ≤ 55)
  let west := decide (c < 37)
  let wc := if west then c else 74 - c
  let band := decide (r ≤ 6) || decide (68 ≤ r)
    || ((decide (c ≤ 6) || decide (68 ≤ c)) && ((decide (7 ≤ r) && decide (r ≤ 18)) || (decide (56 ≤ r) && decide (r ≤ 67))))
  if cols && rows then
    if r % 2 = 0 then .vss else fieldBall (if west then 0 else 1) ((r - 19) / 2) wc
  else if (c + r) % 2 = 0 then .vss
  else if band then
    let d := min (min c r) (min (74 - c) (74 - r))
    .rail (if d ≤ 2 then .vdd2h else if d ≤ 4 then .vddq else if d = 5 then .vdd2l else .vdd1)
  else if rows && decide (wc ≤ 18) then
    if wc ≤ 12 then .rail (if r ≤ 37 then .phy085 else .phy12)
    else if r ≤ 22 then .rail (.lant (!west))
    else if r ≤ 26 then .rail .gpio
    else .rail .io
  else
    let m := min (max c 37 - min c 37) (max r 37 - min r 37)
    if m ≤ 6 then .rail .base
    else .rail (.spire (if c < 37 then if r < 37 then 0 else 3 else if r < 37 then 1 else 2))

/-- Operating range of a rail in units of 0.1 mV (16 R513), `req` the voltage requested for a VDD_SPIRE rail in mV. -/
def Supply.range (req : Nat) : Supply → Nat × Nat
  | .spire _ => (max (10 * (req - 20)) 5300, min (10 * (req + 20)) 8200)
  | .base => (7275, 7725)
  | .io => (7275, 7725)
  | .phy085 => (8245, 8755)
  | .phy12 => (11400, 12600)
  | .lant _ => (7760, 8240)
  | .gpio => (17100, 18900)
  | .vdd1 => (17000, 19500)
  | .vdd2h => (10100, 11200)
  | .vdd2l => (8700, 9700)
  | .vddq => (4700, 5700)

/-- A sample of `v` in 0.1 mV is outside the rail's range: a supply-monitor event (09 R310, 16 R515). -/
def Supply.outside (req v : Nat) (r : Supply) : Bool :=
  decide (v < (r.range req).1) || decide ((r.range req).2 < v)

end Sys2Proof.Machine
end

