-- ==== Sys2Proof/Safety.lean ====
section
/-! DEFINITION. What counts as a safe run: the block goes on, and the tables of the State whose reading back the statements rest
on keep their canonical form. -/

namespace Sys2Proof.Machine

/-- The step answers a next state. -/
def completes (s : State) : Prop := ∃ t, step s = .next t

/-- Memory, the Spill Queues and the row tokens are in canonical form: keys strictly rising, no entry equal to what an unlisted one
reads as. -/
structure Canonical (s : State) : Prop where
  mem : Memory.wf s.mem.bytes
  queues : tabWf ({} : SpillQ) s.queues
  tokens : tabWf 0 s.sch.tokens
  shadows : tabWf 0 s.sch.shadows
  reads : tabWf 0 s.sch.reads

end Sys2Proof.Machine
end

