-- ==== Sys2Proof/WellFormed.lean ====
section
/-! DEFINITION. Which commands are well formed: operands that their type does not bound lie in the ranges the rules of their row
give. What a payload holds is in the State and is checked by the command itself (13 R435). -/

namespace Sys2Proof

/-- A register an access reaches: BAR0 is 16 MiB, BAR4 64 KiB (12 R406), a register is 8 bytes wide (R409), a queue's block 0x40
bytes (07 R272). -/
def RegTarget.wf : RegTarget → Bool
  | .bar0 _ off wide => decide (off < 2 ^ 24) && decide (off % (if wide then 8 else 4) = 0)
  | .bar4 _ off => decide (off < 2 ^ 16) && decide (off % 8 = 0)
  | .sq _ off => decide (off < 0x40) && decide (off % 8 = 0)
  | .seqEntry _ _ => true
  | .other da => decide (da < 2 ^ 52) && decide (da % 8 = 0)

/-- A transfer of PCIe: up to 4,096 bytes read, up to 512 written (12 R406). -/
def Access.wf : Access → Bool
  | .read n => decide (1 ≤ n) && decide (n ≤ 4096)
  | .write d => !d.isEmpty && decide (d.length ≤ 512)
  | .poisoned => true

/-- A completion that carries data (01 R523). -/
def ReadStatus.hasData : ReadStatus → Bool
  | .ok => true
  | .poisoned => true
  | .unsupported => false
  | .aborted => false

/-- Counters and tokens are 16 bits wide (03 R96, 06 R216). -/
def WaitRef.wf : WaitRef → Bool
  | .task _ => true
  | .ctr _ _ n => decide (n < 2 ^ 16)
  | .token _ _ n => decide (n < 2 ^ 16)
  | .read _ _ n => decide (n < 2 ^ 16)
  | .band b => decide (b.win.length = 4) && decide (b.b0 < b.b1) && decide (b.b1 < 2 ^ 16) && decide (b.r0 < b.r1) && decide (b.r1 < 2 ^ 16)
  | .append _ _ => true

/-- A tile has rows, columns and positions (02 R57, 03 R84). -/
def TileOp.wf : TileOp → Bool
  | .mat t => decide (1 ≤ t.m) && decide (1 ≤ t.n) && decide (1 ≤ t.k)
  | .win t => decide (t.inDesc.length = t.outDesc.length) && decide (1 ≤ t.npos) && decide (1 ≤ t.noc)
  | .vec _ => true
  | .compare _ _ n _ _ _ => decide (1 ≤ n)
  | .signature r _ => !r.isEmpty

/-- The live ranges of a yield point: 1 to 64 of 64 to 1,048,576 bytes in the Spire Store, at most 1 MiB in all (06 R220, R222). -/
def liveOk (rs : List (Nat × Nat)) : Bool :=
  decide (1 ≤ rs.length) && decide (rs.length ≤ 64) && decide ((rs.map (·.2)).sum ≤ 16384) &&
    rs.all fun r => decide (1 ≤ r.2) && decide (r.1 + r.2 ≤ 65536)

/-- A WCET of 1 to 16,777,215 µs (06 R224), yield points within R220's bounds, tokens that start at or before their end (03 R97). -/
def TaskDecl.wf (t : TaskDecl) : Bool :=
  decide (1 ≤ t.wcetUs) && decide (t.wcetUs ≤ 16777215) && t.yields.all liveOk && t.waits.all WaitRef.wf &&
    t.tokens.all fun x => decide (x.2.2.1 ≤ x.2.2.2) && decide (x.2.2.2 < 2 ^ 16)

/-- Tasks of an image that advance a token. -/
def ImageFacts.producers (f : ImageFacts) (tok : Fin 16 × Fin 64) : Nat :=
  (f.tasks.filter fun t => t.tokens.any fun x => decide ((x.1, x.2.1) = tok)).length

/-- Every row ring joins one producer stripe to one consumer stripe: one task advances its token, and the task that declares the ring
alone advances its read token (03 R101). -/
def ImageFacts.ringsOk (f : ImageFacts) : Bool :=
  f.tasks.all fun t => match t.ring with
    | none => true
    | some r => decide (1 ≤ r.rows) && decide (f.producers r.tok = 1) && decide (t.reads.length = 1) &&
        t.reads.all fun x => decide ((f.tasks.filter fun u => u.reads.any fun y => decide ((y.1, y.2.1) = (x.1, x.2.1))).length = 1)

/-- A task graph names tasks of the image, each within its bounds; TOKEN_BUDGET is 1 to 65,536 and PREFILL_CHUNK at most that (06 R230,
13 R442). -/
def ImageFacts.wf (f : ImageFacts) : Bool :=
  f.graphs.all (fun g => g.2.all fun i => decide (i < f.tasks.length)) && f.tasks.all TaskDecl.wf && f.ringsOk &&
    decide (1 ≤ f.tokenBudget) && decide (f.tokenBudget ≤ 65536) && decide (1 ≤ f.prefillChunk) && decide (f.prefillChunk ≤ f.tokenBudget)

/-- The fields of a flit's header are 12 bits wide, a message number 32 (10 R352, R353). -/
def Flit.wf (f : Flit) : Bool := decide (f.seq < 2 ^ 12) && decide (f.ack < 2 ^ 12) && decide (f.msgSeq < 2 ^ 32)

/-- An I3C address is 7 bits wide (12 R430). -/
def Ccc.wf : Ccc → Bool
  | .entdaa a => decide (a < 128)
  | .setdasa s a => decide (s < 128) && decide (a < 128)
  | .enec e => decide (e < 256)
  | .disec e => decide (e < 256)
  | .rstdaa => true
  | .getpid => true
  | .getbcr => true
  | .getdcr => true
  | .getstatus => true
  | .getmwl => true
  | .getmrl => true

/-- The operands lie in the ranges the rules of their row give. -/
def Instr.wf (i : Instr) : Bool :=
  match i with
  | .hello _ => true
  | .capsGet _ => true
  | .mbxAssign _ => true
  | .partitionCreate _ => true
  | .partitionDestroy _ => true
  | .partitionReset _ => true
  | .partitionSetShare _ => true
  | .imageLoad _ img => img.wf
  | .imageUnload _ => true
  | .launch _ => true
  | .launchAt _ => true
  | .taskAbort _ => true
  | .seqOpen _ => true
  | .seqClose _ => true
  | .seqFork _ => true
  | .pageTableEdit _ => true
  | .seqSwapPolicy _ => true
  | .seqSwapWatermarks _ => true
  | .streamBind _ nonce => decide (nonce < 2 ^ 256)
  | .streamUnbind _ => true
  | .displayBind _ => true
  | .worldUpdate _ => true
  | .planRequest _ => true
  | .planCancel _ => true
  | .detMode _ => true
  | .majorFrameUs _ => true
  | .rhT1 _ => true
  | .rhT2 _ => true
  | .dual _ => true
  | .selftestRotation _ => true
  | .towerReset _ => true
  | .warmReset _ => true
  | .errorsRead _ => true
  | .errorsClear _ => true
  | .selftestStatus _ => true
  | .twinPair _ nonce => decide (nonce.length = 32)
  | .twinRole _ diff _ => diff.all (· < 0xFFFF)
  | .standDown _ => true
  | .twinHandover _ => true
  | .configRootGet _ => true
  | .attest _ => true
  | .lifecycleAdvance _ => true
  | .timeSyncStep _ => true
  | .timeSyncSlew _ => true
  | .syncSet _ => true
  | .resourceClaim _ => true
  | .resourceRelease _ => true
  | .accountingRead _ => true
  | .thermalPolicy _ => true
  | .fwStage _ _ => true
  | .fwActivate _ => true
  | .mbxStateFilling _ _ => true
  | .mbxStateFree _ _ => true
  | .mbxGo _ _ => true
  | .registerWrite tgt _ => tgt.wf
  | .sqPush _ _ _ => true
  | .sqStalledPushAccept _ => true
  | .sqPop _ _ _ => true
  | .sqRefillDone _ poison => poison.all (· < 8)
  | .sqSpill _ _ _ => true
  | .sqDroppedRead _ => true
  | .sqCtrlWrite _ _ => true
  | .sqConfigWrite _ _ _ => true
  | .evqIrqWrite _ _ => true
  | .evqHoldoffExpiry => true
  | .winCtrlWrite _ _ _ => true
  | .bar2Access _ off acc _ => decide (off < 2 ^ 36) && acc.wf
  | .pcieLinkDown _ => true
  | .pcieLinkUp _ => true
  | .perst _ _ => true
  | .functionLevelReset _ => true
  | .hostReadCompletion _ _ da st data => decide (2 ^ 47 ≤ da) && decide (da < 2 ^ 48) && decide (data.length ≤ 4096) && (st.hasData == !data.isEmpty)
  | .hostReadTimeout _ _ da => decide (2 ^ 47 ≤ da) && decide (da < 2 ^ 48)
  | .ctcLowRead _ => true
  | .syncInEdge _ => true
  | .syncMissed => true
  | .holdover => true
  | .twinTimeExchange _ _ => true
  | .twinValidLoss => true
  | .launchAtStart _ => true
  | .majorFrameStart => true
  | .windowStart _ => true
  | .slackStart => true
  | .reclaimLead _ => true
  | .goldenTileSlot _ => true
  | .goldenTileSignature _ _ => true
  | .goldenTileSlotEnd _ => true
  | .budgetExhausted _ => true
  | .taskReady _ _ => true
  | .taskDispatch _ => true
  | .yieldPoint _ _ _ w _ => w.all WaitRef.wf
  | .saveDone _ _ => true
  | .yieldWaitTimeout _ => true
  | .taskEnd _ _ => true
  | .taskOverrun _ => true
  | .overrunAbort _ => true
  | .tileComplete _ op _ _ => op.wf
  | .tileRetryDone _ _ _ => true
  | .taskFailover _ => true
  | .spireFllRelock _ => true
  | .rowTokenAdvance _ _ b1 => decide (b1 < 2 ^ 16)
  | .tokenShadowUpdate _ _ _ v => decide (v < 2 ^ 16)
  | .tokenWaitDone _ => true
  | .ringReadTokenAdvance _ _ lo hi => decide (lo.getD 0 < 2 ^ 16) && decide (hi + 1 < 2 ^ 16)
  | .sortRequest _ da => decide (da < 2 ^ 52)
  | .sortStart _ => true
  | .sortDone _ _ => true
  | .sortRepeatDone _ _ => true
  | .gatherRequest _ desc _ _ => decide (desc.length = 4)
  | .gatherTileWritten _ _ => true
  | .gatherTileRelease _ => true
  | .appendWrite _ handle _ _ data => decide (handle < 2 ^ 20) && !data.isEmpty
  | .appendCounterAdvance _ _ => true
  | .pageWalkDone _ _ _ _ => true
  | .tlbInvalidationAck _ _ => true
  | .stepBuild _ _ _ => true
  | .copyOnWriteDone _ => true
  | .stepComplete _ => true
  | .swapOutCopyDone _ => true
  | .swapInCopyDone _ => true
  | .planSearchStart _ => true
  | .proposerBatchSend _ => true
  | .proposerComplete _ _ => true
  | .candidateCheckDone _ _ => true
  | .planDeadline _ => true
  | .pathRecheckDone _ => true
  | .publishRound _ => true
  | .publishLocked _ => true
  | .resultPublished _ => true
  | .worldUpdateApply _ => true
  | .memoryRead _ da n _ => decide (1 ≤ n) && decide (da + n ≤ 2 ^ 52 + 2 ^ 22)
  | .memoryWrite _ da data _ => !data.isEmpty && decide (da + data.length ≤ 2 ^ 52 + 2 ^ 22)
  | .sramScrub bank _ => decide (bank < 1296)
  | .bankPowerUp _ => true
  | .dmaDescriptor _ _ words _ => decide (words.length = 4)
  | .dmaComplete _ _ => true
  | .dramRequestIssue _ _ _ => true
  | .refreshInterval _ => true
  | .forcedRefab _ => true
  | .mr4Read _ _ => true
  | .linkEccCountRead _ _ => true
  | .rhWindowStart => true
  | .creditRefill => true
  | .dramPatrolScrub _ _ => true
  | .detReduction src _ n => decide (2 ≤ src.das.length) && decide (src.das.length ≤ 4096) && decide (1 ≤ n)
  | .arrivalOrderAdd _ da _ => decide (da % 4 = 0)
  | .atomicOp _ _ da _ => decide (da % 4 = 0)
  | .supplyExcursion _ => true
  | .clockMonitorWindow _ _ => true
  | .towerMonitorHeartbeat _ _ _ => true
  | .cupolaHeartbeat _ _ _ => true
  | .hbLost _ _ => true
  | .crossWatchSend _ => true
  | .crossWatchFrame _ _ _ => true
  | .peerSilent _ => true
  | .lanternDecision _ _ => true
  | .lockstepMismatch _ _ => true
  | .cupolaTakeover => true
  | .dualSignature _ _ _ => true
  | .dualArbitration _ bad => bad.all (· < 64)
  | .selftestSlot fails => fails.all (· < 2 ^ 16)
  | .configAudit _ _ _ => true
  | .twinRootCompare _ _ _ _ => true
  | .towerLinkCrcRetry _ => true
  | .laneFailure _ _ _ => true
  | .twinFlitReceive _ f => f.wf
  | .twinIdleFlit _ => true
  | .twinPortDown _ _ => true
  | .pairingAuth nonce sig vmin vmax => decide (nonce.length = 32) && decide (sig.length = 114) && decide (vmin ≤ vmax)
  | .twinPairTimeout => true
  | .launchLogAck _ _ => true
  | .launchLogTimeout _ => true
  | .sharedConfigApply _ => true
  | .mirrorAck _ _ => true
  | .publishedMark _ _ => true
  | .takeover _ => true
  | .takeoverRerunDone _ => true
  | .twinLaunchAtForward _ _ _ _ _ => true
  | .twinLaunchAtTimeout _ => true
  | .dualCompareSignatures _ _ => true
  | .csiFrameStart _ _ n => decide (n < 2 ^ 16)
  | .csiPacket _ _ pkt nonce => decide (pkt.dt < 64) && decide (pkt.data.length < 2 ^ 16) && decide (nonce < 2 ^ 256)
  | .responseVerified _ _ => true
  | .reauthChallenge _ _ nonce => decide (nonce < 2 ^ 256)
  | .challengeNonceReceive _ _ nonce => decide (nonce < 2 ^ 256)
  | .csiFrameEnd _ _ => true
  | .streamSilent _ _ => true
  | .displayFrameStart _ => true
  | .displayLineSend _ late => late.all fun x => decide (x.1 < 4)
  | .layerDisabled _ _ => true
  | .loopbackTestDone fails => fails.all (· < 4)
  | .i3cHandoffAccepted _ => true
  | .camSbBulkExpiry => true
  | .i3cRoleReturn nonces => nonces.all (· < 2 ^ 256)
  | .i3cRoleRequestRetry => true
  | .i3cPrivateWrite _ _ data => !data.isEmpty
  | .i3cPrivateRead _ _ n => decide (1 ≤ n)
  | .i3cCcc _ code => code.wf
  | .rcvData _ _ => true
  | .rcvGo _ => true
  | .recoveryVerifyDone => true
  | .powerOn => true
  | .powerLoss => true
  | .resetInNPulse _ => true
  | .delayedWarmReset => true
  | .pkgIdentCheck words _ => decide (words.length = 22) && (words.take 6).all (· < 8)
  | .towerResetDone _ words _ fails => decide (words.length = 22) && (words.take 6).all (· < 8) && fails.all (· < 2 ^ 16)
  | .dramWipeDone => true
  | .bootGo _ => true
  | .imageFetchDone _ => true
  | .noImage => true
  | .fetchTimeout => true
  | .lanternSectionCheck _ _ => true
  | .unitInitDone fails => fails.all (· < 2 ^ 16)
  | .lmpReady => true
  | .entropyHealthFail _ => true
  | .sensorRead _ _ _ => true
  | .sensorFaultPersist _ => true
  | .thermalCeilingUpdate _ => true
  | .baseDieOverheat _ => true
  | .thermalTrip _ _ => true
  | .avsVoltageConfirmed _ _ => true
  | .avsCurrentRead _ _ => true
  | .regulatorNoAnswer _ => true
  | .hubSampleRead ok words _ => !ok || decide (words.length = 16)
  | .hubSilent => true
  | .heatBalanceWindow _ => true
  | .towersOff => true
  | .life => true
  | .powerDomainSwitch _ _ => true
  | .partitionZeroingDone _ => true
  | .lantHbToggle _ => true
  | .frameMarkEnd => true
  | .referenceClockLoss => true
  | .d3hot _ _ => true
  | .hotJoin _ => true
  | .testWindow _ _ => true

end Sys2Proof
end

