-- ==== Sys2Proof/Certificates/Slice0/Obligations.lean ====
section
/-! DEFINITION. The statements for the provers. A row's hypotheses stand in an abbreviation `<Row>Ok` over the state and the
operands alone, so that its test can show a state that meets them; the next state is written out in full, so that each
statement is also the row's frame. -/

namespace Sys2Proof.Certs

open Sys2Proof Sys2Proof.Machine

/-- What a step answers. -/
abbrev Answer : Type := Host.Outcome State Fault Refusal

/-- Firmware takes command `op` of mailbox `m` now (12 R419, R421, 13 R435): a Cupola serves the mailboxes, it is the next in turn, its header
and its scope and length pass. -/
abbrev Taken (m : Fin 64) (op : Nat) (s : State) : Prop :=
  s.cupolaServes = true ∧ s.nextMbx = some m.val ∧ (s.mbx m.val).opcode = op ∧ (s.mbx m.val).header m.val = none ∧
    scopeCheck op m.val (s.mbx m.val).length = none

/-- Every range check passes and no condition holds (13 R435). -/
abbrev Passes (fields : List (Bool × Nat)) (conds : List (Bool × Nat × Nat)) : Prop :=
  firstBad fields = none ∧ firstHit conds = none

/-- The command of mailbox `m` ends ST_OK with reply `out`; `u` is the state its effect leaves. Commands behind it whose header
fails are rejected in their turn (12 R419, R420). -/
def ended (m : Fin 64) (out : List Byte) (u : State) : Answer := .next ((u.complete m.val stOk 0 out).rejectHeaders 64)

/-- The command ends with an error and no other effect (13 R435). -/
def failed (m : Fin 64) (status detail : Nat) (u : State) : Answer := .next ((u.complete m.val status detail []).rejectHeaders 64)

/-- The command holds its mailbox until `w` (13 R438). -/
def waiting (m : Fin 64) (w : Wait) (u : State) : Answer :=
  .next ((u.modMbx m.val fun b => { b with wait := some w }).rejectHeaders 64)

/-- A command that passes its checks, on a section both twin members hold: `here` where it applies at once; refused by a
standby; else forwarded, to apply on both members at a common frame start (10 R356, R357, R360). -/
def onShare (op : Nat) (p : Option Nat) (m : Fin 64) (s : State) (here : Answer) : Answer :=
  let u := s.takeMbx m.val
  let c := s.ctx m.val
  match s.shareOf p with
  | .here => here
  | .refuse => failed m stState 0 u
  | .forward => waiting m .shared (({ u with tw := { u.tw with
      shared := u.tw.shared ++ [{ op := op, part := c.part, payload := c.pl, mbx := some c.m }] } } : State).send (.command op c.part c.pl))

end Sys2Proof.Certs

section

open Sys2Proof Sys2Proof.Machine Sys2Proof.Certs

namespace Sys2Proof.Certs

/-! ### Protocol and partitions -/

/-- HELLO with a version range that holds version 1. -/
abbrev HelloOk (m : Fin 64) (s : State) : Prop :=
  Taken m 0x01 s ∧ (s.ctx m.val).fld 2 6 = 0 ∧ (s.ctx m.val).u8 0 ≤ 1 ∧ 1 ≤ (s.ctx m.val).u8 1

/-- MBX_ASSIGN of a mailbox that holds no command, to a live partition or to none. -/
abbrev MbxAssignOk (m : Fin 64) (s : State) : Prop :=
  let c := s.ctx m.val
  let u := s.takeMbx m.val
  Taken m 0x03 s ∧ 1 ≤ c.u8 0 ∧ c.u8 0 ≤ 63 ∧ (c.u8 1 = 0xFF ∨ 1 ≤ c.u8 1 ∧ c.u8 1 ≤ 15 ∧ (u.part (c.u8 1)).live = true) ∧
    1 ≤ c.u16 2 ∧ c.u32 4 = 0 ∧ (u.mbx (c.u8 0)).st ≠ mbSubmitted ∧ (u.mbx (c.u8 0)).st ≠ mbBusy

end Sys2Proof.Certs

/-- HELLO, CAPS_GET and MBX_ASSIGN complete with the reply of 13 R439: the version agreed and the sender's generation and
partition; the identification and capability words; the mailbox's new generation. HELLO records the version, MBX_ASSIGN gives the
mailbox its client (12 R422), CAPS_GET changes nothing. -/
def Obligations.ProtocolCommands : Prop :=
  (∀ m s, HelloOk m s →
    exec (.hello m) s = ended m
      (le 1 1 ++ le 1 ((s.takeMbx m.val).mbx m.val).gen ++ le 1 (if m.val = 0 then 0 else ((s.takeMbx m.val).mbx m.val).partition) ++ le 5 0)
      ((s.takeMbx m.val).modMbx m.val fun b => { b with version := some 1 })) ∧
  (∀ m s, Taken m 0x02 s →
    exec (.capsGet m) s = ended m
      (le 8 (s.devId0 (s.mbx m.val).goEp) ++ le 8 devCaps0 ++ le 8 devCaps1 ++ le 8 s.otp.uid ++ le 4 (s.bs.fw.getD {}).version ++
        le 1 (s.bs.fw.getD {}).twinMin ++ le 1 (s.bs.fw.getD {}).twinMax ++ le 1 s.otp.lc ++ le 1 (if s.saf.det then 1 else 0) ++
        le 4 s.sch.frame.fUs ++ le 4 s.cfgEpoch)
      (s.takeMbx m.val)) ∧
  (∀ m s, MbxAssignOk m s →
    let c := s.ctx m.val
    let t := (s.takeMbx m.val).assign (c.u8 0) (c.u8 1) (c.u16 2)
    exec (.mbxAssign m) s = ended m (le 1 (t.mbx (c.u8 0)).gen ++ le 7 0) t)

namespace Sys2Proof.Certs

/-- PARTITION_CREATE whose fields are in range and none of whose conditions of 06 R202 holds. -/
abbrev PartitionCreateOk (m : Fin 64) (p off : Nat) (s : State) : Prop :=
  let c := s.ctx m.val
  let t := (s.takeMbx m.val).layout
  Taken m 0x10 s ∧ Passes (t.createFields c) (t.createConds c) ∧ findLow (fun p => !(t.part p).live) 15 1 = some p ∧
    t.sliceOffset (c.u8 0x0A) = some off

/-- PARTITION_DESTROY of a live user partition that is not already ending; `mode` is its MODE byte. -/
abbrev PartitionEndOk (m : Fin 64) (mode : Nat) (s : State) : Prop :=
  let c := s.ctx m.val
  Taken m 0x11 s ∧ c.u8 1 = mode ∧ c.fld 2 6 = 0 ∧ (s.takeMbx m.val).named (c.u8 0) = true ∧
    ((s.takeMbx m.val).part (c.u8 0)).ending = 0

/-- PARTITION_SET_SHARE whose FLAGS 1 to 3 name a weight (bit 0), a budget (bit 1) that the frame and the Golden Tile leave room for, or
both. -/
abbrev SetShareOk (m : Fin 64) (s : State) : Prop :=
  let c := s.ctx m.val
  let u := s.takeMbx m.val
  let x := u.part (c.u8 0)
  Taken m 0x12 s ∧ u.named (c.u8 0) = true ∧ 1 ≤ c.u8 1 ∧ c.u8 1 ≤ 3 ∧
    ((c.u8 1).testBit 0 = true → 1 ≤ c.u16 2) ∧
    ((c.u8 1).testBit 1 = true → 100 ≤ c.u32 4 ∧ c.u32 4 ≤ s.sch.frame.fUs ∧ (x.golden.map (·.gtUs)).getD 0 ≤ c.u32 4 ∧
      (x.priv = true ∨ u.windowSum (c.u8 0) + c.u32 4 ≤ s.sch.frame.fUs))

/-- The zeroing of an ending partition that no sequence is left of. -/
abbrev ZeroedOk (p : Fin 16) (s : State) : Prop :=
  (s.part p.val).live = true ∧ (s.part p.val).ending = 4 ∧ s.liveSlots.all (fun i => decide ((s.sq i).part ≠ p.val)) = true

end Sys2Proof.Certs

/-- PARTITION_CREATE gives the lowest free number the attributes of its payload and answers the number (06 R200, R203; 13 R440);
PARTITION_DESTROY and its reset form begin to end the partition and wait for the zeroing (06 R206); a destroyed partition's
memory is zeroed, its number released and the command completed; PARTITION_SET_SHARE sets the weight it names at once and keeps the
budget it names as that of the next frame (06 R214, R210). -/
def Obligations.PartitionCommands : Prop :=
  (∀ m p off s, PartitionCreateOk m p off s →
    let c := s.ctx m.val
    let t := (s.takeMbx m.val).layout
    let x := partitionOf c off
    let t1 := t.modPart p fun _ => x
    let t2 := (List.range 64).foldl (fun s sp =>
      if x.priv && x.domes.getLsbD (sp / 4) && (s.spire sp).job.isSome then s.modSpire sp fun y => { y with preempt := some .owner }
      else s) t1
    let want := walkClaims x.dmaList (decide (x.swapBytes ≠ 0)) (if x.priv then x.domes else ~~~ t.ownedDomes)
    exec (.partitionCreate m) s = onShare 0x10 none m s
      (ended m (le 8 p) { t2 with claims := t2.claims ++ want.map fun w => { res := w.1, inst := w.2, mbx := 0, part := p } })) ∧
  (∀ m s, PartitionEndOk m 0 s →
    exec (.partitionDestroy m) s = onShare 0x11 (some ((s.ctx m.val).u8 0)) m s
      (waiting m (.zero ((s.ctx m.val).u8 0)) ((s.takeMbx m.val).beginEnd ((s.ctx m.val).u8 0) 4))) ∧
  (∀ m s, PartitionEndOk m 1 s →
    exec (.partitionReset m) s = onShare 0x11 (some ((s.ctx m.val).u8 0)) m s
      (waiting m (.zero ((s.ctx m.val).u8 0)) ((s.takeMbx m.val).beginEnd ((s.ctx m.val).u8 0) 3))) ∧
  (∀ m s, SetShareOk m s →
    exec (.partitionSetShare m) s = onShare 0x12 (some ((s.ctx m.val).u8 0)) m s
      (ended m [] ((s.takeMbx m.val).modPart ((s.ctx m.val).u8 0) fun x =>
        { x with
          share := if ((s.ctx m.val).u8 1).testBit 0 then (s.ctx m.val).u16 2 else x.share
          nextBudget := if ((s.ctx m.val).u8 1).testBit 1 then some ((s.ctx m.val).u32 4) else x.nextBudget }))) ∧
  (∀ p s, ZeroedOk p s →
    exec (.partitionZeroingDone p) s = .next
      ((((s.zeroPartition p.val).modPart p.val fun x => { x with step := 0 }).release p.val).finishAll (.zero p.val) stOk 0 []))

namespace Sys2Proof.Certs

/-! ### Images and launches -/

/-- IMAGE_LOAD of a well-formed image that no condition of 13 R442 refuses; `f` is what its header says. -/
abbrev ImageLoadOk (m : Fin 64) (f : ImageFacts) (s : State) : Prop :=
  let c := s.ctx m.val
  let u := s.takeMbx m.val
  Taken m 0x20 s ∧ c.daOk 0 = true ∧ (u.kindRange (c.u64 0) (max 1 (c.u32 0x10)) = some .host ∨ (u.part c.part).inRegion (c.u64 0) (c.u32 0x10) = true) ∧
    c.daOk 8 = true ∧ c.u64 8 % 64 = 0 ∧ (u.part c.part).inRegion (c.u64 8) (c.u32 0x10) = true ∧ 4096 ≤ c.u32 0x10 ∧
    c.u32 0x10 ≤ gib ∧ c.u32 0x14 = 0 ∧ f.malformed = none ∧ f.siliconRev = Config.siliconRev.toNat ∧ f.srcFails = false ∧
    u.srcOk (c.u64 0) (c.u32 0x10) = true ∧ u.tailBad (c.u64 8) (c.u32 0x10) = false ∧ firstHit (u.imageConds (u.part c.part) f) = none

/-- IMAGE_UNLOAD of a loaded image that nothing names and that holds no Golden Tile of a safety class. -/
abbrev ImageUnloadOk (m : Fin 64) (s : State) : Prop :=
  let c := s.ctx m.val
  let u := s.takeMbx m.val
  Taken m 0x21 s ∧ (tget none (u.part c.part).images (c.u8 0)).isSome = true ∧ c.fld 1 7 = 0 ∧
    (u.jobsOf c.part).all (fun j => decide ((u.job j).image ≠ c.u8 0)) = true ∧
    u.liveSlots.all (fun k => decide ((u.sq k).part ≠ c.part) || decide ((u.sq k).image ≠ c.u8 0)) = true ∧
    u.streamNames c.part (c.u8 0) = false ∧ ((u.part c.part).cls = 0 ∨ ((u.part c.part).golden.map (·.image)) ≠ some (c.u8 0))

/-- A launch that no check of 13 R444 refuses; `twin` says whether a LAUNCH_AT names the partner too. -/
abbrev LaunchOk (m : Fin 64) (at_ twin : Bool) (s : State) : Prop :=
  let c := s.ctx m.val
  let u := s.takeMbx m.val
  Taken m (if at_ then 0x31 else 0x30) s ∧ Passes (u.launchFields c at_) (u.launchConds c at_) ∧ (at_ && launchTwin c) = twin

/-- TASK_ABORT of a launch of the sender's own mailbox. -/
abbrev TaskAbortOk (m : Fin 64) (j : Nat) (s : State) : Prop :=
  let c := s.ctx m.val
  Taken m 0x32 s ∧ c.u8 0 = m.val ∧ c.u32 4 = 0 ∧ (s.takeMbx m.val).launchNamed (c.u8 0) (c.u8 1) (c.u16 2) = some j

/-- A launch at a time of the CTC that has not started, no Cupola takeover being under way. -/
abbrev LaunchAtStartOk (job t : Nat) (s : State) : Prop :=
  (s.job job).live = true ∧ (s.job job).startAt = some t ∧ s.saf.takeover = false

end Sys2Proof.Certs

/-- IMAGE_LOAD copies the image into the partition's region, records it at the lowest free index with its measurement, SHAKE256 of
its bytes, and answers index and measurement; IMAGE_UNLOAD drops it (13 R442, R443). -/
def Obligations.ImageCommands : Prop :=
  (∀ m f s, ImageLoadOk m f s →
    let c := s.ctx m.val
    let u := s.takeMbx m.val
    let x := u.part c.part
    let bytes := u.rd (c.u64 0) (c.u32 0x10)
    let i := x.freeImage.getD 0
    let g := x.takesGolden f i
    let w := u.writeCells (c.u64 8) bytes (if u.kind (c.u64 8) = some .dram then 64 else 8) (c.u32 0x10 + 1)
    exec (.imageLoad m f) s = onShare 0x20 (some c.part) m s
      (ended m (le 1 i ++ le 1 ((if f.golden.isSome then 1 else 0) + if g.isSome then 2 else 0) ++ le 6 0 ++ shake256 bytes 32)
        (w.modPart c.part fun y => { y with
          images := tput none y.images i (some { dest := c.u64 8, bytes := c.u32 0x10, meas := shake256 bytes 32, facts := f })
          golden := if g.isSome then g else y.golden }))) ∧
  (∀ m s, ImageUnloadOk m s →
    let c := s.ctx m.val
    exec (.imageUnload m) s = onShare 0x21 (some c.part) m s
      (ended m [] ((s.takeMbx m.val).modPart c.part fun y => { y with images := tput none y.images (c.u8 0) none })))

namespace Sys2Proof.Certs

/-- A launch accepted with the step value taken before it (08 R289, R290), starting at once or at a time: it completes with its
tag, its generation and its step value, or where the partition is mirrored waits for the standby to log it (10 R359). -/
def accepted (m : Fin 64) (op : Nat) (at_ : Option Nat) (s : State) : Answer :=
  let c := s.ctx m.val
  let u := (s.takeMbx m.val).takeStep c
  let t := u.1.accept c at_ u.2
  if t.1.mirrored c.part then
    waiting m (.launchLog c.part (u.2.getD (2 ^ 64 - 1)) t.2) (t.1.logLaunch c.part c.m op (u.2.getD (2 ^ 64 - 1)) c.pl)
  else ended m t.2 t.1

end Sys2Proof.Certs

/-- LAUNCH and LAUNCH_AT are accepted with the step value of 08 R289 and R290 and answer tag, generation and step value (06 R215,
13 R444); a LAUNCH_AT that names the partner waits for its answer (08 R299); TASK_ABORT ends the launch its tag names (06 R228); a
LAUNCH_AT starts when the CTC reaches its time, but not while a Cupola takeover is under way (08 R298, R300). -/
def Obligations.LaunchCommands : Prop :=
  (∀ m s, LaunchOk m false false s → exec (.launch m) s = accepted m 0x30 none s) ∧
  (∀ m s, LaunchOk m true false s → exec (.launchAt m) s = accepted m 0x31 (some ((s.ctx m.val).u64 0x10)) s) ∧
  (∀ m s, LaunchOk m true true s →
    let c := s.ctx m.val
    let u := (s.takeMbx m.val).takeStep c
    exec (.launchAt m) s = waiting m (.launchTwin c.part (u.2.getD (2 ^ 64 - 1)))
      (u.1.send (.launchAt (Fin.ofNat 16 c.part) (Fin.ofNat 64 c.m) (u.2.getD (2 ^ 64 - 1)) c.pl))) ∧
  (∀ m j s, TaskAbortOk m j s → exec (.taskAbort m) s = ended m [] ((s.takeMbx m.val).abort j)) ∧
  (∀ job t s, LaunchAtStartOk job t s →
    exec (.launchAtStart job) s = .next ((s.elapseTo t).modJob job fun b => { b with startAt := none }).closeStepLaunches) ∧
  (∀ job t s, (s.job job).live = true → (s.job job).startAt = some t → s.saf.takeover = true →
    exec (.launchAtStart job) s = .next (s.elapseTo t))

namespace Sys2Proof.Certs

/-! ### Sequences -/

/-- SEQ_OPEN in range, with a free slot, pages for its reservation and room for its page table. -/
abbrev SeqOpenOk (m : Fin 64) (slot base : Nat) (s : State) : Prop :=
  let c := s.ctx m.val
  let u := s.takeMbx m.val
  Taken m 0x40 s ∧ (tget none (u.part c.part).images (c.u8 0)).isSome = true ∧ c.u8 1 ≤ 2 ∧ 1 ≤ c.u8 2 ∧ c.u8 2 ≤ 128 ∧ 2 ≤ c.u8 3 ∧
    c.u8 3 ≤ 16 ∧ (c.u8 4 = 1 ∨ c.u8 4 = 0 ∧ (u.part c.part).maySwap = true) ∧ c.u8 5 = 0 ∧
    c.u32 8 ≤ c.u32 12 / max 1 (c.u8 2) * tppOf (c.u8 1) (c.u8 3) ∧ 1 ≤ c.u32 12 ∧ c.u32 12 ≤ 65536 ∧ u.freeSlotFor c.part = some slot ∧
    (if c.u8 4 = 1 then c.u8 2 * ceilDiv (c.u32 8) (max 1 (tppOf (c.u8 1) (c.u8 3))) else 0) ≤ u.available c.part ∧
    u.ptPlace c.part (2 * ptCopyBytes (c.u32 12)) = some base

/-- A sequence command of 8 bytes that names a live sequence of the sender. -/
abbrev SeqNamedOk (m : Fin 64) (op : Nat) (s : State) : Prop :=
  let c := s.ctx m.val
  Taken m op s ∧ c.u32 0 < 2 ^ 20 ∧ c.u32 4 = 0 ∧ (s.takeMbx m.val).liveHandle c.part (c.u32 0) = true

/-- PAGE_TABLE_EDIT of a live sequence in OPEN, ADMITTED, IN_STEP or STALLED, whose entries 04 R135 allows; `t` is the state with
them applied. -/
abbrev PageTableEditOk (m : Fin 64) (t s : State) : Prop :=
  let c := s.ctx m.val
  let u := s.takeMbx m.val
  let n := c.u16 4
  let es := (List.range n).map fun i => (c.u32 (8 + 8 * i), c.u32 (12 + 8 * i))
  let st := (u.sq (slotOf (c.u32 0))).st
  Taken m 0x43 s ∧ c.u32 0 < 2 ^ 20 ∧ 1 ≤ n ∧ n ≤ 503 ∧ c.pl.length = 8 + 8 * n ∧ c.u16 6 = 0 ∧ es.all (fun e => decide (nbits e.2 30 24 = 0)) = true ∧
    u.liveHandle c.part (c.u32 0) = true ∧ u.editEntries (slotOf (c.u32 0)) 0 es = (t, none) ∧ st ≠ sqClosing ∧ st ≠ sqSwapOut ∧
    st ≠ sqSwapped ∧ st ≠ sqSwapIn

/-- SEQ_SWAP_POLICY of a live sequence: RESIDENT where pages are left and it is in memory, or EVICTABLE where swapping is allowed. -/
abbrev SwapPolicyOk (m : Fin 64) (s : State) : Prop :=
  let c := s.ctx m.val
  let u := s.takeMbx m.val
  let q := u.sq (slotOf (c.u32 4))
  Taken m 0x44 s ∧ c.u8 0 = 0 ∧ c.u32 4 < 2 ^ 20 ∧ c.u32 8 = 0 ∧ c.u32 12 = 0 ∧ u.liveHandle c.part (c.u32 4) = true ∧
    (c.u8 1 = 0 ∧ (u.part c.part).maySwap = true ∨
      c.u8 1 = 1 ∧ (q.policy ≠ 0 ∨
        q.nl * ceilDiv q.maxLen (max 1 q.tpp) - (u.alone (slotOf (c.u32 4))).length ≤ u.available c.part ∧
          q.st ≠ sqSwapOut ∧ q.st ≠ sqSwapped ∧ q.st ≠ sqSwapIn))

/-- SEQ_SWAP_POLICY of the partition's watermarks within a quarter and a half of its pool. -/
abbrev WatermarksOk (m : Fin 64) (s : State) : Prop :=
  let c := s.ctx m.val
  let pool := ((s.takeMbx m.val).part c.part).poolPages
  Taken m 0x44 s ∧ c.u8 0 = 1 ∧ c.u8 1 = 0 ∧ c.u16 2 = 0 ∧ c.u32 4 = 0 ∧ 1 ≤ c.u32 8 ∧ c.u32 8 ≤ pool / 4 ∧ c.u32 8 < c.u32 12 ∧
    c.u32 12 ≤ pool / 2

/-- What SEQ_CLOSE does at once: closes in OPEN, SWAPPED or STALLED, else at the next boundary or after the swap (04 R142). -/
def closed (slot : Nat) (u : State) : State :=
  let q := u.sq slot
  if q.st = sqSwapOut ∨ q.st = sqSwapIn then u.modSeq slot fun q => { q with closing := true }
  else if q.st = sqInStep then u.modSeq slot fun q => { q with st := sqClosing }
  else if q.st = sqClosing then u
  else if q.inval ≠ 0 ∨ ¬ q.copies.isEmpty ∨ u.inBuild slot then u.modSeq slot fun q => { q with st := sqClosing }
  else u.startClose slot

end Sys2Proof.Certs

/-- The sequence commands complete or wait as 13 R447 says: SEQ_OPEN fills the slot, zeroes its page table and answers the handle (04
R112, R116); SEQ_CLOSE, SEQ_FORK and PAGE_TABLE_EDIT wait for the sequence's boundary, the edit being PENDING, or kept until the sequence's flip or copies are
done (04 R135, R140, R142);
the policy form sets policy, reservation and share, the watermark form the partition's watermarks (04 R144, R145). -/
def Obligations.SequenceCommands : Prop :=
  (∀ m slot base s, SeqOpenOk m slot base s →
    let c := s.ctx m.val
    let u := s.takeMbx m.val
    let tpp := tppOf (c.u8 1) (c.u8 3)
    let t := (u.modSeq slot fun q => {
      st := sqOpen, gen := q.gen, part := c.part, image := c.u8 0, policy := c.u8 4, lfmt := c.u8 1, nl := c.u8 2, dc64 := c.u8 3
      tpp := tpp, maxLen := c.u32 8, ptBase := base, share := if c.u16 6 = 0 then (u.part c.part).share else c.u16 6
      ptLen := c.u32 12, reserve := if c.u8 4 = 1 then c.u8 2 * ceilDiv (c.u32 8) (max 1 tpp) else 0 }).zero base
        (2 * ptCopyBytes (c.u32 12))
    exec (.seqOpen m) s = onShare 0x40 (some c.part) m s (ended m (le 8 (t.handleOf slot)) t)) ∧
  (∀ m s, SeqNamedOk m 0x41 s →
    let c := s.ctx m.val
    exec (.seqClose m) s = onShare 0x41 (some c.part) m s
      (waiting m (.seqClose (slotOf (c.u32 0))) (closed (slotOf (c.u32 0)) (s.takeMbx m.val)))) ∧
  (∀ m s, SeqNamedOk m 0x42 s →
    let c := s.ctx m.val
    exec (.seqFork m) s = onShare 0x42 (some c.part) m s (waiting m (.fork (slotOf (c.u32 0)) 0) (s.takeMbx m.val))) ∧
  (∀ m t s, PageTableEditOk m t s →
    let c := s.ctx m.val
    exec (.pageTableEdit m) s = onShare 0x43 (some c.part) m s
      (if ((s.takeMbx m.val).sq (slotOf (c.u32 0))).busyCopy then waiting m (.editLate (slotOf (c.u32 0))) t
       else waiting m (.edit (slotOf (c.u32 0))) (t.modSeq (slotOf (c.u32 0)) fun q => { q with pending := true }))) ∧
  (∀ m s, SwapPolicyOk m s →
    let c := s.ctx m.val
    let u := s.takeMbx m.val
    let slot := slotOf (c.u32 4)
    let q := u.sq slot
    exec (.seqSwapPolicy m) s = onShare 0x44 (some c.part) m s
      (ended m [] (u.modSeq slot fun y => { y with
        policy := c.u8 1
        reserve := if c.u8 1 = 1 ∧ q.policy = 0 then q.nl * ceilDiv q.maxLen (max 1 q.tpp) - (u.alone slot).length
          else if c.u8 1 = 0 then 0 else y.reserve
        share := if c.u16 2 = 0 then y.share else c.u16 2 }))) ∧
  (∀ m s, WatermarksOk m s →
    let c := s.ctx m.val
    exec (.seqSwapWatermarks m) s = onShare 0x44 (some c.part) m s
      (ended m [] ((s.takeMbx m.val).modPart c.part fun x => { x with lowWm := c.u32 8, highWm := c.u32 12 })))

namespace Sys2Proof.Certs

/-! ### Settings, time, claims, accounting -/

/-- SAFETY_CONFIG whose first item has key `k`, whose items are in range and meet no condition of 13 R451. -/
abbrev SafetyOk (m : Fin 64) (k : Nat) (s : State) : Prop :=
  let c := s.ctx m.val
  let u := s.takeMbx m.val
  let is := cfgItems c
  Taken m 0x70 s ∧ firstKey c = k ∧ 1 ≤ c.u8 0 ∧ c.u8 0 ≤ 16 ∧ c.pl.length = 8 + 16 * c.u8 0 ∧ c.fld 1 7 = 0 ∧
    is.all (u.itemOk (c.u8 0)) = true ∧
    ((u.rhAfter is).1 < (u.rhAfter is).2 ∨ is.all (fun i => decide (i.key ≠ 3) && decide (i.key ≠ 4)) = true) ∧
    firstHit (is.flatMap u.itemConds) = none

/-- The items of a SAFETY_CONFIG are applied in order. -/
def applied (m : Fin 64) (s : State) : Answer :=
  ended m [] ((cfgItems (s.ctx m.val)).foldl (fun s i => s.applyItem i) (s.takeMbx m.val))

/-- TIME_SYNC with OP STEP, SLEW or SYNC_SET, allowed to this member. -/
abbrev TimeStepOk (m : Fin 64) (s : State) : Prop :=
  let c := s.ctx m.val
  Taken m 0xB0 s ∧ c.u8 0 = 0 ∧ c.fld 1 7 = 0 ∧ c.u32 0x10 = 0 ∧ c.u32 0x14 = 0 ∧ s.isSecondary = false ∧ s.users = []
abbrev TimeSlewOk (m : Fin 64) (s : State) : Prop :=
  let c := s.ctx m.val
  Taken m 0xB0 s ∧ c.u8 0 = 1 ∧ c.fld 1 7 = 0 ∧ (toSigned 64 (c.u64 8)).natAbs ≤ 10000000 ∧ c.u32 0x10 = 0 ∧ c.u32 0x14 = 0 ∧
    s.isSecondary = false
abbrev SyncSetOk (m : Fin 64) (s : State) : Prop :=
  let c := s.ctx m.val
  Taken m 0xB0 s ∧ c.u8 0 = 2 ∧ c.fld 1 7 = 0 ∧ c.u64 8 = 0 ∧ 1 ≤ c.u32 0x10 ∧ c.u32 0x10 ≤ 1000 ∧ c.u32 0x14 < c.u32 0x10 * 1000000 ∧
    s.claimed 1 = true

/-- RESOURCE_CLAIM of a table resource that this mailbox may claim and does not hold; the layout is claimed by mailbox 0 while no
user partition exists. -/
abbrev ClaimOk (m : Fin 64) (s : State) : Prop :=
  let c := s.ctx m.val
  let u := s.takeMbx m.val
  Taken m 0xC0 s ∧ firstBad (claimFields c) = none ∧ c.u8 0 < 0x10 ∧ (c.u8 0 = 7 ∨ c.u8 0 = 8 → m.val = 0 ∧ s.users = []) ∧
    u.claimOf (c.u8 0) (c.u16 2) = none ∧ u.conflicts (c.u8 0) (c.u16 2) (c.u32 4) = [] ∧
    (c.u8 0 = 4 ∨ c.u8 0 = 5 → s.cam.role = 0)

/-- RESOURCE_RELEASE of a claim the mailbox holds. -/
abbrev ReleaseOk (m : Fin 64) (x : Claim) (s : State) : Prop :=
  let c := s.ctx m.val
  Taken m 0xC1 s ∧ firstBad ((claimFields c).take 3) = none ∧ c.u8 0 < 0x10 ∧
    (s.takeMbx m.val).claimOf (c.u8 0) (c.u16 2) = some x ∧ x.mbx = m.val ∧ (c.u8 0 = 7 ∨ c.u8 0 = 8 → s.users = [])

/-- ACCOUNTING_READ of the sender's own record, or of any by the admin client. -/
abbrev AccountingOk (m : Fin 64) (s : State) : Prop :=
  let c := s.ctx m.val
  Taken m 0xD0 s ∧ (c.u8 0 = 0 ∧ c.u8 1 ≤ 63 ∧ (m.val = 0 ∨ c.u8 1 = m.val) ∨
      c.u8 0 = 1 ∧ s.named (c.u8 1) = true ∧ (m.val = 0 ∨ c.u8 1 = c.part) ∨ c.u8 0 = 2 ∧ c.u8 1 = 0 ∧ m.val = 0) ∧
    c.u8 2 ≤ 1 ∧ c.fld 3 5 = 0

end Sys2Proof.Certs

/-- SAFETY_CONFIG applies its items in order and completes; TOWER_RESET wipes the Tower and waits for its release (13 R451; 14 R464).
A setting of a paired member is forwarded, an action is its own (10 R360). The single items set DET_MODE (08 R277), the frame (06
R207), the next thresholds (07 R261), DUAL (09 R331), the rotation's enable (R342) and the delayed warm reset (14 R462). -/
def Obligations.SafetyConfig : Prop :=
  (∀ m s, SafetyOk m 1 s → exec (.detMode m) s = onShare 0x70 none m s (applied m s)) ∧
  (∀ m s, SafetyOk m 2 s → exec (.majorFrameUs m) s = onShare 0x70 none m s (applied m s)) ∧
  (∀ m s, SafetyOk m 3 s → exec (.rhT1 m) s = onShare 0x70 none m s (applied m s)) ∧
  (∀ m s, SafetyOk m 4 s → exec (.rhT2 m) s = onShare 0x70 none m s (applied m s)) ∧
  (∀ m s, SafetyOk m 5 s → exec (.dual m) s = onShare 0x70 none m s (applied m s)) ∧
  (∀ m s, SafetyOk m 6 s → exec (.selftestRotation m) s = onShare 0x70 none m s (applied m s)) ∧
  (∀ m s, SafetyOk m 0x10 s →
    exec (.towerReset m) s =
      waiting m (.towerReset ((s.ctx m.val).u64 16)) ((s.takeMbx m.val).wipeTower ((s.ctx m.val).u64 16))) ∧
  (∀ m s, SafetyOk m 0x11 s → exec (.warmReset m) s = applied m s) ∧
  (∀ (u : State) (p v : Nat),
    u.applyItem ⟨1, p, 0, v⟩ = { u with saf := { u.saf with det := decide (v = 1) } } ∧
    u.applyItem ⟨2, p, 0, v⟩ =
      { u with sch := { u.sch with frame := { u.sch.frame with fUs := v, next := roundUp u.clk.ctc (v * 1000) } } } ∧
    u.applyItem ⟨3, p, 0, v⟩ = { u with mem := { u.mem with nextT1 := v } } ∧
    u.applyItem ⟨4, p, 0, v⟩ = { u with mem := { u.mem with nextT2 := v } } ∧
    u.applyItem ⟨5, p, 0, v⟩ = u.modPart p (fun x => { x with dual := { x.dual with
      mode := v % 4, flag := v.testBit 2, k := nbits v 15 8, n := nbits v 23 16, shadow := BitVec.ofNat 16 (nbits v 47 32) } }) ∧
    u.applyItem ⟨6, p, 0, 0⟩ = { u with saf := { u.saf with test := { u.saf.test with enabled := false, everDisabled := true } } } ∧
    u.applyItem ⟨6, p, 0, 1⟩ = { u with saf := { u.saf with test := u.saf.test.enable u.clk.elapsed } } ∧
    u.applyItem ⟨0x11, p, 0, v⟩ = { u with bs := { u.bs with delayed := some (2, u.clk.elapsed + 1000000) } })

/-- TIME_SYNC (08 R292, R294, R295; 13 R457): STEP sets the CTC, SLEW adds the offset to the one in progress and sets a rate within
200 ppm (its size open, log 17), SYNC_SET sets period and offset; each answers the CTC. -/
def Obligations.TimeSync : Prop :=
  (∀ m s, TimeStepOk m s →
    let v := (s.ctx m.val).u64 8
    exec (.timeSyncStep m) s = ended m (le 8 v) ((s.takeMbx m.val).stepCtc v)) ∧
  (∀ m s, TimeSlewOk m s →
    let u := s.takeMbx m.val
    let left := s.clk.slew + toSigned 64 ((s.ctx m.val).u64 8) * 1000000000
    ∃ r : Nat, 1 ≤ r ∧ r ≤ 200000 ∧
      exec (.timeSyncSlew m) s = ended m (le 8 s.clk.ctc) { u with
        free := s.free + 1
        clk := { s.clk with
          slewed := true, slew := left, rate := if left = 0 then s.clk.base else if left < 0 then -(r : Int) else (r : Int) } }) ∧
  (∀ m s, SyncSetOk m s →
    let c := s.ctx m.val
    exec (.syncSet m) s = ended m (le 8 s.clk.ctc)
      { s.takeMbx m.val with clk := { s.clk with periodMs := c.u32 0x10, offsetNs := c.u32 0x14 } })

/-- RESOURCE_CLAIM adds the claim, and the East I3C forms wait for the handoff; RESOURCE_RELEASE drops it; ACCOUNTING_READ answers
the record and clears it on request (11 R402, R404; 06 R233; 13 R458, R459). -/
def Obligations.ClaimsAndAccounts : Prop :=
  (∀ m s, ClaimOk m s →
    let c := s.ctx m.val
    let u := s.takeMbx m.val
    let x : Claim := { res := c.u8 0, inst := c.u16 2, mbx := m.val, part := c.part, value := c.u32 4 }
    exec (.resourceClaim m) s =
      if c.u8 0 = 4 ∨ c.u8 0 = 5 then waiting m .i3cHandoff { u with cam := { s.cam with role := 1, roleClaim := some x } }
      else ended m [] { u with claims := s.claims ++ [x], cfgEpoch := (s.cfgEpoch + 1) % 2 ^ 32 }) ∧
  (∀ m x s, ReleaseOk m x s →
    let c := s.ctx m.val
    exec (.resourceRelease m) s =
      ended m [] ((s.takeMbx m.val).dropClaims fun x => decide (x.res = c.u8 0) && decide (x.inst = c.u16 2)).bump) ∧
  (∀ m s, AccountingOk m s →
    let c := s.ctx m.val
    let u := s.takeMbx m.val
    let a : Acct := if c.u8 0 = 0 then tget ({} : Acct) s.sch.clients (c.u8 1) else if c.u8 0 = 1 then (s.part (c.u8 1)).acct else s.sch.system
    let z : Acct := { since := s.clk.ctc }
    exec (.accountingRead m) s = ended m a.bytes
      (if c.u8 2 = 0 then u
       else if c.u8 0 = 0 then { u with sch := { s.sch with clients := tput {} s.sch.clients (c.u8 1) z } }
       else if c.u8 0 = 1 then u.modPart (c.u8 1) fun x => { x with acct := z }
       else { u with sch := { s.sch with system := z } }))

namespace Sys2Proof.Certs

/-! ### Reports, keys, firmware -/

/-- Lantern `l` serves its safety mailbox's command `op` (12 R431, R432). -/
abbrev SmTaken (l : Fin 2) (op : Nat) (s : State) : Prop :=
  (s.sm l.val).state = 1 ∧ (s.sm l.val).cmdNat 0 2 = op ∧ lengthOk op ((s.sm l.val).cmdNat 4 1) = true

/-- A command that either a mailbox or a safety mailbox may send is taken. -/
abbrev AnyTaken (src : CmdSrc) (op : Nat) (s : State) : Prop :=
  match src with
  | .mbx m => Taken m op s
  | .sm l => SmTaken l op s

/-- The context such a command runs in, and the state it runs on. -/
def anyCtx (src : CmdSrc) (s : State) : Ctx :=
  match src with
  | .mbx m => s.ctx m.val
  | .sm l => s.smCtx l.val
def anyState (src : CmdSrc) (s : State) : State :=
  match src with
  | .mbx m => s.takeMbx m.val
  | .sm _ => s

/-- It ends ST_OK, in its mailbox or in the safety mailbox's response (12 R420, R431). -/
def anyEnded (src : CmdSrc) (out : List Byte) (u : State) : Answer :=
  match src with
  | .mbx m => ended m out u
  | .sm l => .next (u.smComplete l.val stOk 0 out)

/-- ERRORS_READ of 1 to 62 records, of exactly 1 over a safety mailbox. -/
abbrev ErrorsReadOk (src : CmdSrc) (s : State) : Prop :=
  let c := anyCtx src s
  AnyTaken src 0x71 s ∧ (c.i3c = true → c.u8 2 = 1) ∧ 1 ≤ c.u8 2 ∧ c.u8 2 ≤ 62 ∧ c.u8 3 < 2 ∧ c.fld 4 4 = 0

/-- ERRORS_CLEAR of a source in use, with its record's present generation. -/
abbrev ErrorsClearOk (src : CmdSrc) (s : State) : Prop :=
  let c := anyCtx src s
  AnyTaken src 0x72 s ∧ srcUsed (c.u16 0) = true ∧ c.fld 3 5 = 0 ∧ c.u8 2 = (s.errRec (c.u16 0)).gen

/-- CONFIG_ROOT_GET of the root, the section roots (mailboxes only) or a section's leaves. -/
abbrev RootGetOk (src : CmdSrc) (mode : Nat) (s : State) : Prop :=
  let c := anyCtx src s
  AnyTaken src 0x90 s ∧ c.u8 0 = mode ∧ c.u8 1 ≤ 16 ∧ c.u32 4 = 0 ∧ (mode = 0 ∨ mode = 1 ∧ c.i3c = false ∨ mode = 2)

/-- ATTEST at an offset within the report, in any state but SCRAPPED. -/
abbrev AttestOk (src : CmdSrc) (s : State) : Prop :=
  let c := anyCtx src s
  AnyTaken src 0xA0 s ∧ c.u16 0x10 < 258 ∧ c.fld 0x12 6 = 0 ∧ s.otp.lc ≠ 5

/-- LIFECYCLE_ADVANCE of a listed transition, with no user partition and a free fuse count; `keys` are those that may sign it. -/
abbrev LifecycleOk (m : Fin 64) (keys : List (List Byte)) (s : State) : Prop :=
  let c := s.ctx m.val
  Taken m 0xA1 s ∧ c.u8 0 ≤ 5 ∧ c.fld 1 7 = 0 ∧ c.fld 0x7A 6 = 0 ∧ s.transitionKeys (c.u8 0) = some keys ∧
    (s.otp.count < 15 ∨ c.u8 0 = 5) ∧ s.users = []

/-- THERMAL_POLICY in range. -/
abbrev ThermalPolicyOk (m : Fin 64) (s : State) : Prop :=
  let c := s.ctx m.val
  Taken m 0xE0 s ∧ c.u16 0 % 2 = 0 ∧ 1000 ≤ c.u16 2 ∧ c.u16 2 ≤ 4000 ∧ c.u8 4 ≤ 1 ∧ c.fld 5 3 = 0

/-- FW_STAGE of an image in host memory that can be read. -/
abbrev FwStageOk (m : Fin 64) (s : State) : Prop :=
  let c := s.ctx m.val
  let u := s.takeMbx m.val
  Taken m 0xF0 s ∧ hostBase ≤ c.u64 0 ∧ c.u64 0 + c.u32 8 ≤ 2 * hostBase ∧ 65536 ≤ c.u32 8 ∧ c.u32 8 ≤ 16 * mib ∧ c.u8 0xC < 2 ∧
    c.fld 0xD 3 = 0 ∧ u.srcOk (c.u64 0) (c.u32 8) = true

/-- FW_ACTIVATE of the slot staged, by a member that publishes nothing. -/
abbrev FwActivateOk (m : Fin 64) (meas : List Byte) (act : Bool) (s : State) : Prop :=
  let c := s.ctx m.val
  Taken m 0xF1 s ∧ c.u8 0 < 2 ∧ c.fld 1 7 = 0 ∧ s.bs.staging = some (c.u8 0, meas, act) ∧
    (s.tw.st ≠ 1 ∨ s.tw.mirror &&& s.tw.pub = 0)

end Sys2Proof.Certs

/-- ERRORS_READ answers the records from START on out of the mirror of the Lantern that serves it, ERRORS_CLEAR clears the bits of
its mask whose condition no longer holds and answers what is left, SELFTEST_STATUS answers the last whole rotation, from a
mailbox as from a safety mailbox (09 R342, R347, R348; 13 R452, R453). -/
def Obligations.ErrorReports : Prop :=
  (∀ src s, ErrorsReadOk src s →
    let c := anyCtx src s
    let u := anyState src s
    let all := (sourcesFrom (c.u16 0)).filter fun x => decide (c.u8 3 = 0) || decide ((tget {} (u.mirror c) x).sticky ≠ 0)
    let got := all.take (c.u8 2)
    let next := if got.length < c.u8 2 then none else match got.getLast? with
      | some x => (sourcesFrom (x + 1)).head?
      | none => none
    exec (.errorsRead src) s = anyEnded src
      (le 2 got.length ++ le 2 (next.getD 0xFFFF) ++ le 4 0 ++
        got.flatMap fun x => ((tget {} (u.mirror c) x).words x).flatMap fun w => le 8 w) u) ∧
  (∀ src s, ErrorsClearOk src s →
    let c := anyCtx src s
    let u := anyState src s
    let seq := (s.recs.seq + 1) % 2 ^ 32
    let r := (u.errRec (c.u16 0)).clear (BitVec.ofNat 64 (c.u64 8)) (u.heldBits (c.u16 0)) seq
    exec (.errorsClear src) s = anyEnded src (le 8 r.sticky.toNat ++ le 8 r.gen)
      (({ u with recs := { u.recs with seq := seq } }).putRec (c.u16 0) r)) ∧
  (∀ src rot ctc res s, AnyTaken src 0x73 s → s.saf.test.last = some (rot, ctc, res) →
    let slots := (List.range 50).map fun i =>
      BitVec.ofNat 8 ((List.range 4).foldl (fun a k => a + tget 0 res (4 * i + k) * 4 ^ k) 0)
    exec (.selftestStatus src) s = anyEnded src
      (le 4 rot ++ le 1 (if s.saf.test.enabled then 1 else 0) ++ le 1 (if s.saf.test.everDisabled then 1 else 0) ++ le 2 0 ++
        le 8 ctc ++ slots ++ le 1 s.saf.test.loopback ++ le 5 0) (anyState src s))

/-- CONFIG_ROOT_GET answers the epoch with the root, with the section roots, or a section's leaves; ATTEST answers a part of the
report it keeps for the nonce, made on its first use (10 R374; 13 R455, R456; 14 R482, R483). -/
def Obligations.RootsAndReports : Prop :=
  (∀ src mode s, RootGetOk src mode s →
    let c := anyCtx src s
    let u := anyState src s
    let all := (u.holders (c.u8 1)).filter fun x => decide (c.u16 2 ≤ x)
    let k := if c.i3c then 2 else 100
    exec (.configRootGet src) s = anyEnded src
      (if mode = 0 then le 4 s.cfgEpoch ++ le 4 0 ++ u.croot
       else if mode = 1 then le 4 s.cfgEpoch ++ le 4 0 ++ u.croot ++ (List.range 17).flatMap u.sroot
       else le 2 (min k all.length) ++ le 2 ((all.drop k).headD 0xFFFF) ++ le 4 s.cfgEpoch ++
         (all.take k).flatMap fun x => le 2 x ++ le 6 0 ++ u.leaf x (c.u8 1)) u) ∧
  (∀ src s, AttestOk src s →
    let c := anyCtx src s
    let u := anyState src s
    let nonce := c.pl.take 16
    let off := c.u16 0x10
    let n := if c.i3c then min 112 (258 - off) else 258 - off
    let part (rep : List Byte) : List Byte := le 2 258 ++ le 2 off ++ le 2 n ++ le 2 0 ++ (rep.drop off).take n
    exec (.attest src) s = match s.bs.reports.find? fun r => decide (r.1 = nonce) with
      | some r => anyEnded src (part r.2) u
      | none =>
        let t := u.attestReport nonce (if c.i3c then c.m - 64 else u.poster)
        anyEnded src (part t.1) { t.2 with bs := { t.2.bs with reports := (nonce, t.1) :: t.2.bs.reports } })

/-- LIFECYCLE_ADVANCE with a signature of one of the transition's keys completes and sets the transition and the warm reset 1 ms after it,
without one it ends ST_E_AUTH; THERMAL_POLICY answers the allowed power and keeps the mask, the nominal power and the handover bit it
names as the next ones; FW_STAGE of an image that passes every check completes, answers its versions and measurement and records them
in the staging record, of another one it ends with the status of the check that fails; FW_ACTIVATE completes, marks the staging record
active and sets the warm reset 1 ms later (13 R455, R460, R461; 14 R462, R474, R480, R481; 15 R507). -/
def Obligations.FirmwareCommands : Prop :=
  (∀ m keys s, LifecycleOk m keys s →
    let c := s.ctx m.val
    let u := s.takeMbx m.val
    let signed := keys.any fun k => edVerify k [] (le 8 s.otp.uid ++ le 1 s.otp.lc ++ le 1 (c.u8 0)) ((c.pl.drop 8).take 114)
    (signed = true → exec (.lifecycleAdvance m) s =
      ended m [] { u with bs := { u.bs with delayed := some (2, s.clk.elapsed + 1000000), lcTo := some (c.u8 0) } }) ∧
    (signed = false → exec (.lifecycleAdvance m) s = failed m stAuth 0 u)) ∧
  (∀ m s, ThermalPolicyOk m s →
    let c := s.ctx m.val
    let u := s.takeMbx m.val
    exec (.thermalPolicy m) s = ended m
      (le 2 s.heat.cool.allow ++ le 1 (if s.heat.cool.survival.isSome then 1 else 0) ++ le 5 0)
      { u with heat := { u.heat with cool := { u.heat.cool with
        newProtect := BitVec.ofNat 16 (c.u16 0), newNom := c.u16 2, handover := decide (c.u8 4 = 1) } } }) ∧
  (∀ m s, FwStageOk m s →
    let c := s.ctx m.val
    let u := s.takeMbx m.val
    let v := u.checkImage (u.rd (c.u64 0) (c.u32 8))
    (∀ f, v = .inl f → exec (.fwStage m true) s = ended m (le 4 f.version ++ le 4 f.rollback ++ f.meas)
      { u with bs := { u.bs with staging := some (c.u8 0xC, f.meas, false) } }) ∧
    (∀ code, v = .inr code → code ≤ fwLifecycle → exec (.fwStage m true) s = failed m 0x0200 code u) ∧
    (∀ code, v = .inr code → fwLifecycle < code → code ≤ fwDigest → exec (.fwStage m true) s = failed m stAuth 0 u) ∧
    (∀ code, v = .inr code → fwDigest < code → exec (.fwStage m true) s = failed m 0x0201 0 u)) ∧
  (∀ m meas act s, FwActivateOk m meas act s →
    let u := s.takeMbx m.val
    exec (.fwActivate m) s = ended m []
      { u with bs := { u.bs with
        staging := some ((s.ctx m.val).u8 0, meas, true), delayed := some (3, s.clk.elapsed + 1000000) } })

namespace Sys2Proof.Certs

/-! ### Twin, camera, display and planning commands -/

/-- TWIN_PAIR of an unpaired member, whose record keeps its form, with entropy left. -/
abbrev TwinPairOk (m : Fin 64) (s : State) : Prop :=
  let c := s.ctx m.val
  Taken m 0x80 s ∧ c.u8 8 ≤ 1 ∧ recPad c = none ∧ s.noEntropy = false ∧ s.tw.st ≠ 1

/-- The record is one this member may accept: it is a member, and the OEM root key is OTP's and the one presented before (13 R454;
14 R477). -/
def pairAllowed (s : State) (r : List Byte) : Bool :=
  (s.memberOf r).isSome && s.otp.rootOk (recRoot r) && (match s.bs.oemKey with
    | some k => decide (k = recRoot r)
    | none => true)

/-- TWIN_ROLE at the PRIMARY, no section of it refusing. -/
abbrev TwinRoleOk (m : Fin 64) (diff : List Nat) (det : Bool) (s : State) : Prop :=
  let c := s.ctx m.val
  Taken m 0x81 s ∧ c.u8 0 ≤ 2 ∧ c.u8 1 = 0 ∧ (BitVec.ofNat 16 (c.u16 2)).getLsbD 0 = false ∧ (BitVec.ofNat 16 (c.u16 4)).getLsbD 0 = false ∧
    c.u16 6 = 0 ∧ s.tw.st = 1 ∧ s.tw.role = 0 ∧ (s.takeMbx m.val).roleConflict (BitVec.ofNat 16 (c.u16 2)) diff det = none

/-- STAND_DOWN of a member in PARTNER_LOST. -/
abbrev StandDownOk (m : Fin 64) (s : State) : Prop :=
  let c := s.ctx m.val
  Taken m 0x81 s ∧ c.u8 0 ≤ 2 ∧ c.u8 1 = 1 ∧ c.u16 2 % 2 = 0 ∧ c.u16 4 % 2 = 0 ∧ c.u16 6 = 0 ∧ s.tw.st = 2

/-- TWIN_HANDOVER of partitions mirrored, published here and TWIN_READY, no other handover running. -/
abbrev HandoverOk (m : Fin 64) (s : State) : Prop :=
  let c := s.ctx m.val
  let mask := BitVec.ofNat 16 (c.u16 0)
  Taken m 0x82 s ∧ mask.getLsbD 0 = false ∧ c.u8 2 ≤ 1 ∧ c.fld 3 5 = 0 ∧ s.tw.st = 1 ∧ s.tw.hand = none ∧
    ∀ p < 16, mask.getLsbD p = true → s.mirrored p = true ∧ s.publishes p = true ∧ (s.twp p).ready = true

/-- STREAM_BIND in range of a slot that is free for the sender. -/
abbrev StreamBindOk (m : Fin 64) (s : State) : Prop :=
  let c := s.ctx m.val
  let u := s.takeMbx m.val
  Taken m 0x50 s ∧ Passes (u.streamFields c) (u.streamConds c (16 * c.u8 0 + c.u8 1))

/-- STREAM_UNBIND of a slot whose claim the mailbox holds. -/
abbrev StreamUnbindOk (m : Fin 64) (x : Claim) (s : State) : Prop :=
  let c := s.ctx m.val
  Taken m 0x51 s ∧ c.u8 0 ≤ 15 ∧ c.u8 1 ≤ 15 ∧ c.fld 2 6 = 0 ∧ s.claimOf 0x20 (16 * c.u8 0 + c.u8 1) = some x ∧ x.mbx = m.val

/-- DISPLAY_BIND in range of a transmit port that is free, and has no change waiting. -/
abbrev DisplayBindOk (m : Fin 64) (s : State) : Prop :=
  let c := s.ctx m.val
  let u := s.takeMbx m.val
  Taken m 0x52 s ∧ firstBad (u.displayFields c) = none ∧ u.claimOf 0x21 (c.u8 0) = none ∧ u.conflicts 0x21 (c.u8 0) 0 = [] ∧
    (u.display (c.u8 0)).next = none

/-- WORLD_UPDATE by the planning owner, its list in the region and accepted whole. -/
abbrev WorldUpdateOk (m : Fin 64) (s : State) : Prop :=
  let c := s.ctx m.val
  let u := s.takeMbx m.val
  Taken m 0x60 s ∧ (u.part c.part).role = 1 ∧ c.daOk 0 = true ∧ c.u64 0 % 8 = 0 ∧ 1 ≤ c.u16 8 ∧ c.u16 8 ≤ 1024 ∧ c.fld 10 6 = 0 ∧
    (u.part c.part).inRegion (c.u64 0) (u.edits (c.u64 0) (c.u16 8)).2 = true ∧
    ((u.eng u.liveEngine).ahead u.detSearches).firstRefused u.detSearches 0 (u.edits (c.u64 0) (c.u16 8)).1 = none

/-- PLAN_REQUEST with a good descriptor and a free ID; its engine is in service and holds fewer than 9 requests. -/
abbrev PlanRequestOk (m : Fin 64) (id : Nat) (s : State) : Prop :=
  let c := s.ctx m.val
  let u := s.takeMbx m.val
  let r : PlanReq := { mbx := m.val, part := c.part, desc := u.words (c.u64 0) 28 }
  Taken m 0x61 s ∧ (u.part c.part).role ≠ 0 ∧ c.daOk 0 = true ∧ c.u64 0 % 64 = 0 ∧ (u.part c.part).inRegion (c.u64 0) 224 = true ∧
    findLow (fun i => !u.planIdUsed i) 65536 0 = some id ∧ u.planOk c.part r = true ∧
    (u.eng (u.pickEngine r)).load < 9 ∧ u.engOut (u.pickEngine r) = false ∧
    (r.isDual = false ∨ u.holdsDual c.part = true)

/-- PLAN_CANCEL of a request of the sender's partition that waits in engine 0's queue, nothing of it running. -/
abbrev PlanCancelOk (m : Fin 64) (s : State) : Prop :=
  let c := s.ctx m.val
  Taken m 0x62 s ∧ c.u8 3 = 0 ∧ c.u32 4 = 0 ∧ (s.eng 0).cur = none ∧
    (s.eng 0).queue.any (fun r => decide (r.id = c.u16 0) && decide (r.gen = c.u8 2) && decide (r.part = c.part)) = true

end Sys2Proof.Certs

/-- TWIN_PAIR with a record that names this member and its root key starts pairing and waits, with another it ends ST_E_AUTH; TWIN_ROLE sets mode, mirror set and publishers, STAND_DOWN makes the member SECONDARY
and suspends its mirrored partitions, TWIN_HANDOVER asks the partner and waits (10 R354, R357, R368, R370; 13 R454). -/
def Obligations.TwinCommands : Prop :=
  (∀ m nonce s, TwinPairOk m s →
    let r := (s.ctx m.val).pl
    let u := (s.takeMbx m.val).presentRoot (recRoot r)
    (pairAllowed s r = true → exec (.twinPair m nonce) s =
      waiting m .pair (({ u with tw := { s.tw with
        record := some r, member := (s.memberOf r).getD 0, nonce := nonce, pairBy := s.clk.elapsed + 10000000000 } } : State).send
          (.auth nonce []))) ∧
    (pairAllowed s r = false → exec (.twinPair m nonce) s = failed m stAuth 0 (s.takeMbx m.val))) ∧
  (∀ m diff det s, TwinRoleOk m diff det s →
    let c := s.ctx m.val
    exec (.twinRole m diff det) s = onShare 0x81 none m s
      (ended m [] ((s.takeMbx m.val).applyRole (c.u8 0) (BitVec.ofNat 16 (c.u16 2)) (BitVec.ofNat 16 (c.u16 4))))) ∧
  (∀ m s, StandDownOk m s →
    let u := { s.takeMbx m.val with tw := { s.tw with role := 1, split := false, pub := 0 } }
    exec (.standDown m) s =
      ended m [] ((List.range 16).foldl (fun s p => if s.tw.mirror.getLsbD p then s.suspend p 8#8 else s) u)) ∧
  (∀ m s, HandoverOk m s →
    let c := s.ctx m.val
    let u := (s.takeMbx m.val).send (.command 0x82 c.part c.pl)
    exec (.twinHandover m) s = waiting m (.handover (c.u16 0)) { u with tw := { u.tw with
      hand := some (BitVec.ofNat 16 (c.u16 0), decide (c.u8 2 = 1), s.sch.frame.no) } })

/-- STREAM_BIND binds and claims a free slot, its first challenge going out, or holds a rebind for its frame start; STREAM_UNBIND
waits for the frame start; DISPLAY_BIND claims the port and waits for the first frame start at least 1 ms on (11 R380, R381, R391,
R396, R398). -/
def Obligations.StreamCommands : Prop :=
  (∀ m nonce s, StreamBindOk m s →
    let c := s.ctx m.val
    let u := s.takeMbx m.val
    let k := 16 * c.u8 0 + c.u8 1
    let b : Binding := { pl := c.pl, mbx := m.val, part := c.part }
    exec (.streamBind m nonce) s = match (s.stream k).bind with
      | some old => waiting m (.streamBind k) (u.modStream k fun x => { x with
          next := some b, waitUntil := s.clk.elapsed + old.timeoutNs, spare := nonce })
      | none =>
        let t : State := { u with claims := s.claims ++ [{ res := 0x20, inst := k, mbx := m.val, part := c.part }] }
        ended m [] ((t.modStream k fun _ => { bind := some b, trust := if b.flag 1 then 1 else 0, lastStart := s.clk.elapsed }).challenge
          k nonce)) ∧
  (∀ m x s, StreamUnbindOk m x s →
    let c := s.ctx m.val
    let k := 16 * c.u8 0 + c.u8 1
    exec (.streamUnbind m) s = waiting m (.streamUnbind k) ((s.takeMbx m.val).modStream k fun x => { x with unbind := true })) ∧
  (∀ m s, DisplayBindOk m s →
    let c := s.ctx m.val
    let p := c.u8 0
    let b : Binding := { pl := c.pl, mbx := m.val, part := c.part }
    let t : State := { s.takeMbx m.val with claims := s.claims ++ [{ res := 0x21, inst := p, mbx := m.val, part := c.part }] }
    exec (.displayBind m) s =
      waiting m (.displayBind p) (t.modDisplay p fun d => { d with next := some b, nextAt := s.clk.ctc + 1000000 }))

/-- WORLD_UPDATE is held at each engine in service and waits until all hold its epoch; PLAN_REQUEST joins its engine's queue and
answers ID, generation and engine; PLAN_CANCEL of a request that waits at engine 0 takes it out and its ID's generation advances (05 R156, R165, R176,
R177; 13 R450). -/
def Obligations.PlanningCommands : Prop :=
  (∀ m s, WorldUpdateOk m s →
    let c := s.ctx m.val
    let u := s.takeMbx m.val
    let es := (u.edits (c.u64 0) (c.u16 8)).1
    exec (.worldUpdate m) s = onShare 0x60 (some c.part) m s
      (waiting m (.world ((((u.eng u.liveEngine).ahead u.detSearches).epoch + 1) % 2 ^ 32))
        ((List.range 2).foldl (fun s e => if s.engOut e then s else s.modEng e fun y => { y with updates := y.updates ++ [es] }) u))) ∧
  (∀ m id s, PlanRequestOk m id s →
    let c := s.ctx m.val
    let u := s.takeMbx m.val
    let r : PlanReq := { mbx := m.val, part := c.part, desc := u.words (c.u64 0) 28 }
    let e := u.pickEngine r
    let g := tget 0 s.plan.gens id
    exec (.planRequest m) s = ended m (le 2 id ++ le 1 g ++ le 1 e ++ le 4 0)
      (u.modEng e fun x => { x with queue := x.queue ++ [{ r with id := id, gen := g }] })) ∧
  (∀ m s, PlanCancelOk m s →
    let c := s.ctx m.val
    let mine (r : PlanReq) : Bool := decide (r.id = c.u16 0) && decide (r.gen = c.u8 2) && decide (r.part = c.part)
    exec (.planCancel m) s =
      ended m [] (((s.takeMbx m.val).modEng 0 fun y => { y with queue := y.queue.filter fun r => !mine r }).endPlanId (c.u16 0)))

namespace Sys2Proof.Certs

/-! ### The Twin Link -/

/-- A good flit in sequence of class TIME or MIRROR, at a paired member. -/
abbrev FlitOk (port : Fin 2) (f : Flit) (s : State) : Prop :=
  f.crcOk = true ∧ f.cls ≠ 1 ∧ f.seq = (s.tport port.val).rxNext ∧ s.tw.st = 1

/-- A good flit in sequence that carries the CONTROL message awaited, none held. -/
abbrev ControlFlitOk (port : Fin 2) (f : Flit) (s : State) : Prop :=
  f.crcOk = true ∧ f.cls = 1 ∧ f.seq = (s.tport port.val).rxNext ∧ s.tw.st = 1 ∧ f.msgSeq = s.tw.ctlNext ∧ s.tw.ctlHeld = [] ∧
    s.tw.ctlNext < 2 ^ 32

/-- The port after a good flit in sequence (10 R352): the flits it acknowledges are gone, and what waits is sent while there is room. -/
def flitTaken (port : Fin 2) (f : Flit) (s : State) : State :=
  s.modTport port.val fun p => TwinPort.pump p.out.length { p with
    down := false, lastGood := s.clk.elapsed, acked := f.ack % 4096, rxNext := (p.rxNext + 1) % 4096
    replay := match p.replay.findIdx? fun g => decide (g.seq = f.ack % 4096) with
      | some i => p.replay.drop (i + 1)
      | none => p.replay }

/-- A live job of this rerun has ended at a partition the member took over. -/
abbrev RerunOk (job : Nat) (p : Nat) (drop : Bool) (s : State) : Prop :=
  p < 16 ∧ (s.job job).live = true ∧ (s.job job).cause.isSome = true ∧
    findLow (fun p => (s.twp p).rerun.any fun (x : Nat × Bool) => x.1 = job) 16 0 = some p ∧
    ((s.twp p).rerun.find? fun (x : Nat × Bool) => x.1 = job) = some (job, drop)

end Sys2Proof.Certs

/-- A good flit acknowledges, restores its port and delivers its message, CONTROL messages in order (10 R352, R353); an idle flit
goes out on a port that is up; a silent port goes down and records TWIN at UNIT level; the pairing exchange answers with this
member's signature and pairs where the partner's signature, certificate and version range hold, else fails with TWIN; a pairing
that times out ends its command (10 R355; 13 R454). -/
def Obligations.TwinLinkEvents : Prop :=
  (∀ port f s, FlitOk port f s → exec (.twinFlitReceive port f) s = .next ((flitTaken port f s).deliver f.msg)) ∧
  (∀ port f s, ControlFlitOk port f s →
    exec (.twinFlitReceive port f) s = .next
      (({ flitTaken port f s with tw := { (flitTaken port f s).tw with
          ctlNext := (s.tw.ctlNext + 1) % 2 ^ 32, ctlHeld := [] } } : State).deliver f.msg)) ∧
  (∀ port f s, f.crcOk = false → exec (.twinFlitReceive port f) s = .next s) ∧
  (∀ port s, (s.tport port.val).down = false → exec (.twinIdleFlit port) s = .next (s.modTport port.val fun p => p.post [{ msg := .idle }])) ∧
  (∀ port s, (s.tport port.val).down = false →
    exec (.twinPortDown port false) s = .next
      (((s.elapse ((s.tport port.val).lastGood + 30000 - s.clk.elapsed)).portDown port.val).record (srcIo port.val 6) 42 lvUnit {})) ∧
  (∀ nonce sig vmin vmax r s, s.tw.record = some r → s.tw.st ≠ 1 → s.tw.split = false →
    let me := s.tw.member
    let prim := decide (leNat (recBytes r 8 1) = me)
    let np := if prim then s.tw.nonce else nonce
    let ns := if prim then nonce else s.tw.nonce
    let fw := s.bs.fw.getD {}
    let t := s.send (.auth s.tw.nonce (edSign s.otp.skId (ascii "AZL-TWIN") (pairMsg r np ns fw.twinMin fw.twinMax)))
    exec (.pairingAuth nonce sig vmin vmax) s = .next
      (if (edVerify (recKey r (1 - me)) (ascii "AZL-TWIN") (pairMsg r np ns vmin vmax) sig &&
          edVerify (recRoot r) [] (recKey r (1 - me) ++ recUid r (1 - me)) (recCert r (1 - me)) && !s.noEntropy) = false then
        (t.record (srcIo 0 6) 42 lvUnit {}).finishAll .pair stAuth 0 []
      else if min fw.twinMax vmax < max fw.twinMin vmin then (t.record (srcIo 0 6) 42 lvUnit {}).finishAll .pair stVersion 0 []
      else t.enterPair r (min fw.twinMax vmax))) ∧
  (∀ s, s.waits .pair = true →
    exec .twinPairTimeout s = .next ((s.elapse (s.tw.pairBy - s.clk.elapsed)).finishAll .pair stTimeout 0 []))

/-- The launches of a pair (10 R359, R360, R362, R364; 08 R299): an acknowledged entry completes its launch, a missing
acknowledgement completes it alone and clears TWIN_READY; shared commands that are due apply in order; a mirror acknowledgement
releases the log up to its cut; a PUBLISHED mark is recorded; a forwarded LAUNCH_AT is judged here, and times out at its
sender with ST_E_TIMEOUT. -/
def Obligations.TwinLaunchEvents : Prop :=
  (∀ p step s, exec (.launchLogAck p step) s = .next (s.logDone fun q k => decide (q = p.val) && decide (k = step))) ∧
  (∀ p m step out s, m < 64 → (s.mbx m).wait = some (.launchLog p.val step out) →
    exec (.launchLogTimeout p) s = .next
      (((s.logDone fun q _ => decide (q = p.val)).modTwp p.val fun t => { t with ready := false }).postTwin 3 p.val)) ∧
  (∀ imgs s,
    exec (.sharedConfigApply imgs) s = .next
      (({ s with tw := { s.tw with shared := s.tw.shared.filter fun c => !s.sharedDue c } } : State).applyAll
        (s.tw.shared.filter s.sharedDue) imgs)) ∧
  (∀ p cut s, s.mirrored p.val = true → s.publishes p.val = true →
    exec (.mirrorAck p cut) s = .next (s.modTwp p.val fun t => { (t.release cut) with ready := t.cfgOk, lagPosted := false })) ∧
  (∀ p step s, exec (.publishedMark p step) s = .next
    (s.modTwp p.val fun t => { t with log := t.log.map fun e => if e.step = step then { e with marked := true } else e })) ∧
  (∀ m p step pl s, s.tw.st = 1 → exec (.twinLaunchAtForward m p step pl false) s = .next (s.forwardedAt m.val p.val step pl)) ∧
  (∀ m p step s, (s.mbx m.val).wait = some (.launchTwin p step) →
    exec (.twinLaunchAtTimeout m) s = .next (s.complete m.val stTimeout 0 []))

/-- Takeover (10 R365 to R368): on silence of both ports the member takes over every partition it stands by for and is
PARTNER_LOST and PRIMARY; a rerun that has ended posts its completion, or drops it where the step carries a PUBLISHED mark; a
DUAL_COMPARE launch is compared with the partner's signatures, or fails its shadow when none come (R358); roots that differ
record CFG_DIGEST (R377). -/
def Obligations.TakeoverEvents : Prop :=
  (∀ mask s, s.tw.st = 1 → s.bothDown = true →
    let t := s.elapse (max (s.tport 0).lastGood (s.tport 1).lastGood + 300000 - s.clk.elapsed)
    exec (.takeover mask) s = .next
      (((filterLow (fun p => (s.tw.mirror &&& ~~~s.tw.pub).getLsbD p) 16).foldl (fun s p => s.takeOver p false) t).losePartner)) ∧
  (∀ job p drop s, RerunOk job p drop s →
    let t := s.modTwp p fun t => { t with rerun := t.rerun.filter fun (x : Nat × Bool) => x.1 ≠ job }
    let gens := tput 0 t.sch.tagGen (65536 * (s.job job).mbx + (s.job job).tag) (((s.job job).gen + 1) % 256)
    let dropped : State := { t with sch := { t.sch with tagGen := gens } }
    exec (.takeoverRerunDone job) s = .next (if drop then dropped.modJob job fun _ => {} else t.closeJob job)) ∧
  (∀ job sigs s, (s.job job).live = true → (s.job job).dual = 3 → (s.job job).compared = false →
    exec (.dualCompareSignatures job (some sigs)) s = .next ((s.modJob job fun b => { b with sigsS := some sigs }).compareDual job) ∧
      exec (.dualCompareSignatures job none) s = .next ((s.modJob job fun b => { b with
        sigsS := some [], shadowFailed := true, sigsP := some (b.sigsP.getD []) }).compareDual job)) ∧
  (∀ port frame mine roots diff s, s.tw.st = 1 → s.rootsOf frame = some mine →
    let secs := s.comparedSections
    let t := (secs.drop 1).foldl (fun s p => s.modTwp p fun t => { t with cfgOk := true }) s
    exec (.twinRootCompare port frame roots diff) s = .next ((List.range secs.length).foldl (fun s i =>
      if mine.getD i 0 ≠ roots.getD i 0 then s.rootMismatch port.val (secs.getD i 0) (diff.getD i 0) else s) t))

/-! ### Mailboxes, registers, queues, links -/

/-- Host writes to a mailbox once mailboxes are open (12 R412, R417, R418): STATE moves to FILLING from FREE and DONE and to FREE from
FILLING and DONE, GO submits a FILLING mailbox through the endpoint that wrote it, and firmware rejects commands whose header fails;
a write the table does not have sets IGNORED and posts its record, or changes nothing while IGNORED is set; before LMP_READY every
write is ignored. -/
def Obligations.MailboxWrites : Prop :=
  (∀ m ep s, s.bs.lmpReady = true → ((s.mbx m.val).st = mbFree ∨ (s.mbx m.val).st = mbDone) →
    exec (.mbxStateFilling m ep) s = .next (s.modMbx m.val fun b => { b with st := mbFilling })) ∧
  (∀ m ep s, s.bs.lmpReady = true → ((s.mbx m.val).st = mbFilling ∨ (s.mbx m.val).st = mbDone) →
    exec (.mbxStateFree m ep) s = .next (s.modMbx m.val fun b => { b with st := mbFree })) ∧
  (∀ m ep s, s.bs.lmpReady = true → (s.mbx m.val).st = mbFilling →
    exec (.mbxGo m ep) s = .next ((s.modMbx m.val fun b => { b with st := mbSubmitted, goEp := ep.val }).rejectHeaders 64)) ∧
  (∀ m ep s, s.bs.lmpReady = true →
    let t := if (s.mbx m.val).ignored then s
      else (s.modMbx m.val fun b => { b with ignored := true }).record (srcIo s.saf.active 9) 10 lvMasked {}
    ((s.mbx m.val).st ≠ mbFilling → exec (.mbxGo m ep) s = .next t) ∧
    ((s.mbx m.val).st ≠ mbFree → (s.mbx m.val).st ≠ mbDone → exec (.mbxStateFilling m ep) s = .next t) ∧
    ((s.mbx m.val).st ≠ mbFilling → (s.mbx m.val).st ≠ mbDone → exec (.mbxStateFree m ep) s = .next t)) ∧
  (∀ m ep s, s.bs.lmpReady = false →
    exec (.mbxStateFilling m ep) s = .next s ∧ exec (.mbxStateFree m ep) s = .next s ∧ exec (.mbxGo m ep) s = .next s)

/-- A write to a register with no row of its own (00 R9, R10): a header is stored while its mailbox is FILLING (12 R416), the W1C bits
of CTC_STATUS clear (08 R293), an MSI-X entry is stored, SHARE of a sequence-table entry is stored (04 R114) and the state word's other
fields stay; an address that is no register takes nothing. The control of a window that is not enabled is stored, and one whose range
leaves the partition's region is not enabled but sets its bit of WIN_REJECT; of one that is enabled ENABLE and the access bits are stored
and the rest stays (12 R414). EVQ_IRQ takes ARM, HOLDOFF, THRESHOLD and the endpoint it was written through (12 R425). -/
def Obligations.RegisterWrites : Prop :=
  (∀ (m : Fin 64) ep v s, s.bs.lmpReady = true → (s.mbx m.val).st = mbFilling →
    exec (.registerWrite (.bar0 ep (0x10000 + 0x1000 * m.val + 8) true) v) s = .next (s.modMbx m.val fun b => { b with hdr := v })) ∧
  (∀ ep v s, exec (.registerWrite (.bar0 ep 0x4008 true) v) s = .next { s with clk := { s.clk with
    syncMissed := s.clk.syncMissed && !v.getLsbD 6, syncFar := s.clk.syncFar && !v.getLsbD 7 } }) ∧
  (∀ ep off v s, off < 16 * 66 - 7 →
    exec (.registerWrite (.bar4 ep off) v) s = .next (s.modEp ep.val fun e => { e with msix := memStore e.msix off (leBytes 8 v.toNat) })) ∧
  (∀ slot v s, exec (.registerWrite (.seqEntry slot 3) v) s = .next (s.modSeq slot.val fun q => { q with share := bits v 63 48 })) ∧
  (∀ da v s, exec (.registerWrite (.other da) v) s = .next s) ∧
  (∀ ep w v s, (tget 0 (s.ep ep.val).winCtrl w.val).getLsbD 63 = false →
    let x := v &&& 0xE000FF0000000FFF#64
    exec (.winCtrlWrite ep w v) s = .next (s.modEp ep.val fun e =>
      if x.getLsbD 63 && !s.winOk (tget 0 (s.ep ep.val).winBase w.val) x then
        { e with winCtrl := tput 0 e.winCtrl w.val (x &&& ~~~ 0x8000000000000000#64), reject := e.reject ||| BitVec.ofNat 16 (2 ^ w.val) }
      else { e with winCtrl := tput 0 e.winCtrl w.val x })) ∧
  (∀ ep w v s, (tget 0 (s.ep ep.val).winCtrl w.val).getLsbD 63 = true →
    let old := tget 0 (s.ep ep.val).winCtrl w.val
    let x := (v &&& 0xE000FF0000000FFF#64 &&& ~~~ 0x0000FF0000000FFF#64) ||| (old &&& 0x0000FF0000000FFF#64)
    exec (.winCtrlWrite ep w v) s = .next (s.modEp ep.val fun e => { e with winCtrl := tput 0 e.winCtrl w.val x })) ∧
  (∀ ep v s, exec (.evqIrqWrite ep v) s = .next { s with host := { s.host with irq :=
    { armed := v.getLsbD 32, holdoffUs := bits v 31 16, threshold := max 1 (bits v 15 0), ep := ep.val
      holdoffAt := if v.getLsbD 32 then s.host.irq.holdoffAt else none } } })

namespace Sys2Proof.Certs

/-- A queue other than the Event Queue. -/
abbrev Plain (q : QueueId) : Prop := q ≠ .evq

end Sys2Proof.Certs

/-- Spill Queues (07 R268 to R275; 12 R425): a push into an enabled queue with room is accepted, and one into a full queue is
dropped and counted (DROP) or held at its producer (STALL); a held push is accepted once there is room; a pop answers the oldest word
with bit 63 set, an empty queue answers 0; a refill brings up to 8 words, a spill takes 8; SQ_DROPPED is cleared by its read; an
empty disabled queue takes its place and size, and SQ_CTRL sets ENABLE and the policy. A push of the Event Queue is a group of one
word; the holdoff's end sends its vector. -/
def Obligations.SpillQueues : Prop :=
  (∀ q pl po s, Plain q → (s.q q.key).enable = true → 1 ≤ (s.q q.key).room →
    exec (.sqPush q pl po) s = .next (s.setQ q.key ((s.q q.key).accept (sqWord pl.toNat po)))) ∧
  (∀ q pl po s, Plain q → (s.q q.key).room = 0 →
    exec (.sqPush q pl po) s = .next (s.setQ q.key
      (if (s.q q.key).drop then { s.q q.key with dropped := satAdd 32 (s.q q.key).dropped 1, overflow := true }
       else { s.q q.key with stalled := (s.q q.key).stalled ++ [sqWord pl.toNat po] }))) ∧
  (∀ pl po s, (s.q 0).enable = true → (s.q 0).lost = 0 → 1 ≤ (s.q 0).room → s.urgent (sqWord pl.toNat po).toNat = false →
    exec (.sqPush .evq pl po) s = .next ((s.setQ 0 ((s.q 0).accept (sqWord pl.toNat po))).pushedIrq)) ∧
  (∀ q w rest s, (s.q q.key).stalled = w :: rest → (s.q q.key).enable = true → 1 ≤ (s.q q.key).room →
    exec (.sqStalledPushAccept q) s = .next (s.setQ q.key { (s.q q.key).accept w with stalled := rest })) ∧
  (∀ q w rest s, tabWf ({} : SpillQ) s.queues = true → (s.q q.key).settle.head = (w, false) :: rest → parityOf w.toNat 64 = false →
    ∃ u, exec (.sqPop q true 0) s = .next u ∧ u.host.read.data = leBytes 8 (deliver w false).toNat ∧ u.recs = s.recs ∧ u.mem = s.mem ∧
      (u.q q.key).count + 1 = (s.q q.key).count) ∧
  (∀ q s, Plain q → tabWf ({} : SpillQ) s.queues = true → (s.q q.key).count = 0 →
    ∃ u, exec (.sqPop q true 0) s = .next u ∧ u.host.read.data = leBytes 8 0 ∧ u.host.irq = s.host.irq) ∧
  (∀ q poison s, s.ringUnreachable (s.q q.key) = false →
    exec (.sqRefillDone q poison) s = .next
      ((s.setQ q.key (({ s.q q.key with linkLost := false }).refill poison).settle).serveWaiting q 16)) ∧
  (∀ q s, s.ringUnreachable (s.q q.key) = false → 8 ≤ (s.q q.key).tail.length → (s.q q.key).mid.length + 8 ≤ (s.q q.key).size →
      16 ≤ (s.q q.key).head.length + 8 * (s.q q.key).mid.length →
    exec (.sqSpill q false .ok) s = .next (s.setQ q.key
      { s.q q.key with
        mid := (s.q q.key).mid ++ (s.q q.key).tail.take 8, tail := (s.q q.key).tail.drop 8, spilled := (s.q q.key).spilled + 8 })) ∧
  (∀ q s, s.ringUnreachable (s.q q.key) = false →
    exec (.sqSpill q true .ok) s = .next ((s.setQ q.key (((s.q q.key).refill []).settle)).serveWaiting q 16)) ∧
  (∀ q s, exec (.sqDroppedRead q) s = .next
    ((s.setQ q.key { s.q q.key with dropped := 0 }).answer (leBytes 8 (s.q q.key).dropped) false)) ∧
  (∀ q v s, Plain q → (s.q q.key).enable = false → (s.q q.key).count = 0 → (s.q q.key).spillFault = false →
      s.ringOk q (s.q q.key) = true →
    exec (.sqCtrlWrite q v) s = .next (s.setQ q.key { s.q q.key with
      enable := v.getLsbD 0, drop := v.getLsbD 1, via := if v.getLsbD 0 then s.route (s.queueHome q) else (s.q q.key).via })) ∧
  (∀ q v s, (s.q q.key).enable = false → (s.q q.key).count = 0 →
    exec (.sqConfigWrite q false v) s = .next (s.setQ q.key { s.q q.key with base := v.toNat % 2 ^ 52 / 64 * 64 }) ∧
    (sizeOk (v.toNat % 2 ^ 21) = true →
      exec (.sqConfigWrite q true v) s = .next (s.setQ q.key { s.q q.key with size := v.toNat % 2 ^ 21 }))) ∧
  (∀ t s, s.host.irq.armed = true → s.host.irq.holdoffAt = some t →
    exec .evqHoldoffExpiry s = .next ((s.elapseTo t).fireIrq))

/-- The PCIe links (12 R406, R407; 14 R465; 16 R520): down, up, D3hot, function level reset and PERST change the endpoint, what its
rings reach, and the pops that wait for them, and nothing else, but that the first link at L0 opens WAIT_IMAGE. -/
def Obligations.PcieLinks : Prop :=
  (∀ ep s, exec (.pcieLinkDown ep) s = .next (s.setLink ep.val fun e => { e with linkUp := false })) ∧
  (∀ ep s, s.saf.identOk = true → (s.ep ep.val).perst = false →
    let t := s.setLink ep.val fun e => { e with linkUp := true }
    exec (.pcieLinkUp ep) s = .next
      (if t.bs.stage = stReleased then { t with bs := { t.bs with stage := stWaitImage, waitSince := t.clk.elapsed } } else t)) ∧
  (∀ ep on s, exec (.d3hot ep on) s = .next (s.setLink ep.val fun e => { e with d3hot := on })) ∧
  (∀ ep s, exec (.functionLevelReset ep) s = .next (s.setLink ep.val fun e =>
    { e with d3hot := false, winBase := [], winCtrl := [], reject := 0, msix := [] })) ∧
  (∀ ep s, exec (.perst ep true) s = .next (s.setLink ep.val fun e =>
    { e with d3hot := false, winBase := [], winCtrl := [], reject := 0, msix := [], perst := true, linkUp := false })) ∧
  (∀ ep s, exec (.perst ep false) s = .next (s.setLink ep.val fun e => { e with perst := false })) ∧
  (∀ ep (f : Endpoint → Endpoint) (s : State), ∃ qs eps irq rd,
    s.setLink ep f = { s with queues := qs, host := { s.host with eps := eps, irq := irq, read := rd } })

/-- Accesses of the host through BAR2 and of the package to host memory (01 R42, R523; 12 R415): an access a window takes acts on the
partition's memory; one no window takes records DECODE, a read is an Unsupported Request and a write is discarded, as a poisoned one
is with DMA_READ at its endpoint; a completion brings its data to the requester that reads over that endpoint, a failed or missing one
brings none and records both ends; an 8-byte read of the CTC in halves latches its upper half (08 R293). -/
def Obligations.HostAccesses : Prop :=
  (∀ ep off n da p c s, s.bar2Da ep.val off n 61 = some (da, p) →
    exec (.bar2Access ep off (.read n) c) s = .next (s.readOp (.host ep (Fin.ofNat 16 p)) da n c)) ∧
  (∀ ep off d da p c s, s.bar2Da ep.val off d.length 62 = some (da, p) →
    exec (.bar2Access ep off (.write d) c) s = .next (s.writeOp (.host ep (Fin.ofNat 16 p)) da d c)) ∧
  (∀ ep off n c s, s.bar2Da ep.val off n 61 = none →
    let t := s.record (srcIo ep.val 5) 11 lvTask { addr := off }
    exec (.bar2Access ep off (.read n) c) s =
      .next { t with host := { t.host with read := { data := [], poison := false, refused := true } } }) ∧
  (∀ ep off d c s, s.bar2Da ep.val off d.length 62 = none →
    exec (.bar2Access ep off (.write d) c) s = .next (s.record (srcIo ep.val 5) 11 lvTask { addr := off })) ∧
  (∀ ep off c s, exec (.bar2Access ep off .poisoned c) s = .next (s.record (srcIo ep.val 5) 3 lvTask {})) ∧
  (∀ ep req da data s, s.hostReader ep.val req da (max 1 data.length) = true →
    let t := (s.record (srcIo ep.val 5) 3 lvTask (s.note req da)).answer [] false
    let failed := (t.record (reqSource req) 17 lvTask (t.note req da)).failReq req 17
    exec (.hostReadCompletion ep req da .ok data) s = .next ((s.wr da data).answer data false) ∧
    exec (.hostReadCompletion ep req da .poisoned data) s = .next
      (((s.record (srcIo ep.val 5) 3 lvTask (s.note req da)).answer data true).poisoned req da) ∧
    exec (.hostReadCompletion ep req da .unsupported data) s = .next failed ∧
    exec (.hostReadCompletion ep req da .aborted data) s = .next failed) ∧
  (∀ ep req da s, s.hostReader ep.val req da 1 = true →
    let t := (s.record (srcIo ep.val 5) 3 lvTask (s.note req da)).answer [] false
    exec (.hostReadTimeout ep req da) s = .next ((t.record (reqSource req) 17 lvTask (t.note req da)).failReq req 17)) ∧
  (∀ ep s,
    let t : State := { s with clk := { s.clk with latch := tput none s.clk.latch ep.val (some (s.clk.ctc / 2 ^ 32)) } }
    exec (.ctcLowRead ep) s = .next (t.answer (le 4 (s.clk.ctc % 2 ^ 32)) false))

/-- The I3C target ports (12 R430, R431; 14 R476): the first byte written sets the offset and the others follow it; a read of one byte
answers the byte at the offset; the common command codes set address and event enables or answer the port's characteristics; the recovery
port takes the first byte of its image and those behind it, and RCV_GO ends it; a target that joins the package's own bus gets an address. -/
def Obligations.I3cPorts : Prop :=
  (∀ (l : Fin 2) off b bs s,
    exec (.i3cPrivateWrite l false (off :: b :: bs)) s = .next
      ((b :: bs).foldl (fun s b => s.smWriteByte l.val b) (s.modSm l.val fun t => { t with offset := off.toNat })) ∧
    exec (.i3cPrivateWrite l true (off :: b :: bs)) s = .next
      ((b :: bs).foldl (fun s b => s.rcvWriteByte l.val b)
        { s with bs := { s.bs with rcvOff := tput 0 s.bs.rcvOff l.val off.toNat } })) ∧
  (∀ l s, exec (.i3cPrivateRead l false 1) s = .next ((s.smReadByte l.val).2.answer [(s.smReadByte l.val).1] false) ∧
    exec (.i3cPrivateRead l true 1) s = .next ((s.rcvReadByte l.val).2.answer [(s.rcvReadByte l.val).1] false)) ∧
  (∀ l a s, (s.sm l.val).dynAddr = none →
    exec (.i3cCcc l (.entdaa a)) s = .next (s.modSm l.val fun t => { t with dynAddr := some (a % 128) }) ∧
    exec (.i3cCcc l (.setdasa (0x2A + l.val) a)) s = .next (s.modSm l.val fun t => { t with dynAddr := some (a % 128) })) ∧
  (∀ l s, exec (.i3cCcc l .rstdaa) s = .next (s.modSm l.val fun t => { t with dynAddr := none })) ∧
  (∀ l e s, exec (.i3cCcc l (.enec e)) s = .next (s.modSm l.val fun t => { t with events := t.events ||| e % 256 })) ∧
  (∀ l e s, exec (.i3cCcc l (.disec e)) s = .next (s.modSm l.val fun t => { t with events := t.events - (t.events &&& e) })) ∧
  (∀ l s, exec (.i3cCcc l .getpid) s = .next (s.answer (leBytes 6 (Config.i3cReg l.val 0)) false) ∧
    exec (.i3cCcc l .getbcr) s = .next (s.answer (leBytes 1 (Config.i3cReg l.val 1)) false) ∧
    exec (.i3cCcc l .getdcr) s = .next (s.answer (leBytes 1 (Config.i3cReg l.val 2)) false) ∧
    exec (.i3cCcc l .getstatus) s = .next (s.answer (leBytes 2 (Config.i3cReg l.val 3)) false) ∧
    exec (.i3cCcc l .getmwl) s = .next (s.answer (leBytes 2 (Config.i3cReg l.val 4)) false) ∧
    exec (.i3cCcc l .getmrl) s = .next (s.answer (leBytes 3 (Config.i3cReg l.val 5)) false)) ∧
  (∀ l b s, s.rcvOpen l.val = true →
    exec (.rcvData l b) s = .next { s with bs := { s.bs with
      rcvBy := some l.val, stage := stRecoveryLoad, rcvState := 2, rcvErr := 0, rcvData := s.bs.rcvData ++ [b] } }) ∧
  (∀ l b s, s.bs.stage = stRecoveryWait → s.bs.rcvBy = none → s.bs.goEp = none →
    exec (.rcvData l b) s = .next { s with bs := { s.bs with
      rcvBy := some l.val, stage := stRecoveryLoad, rcvState := 2, rcvErr := 0, rcvData := s.bs.rcvData ++ [b] } }) ∧
  (∀ l s, s.bs.rcvBy = some l.val → s.bs.rcvState = 2 →
    exec (.rcvGo l) s = .next { s with bs := { s.bs with rcvState := 3, waitSince := s.clk.elapsed } }) ∧
  (∀ (side : Fin 2) i s, (side.val = 1 → s.cam.role = 0) →
      findLow (fun i => decide (tget 0 s.host.ctlTargets (128 * side.val + i) = 0)) 128 0 = some i →
    let targets := tput 0 s.host.ctlTargets (128 * side.val + i) ((Config.freeValue s.free).toNat % 2 ^ 7 + 1)
    exec (.hotJoin side) s = .next { s with free := s.free + 1, host := { s.host with ctlTargets := targets } })

namespace Sys2Proof.Certs

/-! ### Scheduling -/

/-- Spire `sp` serves task `i` of job `j` of partition `p` next, and may take it; `first` is the first free Spire, no test window holding
its Dome's scheduler. -/
abbrev DispatchOk (sp : Fin 64) (p j i first : Nat) (borrowed : Bool) (s : State) : Prop :=
  s.serves sp.val = some (p, borrowed) ∧ s.nextTask p sp.val = some (j, i) ∧ s.firstFree p (s.task j i).decl.shadow = some first ∧
    s.freeSpire p sp.val = true ∧ s.testing (.dome (Fin.ofNat 16 (first / 4))) = false

/-- A waiting task of a running job, no rerun of a takeover but its own being in the way. -/
abbrev WaitingOk (job idx : Nat) (s : State) : Prop :=
  let b := s.job job
  b.live = true ∧ b.cause = none ∧ b.startAt = none ∧ idx < b.tasks.length ∧ (s.task job idx).phase = .waiting ∧
    ((s.twp b.part).rerun = [] ∨ ((s.twp b.part).rerun.any fun (x : Nat × Bool) => x.1 = job) = true)

/-- A waiting task whose waits are all reached. -/
abbrev ReadyOk (job idx : Nat) (s : State) : Prop :=
  WaitingOk job idx s ∧ (s.task job idx).decl.waits.all (s.reached none job) = true

/-- The task of Spire `sp` is saving its context. -/
abbrev SavingOk (sp : Fin 64) (j i : Nat) (s : State) : Prop :=
  (s.spire sp.val).job = some (j, i) ∧ (s.task j i).phase = .saving

/-- A task of a quarantined Spire waits for failover, and Spire `to_` is free for it. -/
abbrev FailoverOk (sp : Fin 64) (j i to_ : Nat) (s : State) : Prop :=
  (s.jobIds.flatMap fun j => ((List.range (s.job j).tasks.length).filter fun i =>
    decide ((s.task j i).phase = .failover) && decide ((s.task j i).spire = sp.val)).map fun i => (j, i)).head? = some (j, i) ∧
    s.firstFree (s.job j).part (s.task j i).decl.shadow = some to_ ∧ s.runs (s.job j).part = true

/-- The Golden Tile slot or window of partition `p` in this frame starts here (06 R208, R210). -/
def slotAt (p : Nat) (s : State) : Nat :=
  if (s.part p).priv then s.sch.frame.start else match s.sch.frame.windows.find? fun w => w.1 = p with
    | some (_, a, _) => s.sch.frame.start + a
    | none => s.sch.frame.start

end Sys2Proof.Certs

/-- Tasks reach Spires (06 R213, R216 to R218; 02 R80, R81): a task whose waits are reached becomes ready, the virtual time of a client
that had none, and of its time-sliced partition, raised to the least of the active ones; a task that names what has FAILED ends with
cause DEPENDENCY; a free Spire's partition runs its next task on the first free Spire; a task of a quarantined Spire restarts from its
first tile on another, with its event. -/
def Obligations.TaskStarts : Prop :=
  (∀ job idx s, ReadyOk job idx s →
    let b := s.job job
    let t := if s.clientActive b.part b.mbx then s else s.modMbx b.mbx fun x => { x with vt := max x.vt (s.vtMin b.part) }
    let t1 := if s.partActive b.part ∨ (s.part b.part).priv then t else t.modPart b.part fun x => { x with vt := max x.vt s.lendMin }
    let u := t1.modTask job idx fun y => { y with phase := .ready, readyAt := s.clk.ctc }
    exec (.taskReady job idx) s = .next
      ((u.modJob job fun b => { b with readyAt := some (b.readyAt.getD s.clk.ctc) }).reclaimLent b.part)) ∧
  (∀ job idx s, WaitingOk job idx s → (s.task job idx).decl.waits.all (s.reached none job) = false →
      (s.task job idx).decl.waits.any (s.doomed none job) = true →
    exec (.taskReady job idx) s = .next (s.failTask job idx causeDependency 0 0)) ∧
  (∀ sp p j i first borrowed s, DispatchOk sp p j i first borrowed s →
    exec (.taskDispatch sp) s = .next (s.place j i first borrowed)) ∧
  (∀ sp j i to_ s, FailoverOk sp j i to_ s →
    let p := (s.job j).part
    let z := s.zeroStore to_ p
    let t := (z.modSpire to_ fun x => { x with job := some (j, i), preempt := none, retry := none }).modTask j i fun t => { t with
      phase := .running, spire := to_, since := z.clk.elapsed, arith := t.arith ||| 0x10#32, tiles := 0, band := 0 }
    exec (.taskFailover sp) s = .next ((t.wantStep to_).post 7 (srcDome (sp.val / 4)) 4 p [] false))

/-- A running task at its yield points (06 R220 to R222, R226; 02 R79): where it does not wait already it goes on if what it names is
reached and nothing pre-empts it, saves its context where it is to be pre-empted, ends with cause DEPENDENCY where what it names has
FAILED, and waits otherwise; a wait ends when it is reached, or after 50 µs frees its Spire for another task; a save writes the record
of R222 into the task's slot and frees the Spire, and one that meets an uncorrectable word quarantines it. -/
def Obligations.YieldPoints : Prop :=
  (∀ (sp : Fin 64) y ctx w dt j i s, s.running sp.val = some (j, i) → (s.task j i).waitSince = none →
    let t := (((s.elapse dt).settle sp.val).modTask j i fun t => { t with yield_ := y, ctx := ctx })
    let d := some (sp.val / 4)
    exec (.yieldPoint sp y ctx w dt) s = .next
      (if w.any (t.doomed d j) then t.failTask j i causeDependency 0 0
       else if (t.spire sp.val).preempt.isSome ∧ (t.spire sp.val).retry.isNone then t.modTask j i fun x => { x with phase := .saving, yWaits := w }
       else if w.all (t.reached d j) then t
       else t.modTask j i fun x => { x with waitSince := some t.clk.elapsed, yWaits := w })) ∧
  (∀ (sp : Fin 64) j i s, s.running sp.val = some (j, i) → (s.task j i).waitSince.isSome = true →
      (s.task j i).yWaits.all (s.reached (some (sp.val / 4)) j) = true →
    exec (.tokenWaitDone sp) s = .next (s.modTask j i fun t => { t with waitSince := none, yWaits := [] })) ∧
  (∀ (sp : Fin 64) j i t0 s, s.running sp.val = some (j, i) → (s.task j i).waitSince = some t0 →
      (s.nextTask (s.job j).part sp.val).isSome = true → s.firstFree (s.job j).part (s.task j i).decl.shadow = none →
      (s.spire sp.val).retry = none →
    exec (.yieldWaitTimeout sp) s = .next
      ((((s.elapse (t0 + 50001 - s.clk.elapsed)).settle sp.val).modSpire sp.val fun x => { x with preempt := some .yieldWait }).modTask
        j i fun t => { t with phase := .saving, waitSince := none })) ∧
  (∀ sp dt j i s, SavingOk sp j i s →
    let e := s.elapse dt
    let o := e.taskOrigin j i sp.val
    let base := spireStoreBase + sp.val * 0x400000
    let live := (e.task j i).live
    let t := live.foldl (fun t r => t.fetch o (base + 64 * r.1) (64 * r.2) []) e
    let v := t.store o (t.slotDa j i) (t.saveRecord j i sp.val) []
    let u := v.modTask j i fun x => { x with phase := .saved, readyAt := v.clk.ctc, waitSince := none }
    exec (.saveDone sp dt) s = .next
      (if live.any fun r => t.anyBad (base + 64 * r.1) (64 * r.2) then t.quarantine sp.val
       else (u.modJobAcct j fun a => { a with preempts := satAdd 32 a.preempts 1 }).modSpire sp.val fun x =>
         { x with job := none, preempt := none, keep := false }))

/-- The end of a task and of its budget (06 R217, R225, R232; 01 R37): it leaves its Spire, corrects its client's virtual time by what
it ran and its partition's by what it borrowed, advances its counters, and the last one ends the job; an overrun is recorded, counted,
posted and aborts the task but under REPORT, where four times the budget does; a Spire changes its clock between two tiles. -/
def Obligations.TaskEnds : Prop :=
  (∀ (sp : Fin 64) dt j i s, s.running sp.val = some (j, i) → (s.task j i).waitSince = none → (s.spire sp.val).retry = none →
    let t := (s.elapse dt).settle sp.val
    let b := t.job j
    let x := t.task j i
    let t1 := t.modMbx b.mbx fun y => { y with vt := vtCorrect y.vt (x.charge / 16000) x.decl.wcetUs y.weight }
    let t2 := if x.lentWcet then t1.modPart b.part fun y => { y with vt := vtCorrect y.vt (x.lent / 16000) x.decl.wcetUs y.share } else t1
    let t3 := if b.kind = .step then t2 else t2.modClient b.mbx fun a => { a with engine := satAdd 64 a.engine (engineUnits x.charge) }
    let t4 := (t3.leaveSpire j i).modTask j i fun y => { y with phase := .done }
    let t5 : State := { t4 with sch := { t4.sch with
      ctrs := x.decl.counters.foldl (fun y (c : Fin 16 × Fin 64) => tmod 0 y (64 * c.1.val + c.2.val) fun n => n + 1) t4.sch.ctrs } }
    let t6 := t5.modJob j fun y => { y with arith := arithMerge y.arith x.arith, engine := satAdd 64 y.engine (engineUnits x.charge) }
    exec (.taskEnd sp dt) s = .next
      (if (t6.job j).allDone ∧ (t6.job j).cause.isNone then
        (t6.modJob j fun y => { y with cause := some causeOk, endAt := t6.clk.ctc }).closeJob j
      else t6)) ∧
  (∀ (sp : Fin 64) j i s, s.running sp.val = some (j, i) → (s.task j i).overran = false →
    let t := s.chargeTo sp.val j i (s.task j i).decl.wcetUs
    let b := t.job j
    let d := srcDome (sp.val / 4)
    let t1 := (t.record d 20 lvTask { part := some b.part, source := some sp.val }).modJobAcct j fun a =>
      { a with overruns := satAdd 16 a.overruns 1 }
    let t2 := (t1.post 7 d 3 (b.gen * 2 ^ 24 + b.tag * 2 ^ 8 + b.mbx * 4) [] false).modTask j i fun y => { y with overran := true }
    exec (.taskOverrun sp) s = .next (if (t2.part b.part).report then t2 else t2.failTask j i causeOverrun d 20)) ∧
  (∀ (sp : Fin 64) j i s, s.running sp.val = some (j, i) → (s.task j i).overran = true → (s.part (s.job j).part).report = true →
    exec (.overrunAbort sp) s = .next
      ((s.chargeTo sp.val j i (4 * (s.task j i).decl.wcetUs)).failTask j i causeOverrun (srcDome (sp.val / 4)) 20)) ∧
  (∀ (sp : Fin 64) s, (s.spire sp.val).retry = none → (s.spire sp.val).keep = false →
    exec (.spireFllRelock sp) s = .next
      (((s.settle sp.val).modSpire sp.val fun x => { x with clk := min (s.spire sp.val).want (s.tower (sp.val / 16)).limit }).lowerRail
        (sp.val / 16)))

/-- The frame (06 R207 to R213; 16 R521): its start restarts budgets, lays the windows and pre-empts what ran in the old ones, and the
pair's part of it follows; a window gives its owner the shared Spires, frees those held for it without a Golden Tile, and pre-empts the
rest at their next yield points; the slack follows the last window; a spatial partition's Spire that has used its budget is pre-empted,
once a frame with its event; FRAME_MARK falls 1 µs after the start. -/
def Obligations.FrameAndWindows : Prop :=
  (∀ s,
    let t := s.elapseTo s.sch.frame.next
    let t1 := (List.range 64).foldl (fun s sp => (s.settle sp).modSpire sp fun x => { x with used := 0, throttled := false }) t
    let t2 := t1.users.foldl (fun s p => s.modPart p fun x => { x with
      budgetUs := x.nextBudget.getD x.budgetUs, nextBudget := none, throttlePosted := false }) t1
    let f := s.sch.frame
    let t3 : State := { t2 with sch := { t2.sch with frame := { t2.sch.frame with
      no := f.next / (f.fUs * 1000), start := f.next, next := f.next + f.fUs * 1000, owner := none
      slack := t2.sliced.isEmpty, windows := t2.layWindows t2.sliced 0, golden := [], goldenBad := [] } } }
    let u := t3.preemptShared none .window
    exec .majorFrameStart s = .next ({ u with frameMark := u.claimed 2 } : State).twinFrame) ∧
  (∀ (p : Fin 16) q a b s, (s.sch.frame.windows.find? fun w => w.1 = p.val) = some (q, a, b) →
    let t := s.elapseTo (s.sch.frame.start + a)
    let u : State := { t with sch := { t.sch with frame := { t.sch.frame with owner := some p.val, slack := false } } }
    let v := if (s.part p.val).golden.isSome then u else (List.range 64).foldl (fun s sp =>
      if (s.spire sp).held = some p.val then s.modSpire sp fun x => { x with held := none } else s) u
    exec (.windowStart p) s = .next (v.preemptShared (some p.val) .windowEnd)) ∧
  (∀ o s, s.sch.frame.owner = some o →
    let t := s.elapseTo (s.sch.frame.start + s.sch.frame.windows.foldl (fun m w => max m w.2.2) 0)
    exec .slackStart s = .next
      (({ t with sch := { t.sch with frame := { t.sch.frame with owner := none, slack := true } } } : State).preemptShared none .windowEnd)) ∧
  (∀ (sp : Fin 64) j i s, s.running sp.val = some (j, i) → (s.part (s.job j).part).priv = true → (s.spire sp.val).throttled = false →
    let p := (s.job j).part
    let t := s.settle sp.val
    let u := ((t.elapse ((t.part p).budgetUs * 1000 - (t.spire sp.val).used)).settle sp.val).modSpire sp.val fun x =>
      { x with throttled := true, preempt := if x.job.isSome then some .budget else x.preempt }
    exec (.budgetExhausted sp) s = .next
      (if (u.part p).throttlePosted then u
       else (u.modPart p fun x => { x with throttlePosted := true }).post 7 (srcDome (sp.val / 4)) 1 p [] false)) ∧
  (∀ s, s.frameMark = true →
    exec .frameMarkEnd s = .next { s.elapseTo (s.sch.frame.start + 1000) with frameMark := false })

/-- Golden Tiles (06 R203, R210, R211; 09 R329, R330): the lead holds the Spires of the slot or STRICT window and pre-empts what they run;
the slot runs on every Spire of the set in service, its Store zeroed where it last served another partition; a matching signature ends
the Spire's run, a wrong one records GOLDEN and quarantines the Spire; at the slot's end a missing one does so too, the Spires are free
again, and the slot counts against the budget and in the partition's record. -/
def Obligations.GoldenTiles : Prop :=
  (∀ (p : Fin 16) s, (s.part p.val).live = true →
      (s.part p.val).golden.isSome = true ∨ (s.part p.val).strict = true ∧ (s.part p.val).priv = false →
    let t := s.elapseTo (s.slotStart p.val - s.reclaimNs p.val)
    exec (.reclaimLead p) s = .next ((List.range 64).foldl (fun s sp =>
      if s.inSet p.val sp && !(s.spire sp).quarantined then
        s.modSpire sp fun x => { x with
          held := some p.val, preempt := if x.job.isSome then some .reclaim else x.preempt, keep := x.keep || x.job.isSome }
      else s) t)) ∧
  (∀ (p : Fin 16) s, (s.part p.val).live = true → (s.part p.val).golden.isSome = true →
    let t := s.elapseTo (slotAt p.val s)
    let u : State := { t with sch := { t.sch with frame := { t.sch.frame with
      golden := p.val :: t.sch.frame.golden, goldenBad := tput 0 t.sch.frame.goldenBad p.val 0 } } }
    exec (.goldenTileSlot p) s = .next ((List.range 64).foldl (fun s sp =>
      if s.inSet p.val sp && !(s.spire sp).quarantined then
        (s.zeroStore sp p.val).modSpire sp fun x => { x with held := some p.val, goldenRun := true }
      else s) u)) ∧
  (∀ (sp : Fin 64) sig p g s, (s.spire sp.val).goldenRun = true → (s.spire sp.val).held = some p → (s.part p).golden = some g →
    let t := s.modSpire sp.val fun x => { x with goldenRun := false }
    exec (.goldenTileSignature sp sig) s = .next (if g.sig = sig then t else t.goldenMismatch p sp.val)) ∧
  (∀ (p : Fin 16) g s, (s.part p.val).golden = some g → p.val ∈ s.sch.frame.golden →
    let t := s.elapseTo (slotAt p.val s + g.gtUs * 1000)
    let t1 := (List.range 64).foldl (fun s sp =>
      if (s.spire sp).goldenRun && decide ((s.spire sp).held = some p.val) then
        (s.modSpire sp fun x => { x with goldenRun := false }).goldenMismatch p.val sp else s) t
    let t2 := (List.range 64).foldl (fun s sp =>
      if (s.spire sp).held = some p.val then
        (s.modPartAcct p.val fun a => { a with engine := satAdd 64 a.engine (engineUnits (g.gtUs * 1000 * (s.spire sp).clk)) }).modSpire
          sp fun x => { x with held := none, used := x.used + g.gtUs * 1000 }
      else s) t1
    exec (.goldenTileSlotEnd p) s = .next
      { t2 with sch := { t2.sch with frame := { t2.sch.frame with golden := t2.sch.frame.golden.erase p.val } } })

namespace Sys2Proof.Certs

/-- Spire `sp` runs or saves task `i` of job `j`, whose stripe advances token `t` of Dome `d`; it holds no tile to recompute and its
writes are acknowledged; `b1` ends the stripe's next band. -/
abbrev BandDone (d : Fin 16) (t : Fin 64) (b1 sp j i : Nat) (s : State) : Prop :=
  (s.advancer fun x => x.tokens.any fun y => decide (y.1 = d) && decide (y.2.1 = t)) = some (sp, j, i) ∧
    (s.spire sp).retry = none ∧ s.writesAcked sp = true ∧ (s.task j i).band < b1 ∧
    ((s.task j i).decl.tokens.any fun y => decide (y.1 = d) && decide (y.2.1 = t) && decide (y.2.2.1 < b1) && decide (b1 ≤ y.2.2.2)) = true

/-- Spire `sp` runs the consumer of row ring token `t` of Dome `d`, and its reads have been served. -/
abbrev RingReadsDone (d : Fin 16) (t : Fin 64) (sp j i : Nat) (s : State) : Prop :=
  (s.advancer fun x => x.reads.any fun y => decide (y.1 = d) && decide (y.2.1 = t)) = some (sp, j, i) ∧ s.readsDone sp = true

end Sys2Proof.Certs

/-- Row tokens (03 R96, R97, R99, R101): the end of a stripe's next band raises its token to that band's last row plus 1, never lowering
it; a shadow rises to what its token has reached, and any other update of it is late and counted; a ring read token takes the next
band's first row. -/
def Obligations.RowTokens : Prop :=
  (∀ (d : Fin 16) (t : Fin 64) b1 sp j i s, tabWf 0 s.sch.tokens = true → b1 < 2 ^ 16 → BandDone d t b1 sp j i s →
    ∃ u, exec (.rowTokenAdvance d t b1) s = .next u ∧
      u = { s.modTask j i fun x => { x with band := b1 } with sch := {
        (s.modTask j i fun x => { x with band := b1 }).sch with tokens := u.sch.tokens } } ∧
      (∀ k, tget 0 u.sch.tokens k = if k = 64 * d.val + t.val then max (tget 0 s.sch.tokens k) b1 else tget 0 s.sch.tokens k)) ∧
  (∀ (d src : Fin 16) (t : Fin 64) v s, tabWf 0 s.sch.shadows = true → v < 2 ^ 16 →
      tget 0 s.sch.shadows (shadowKey d.val src.val t.val) < v → v ≤ tget 0 s.sch.tokens (64 * src.val + t.val) →
    ∃ u, exec (.tokenShadowUpdate d src t v) s = .next u ∧ u = { s with sch := { s.sch with shadows := u.sch.shadows } } ∧
      (∀ k, tget 0 u.sch.shadows k = if k = shadowKey d.val src.val t.val then v else tget 0 s.sch.shadows k)) ∧
  (∀ (d src : Fin 16) (t : Fin 64) v s, v < 2 ^ 16 →
      v ≤ tget 0 s.sch.shadows (shadowKey d.val src.val t.val) ∨ tget 0 s.sch.tokens (64 * src.val + t.val) < v →
    exec (.tokenShadowUpdate d src t v) s = .next (s.stale (srcDome d.val))) ∧
  (∀ (d : Fin 16) (t : Fin 64) lo hi sp j i s, tabWf 0 s.sch.reads = true → RingReadsDone d t sp j i s →
    ∃ u, exec (.ringReadTokenAdvance d t lo hi) s = .next u ∧ u = { s with sch := { s.sch with reads := u.sch.reads } } ∧
      (∀ k, tget 0 u.sch.reads k =
        if k = 64 * d.val + t.val then (lo.getD (hi + 1)) % 2 ^ 16 else tget 0 s.sch.reads k))

namespace Sys2Proof.Certs

/-! ### Tiles, sorts, gathers, appends, steps -/

/-- A tile of a task that runs on Spire `sp` and does not wait, none waiting for its recomputation, no test window holding the Spire. -/
abbrev TileOk (sp : Fin 64) (j i : Nat) (s : State) : Prop :=
  s.running sp.val = some (j, i) ∧ (s.spire sp.val).retry = none ∧ (s.task j i).waitSince = none ∧ s.testing (.spire sp) = false

/-- A tile held for its recomputation. -/
abbrev RetryOk (sp : Fin 64) (j i : Nat) (h : HeldTile) (s : State) : Prop :=
  s.running sp.val = some (j, i) ∧ (s.spire sp.val).retry = some h ∧ s.testing (.spire sp) = false

/-- The partials of a reduction whose task acts on Spire `sp` can all be read; `t` is the state that reading them leaves. -/
abbrev ReadsOk (sp : Fin 64) (rs : List (Nat × Nat)) (t s : State) : Prop :=
  s.acts (.spire sp) = true ∧ s.readRanges (.spire sp) sp.val rs = (t, none)

/-- An atomic operation that its requester may make, on a word of a memory unit, over a link that is up. -/
abbrev AtomicOk (req : Requester) (op : AtomicOp) (da : Nat) (s : State) : Prop :=
  s.acts req = true ∧ (op = .addF32 → s.saf.det = false) ∧ s.allowed req da 4 true = true ∧ s.kindRange da 4 ≠ some .unit ∧
    s.hostCut req da 4 = false

/-- The oldest request of an idle Score Sorter that no test window holds, of a task that goes on and runs on Spire `sp`, whose descriptor
may be read; `t` is the state that reading it leaves. -/
abbrev SortStartOk (d : Fin 16) (r : SortReq) (rest : List SortReq) (sp : Nat) (t s : State) : Prop :=
  let u := s.modSorter d.val fun x => { x with queue := rest ++ x.stalled.take 1, stalled := x.stalled.drop 1, again := false }
  (s.sorter d.val).cur = none ∧ (s.sorter d.val).queue = r :: rest ∧ s.testing (.sorter d) = false ∧ s.liveRun r.task = true ∧
    s.sortSpire r = some sp ∧ r.da % 64 = 0 ∧ s.reach (s.job r.task.1).part sp r.da 40 false = true ∧
    t = u.fetch (u.origin (sorterOf d.val sp)) (resolve sp r.da) 40 [] ∧ t.anyBad (resolve sp r.da) 40 = false

/-- The words of a sort request's descriptor. -/
def sortWords (t : State) (sp da : Nat) : List W64 := (List.range 5).map fun i => BitVec.ofNat 64 (t.rdNat (resolve sp da + 8 * i) 8)

/-- The next tile of gather `n` of a Dome, which nothing holds up; `t` and `das` are what translating its rows gives, `u` is the state
that reading them, and the weights of an expansion, leaves. -/
abbrev GatherTileOk (d : Fin 16) (n : Nat) (g : Gather) (t : State) (das : List Nat) (u s : State) : Prop :=
  let s := s.pruneGathers d.val
  let f := gatherFields g.desc
  let q := s.sq (slotOf f.handle)
  s.testing (.gather d) = false ∧
    ((s.gathers d.val).findIdx? fun g => !s.liveRun g.task || s.gatherReady d.val g) = some n ∧ (s.gathers d.val)[n]? = some g ∧
    s.liveRun g.task = true ∧ s.latentRows g.sp f none (f.first + 32 * g.tile) (min 32 (f.count - 32 * g.tile)) = (t, .inl das) ∧
    t.gatherReads g.sp (das.map (fun a => (a, q.rowBytes)) ++
      weightReads f g.wf (64 * q.dc64) (t.storeSlice (t.job g.task.1).part d.val).1) = (u, none)

/-- A row that a task of the running step of a live sequence may append, its page translating. -/
abbrev AppendOk (sp : Fin 64) (handle layer pos : Nat) (data : List Byte) (j i : Nat) (t : State) (ppn : Nat) (s : State) : Prop :=
  let slot := slotOf handle
  let q := s.sq slot
  s.running sp.val = some (j, i) ∧ (s.task j i).waitSince = none ∧ s.liveHandle (s.job j).part handle = true ∧
    s.stepHolds j handle = true ∧ (s.task j i).decl.backward = false ∧ q.l0 ≤ pos ∧ pos < q.l0 + q.a ∧ layer < q.nl ∧
    data.length = q.rowBytes ∧ s.translate sp.val slot (pos / max 1 q.tpp * q.nl + layer) = (t, .page ppn)

/-- The first group with a step to build: none of it running or being built, the partition running, `c` its first candidate. -/
abbrev StepBuildOk (p : Fin 16) (image : Nat) (phase : Fin 4) (c : Nat × Nat × Option Nat × Nat) (tl : List (Nat × Nat × Option Nat × Nat))
    (s : State) : Prop :=
  let cands := s.groupCands p.val image phase.val
  let left (i : Nat) : Bool := decide ((p.val, image, phase.val, i) ∈ s.sch.leftOut)
  s.groupBusy p.val image phase.val = false ∧ s.runs p.val = true ∧ s.earlierDue p.val image phase.val = false ∧
    ((cands.filter fun x => left x.1) ++ cands.filter fun x => !left x.1) = c :: tl

end Sys2Proof.Certs

/-- A tile (02 R75 to R79; 06 R222): one whose operands can be read and whose checks pass is computed and written; one whose checks fail is
held; a recomputation that passes is counted as masked, its time added to the task's, and written; one that fails quarantines its
Spire, and so do an uncorrectable error of its Store and more than 16 masked mismatches within 1 s. -/
def Obligations.Tiles : Prop :=
  (∀ (sp : Fin 64) op f dt j i s, TileOk sp j i s →
    let t := (s.elapse dt).settle sp.val
    exec (.tileComplete sp op f dt) s = .next
      (if f.storeUe then (t.record sp.val 6 lvTask {}).quarantine sp.val
       else t.tileRead sp op fun t =>
         if tileMismatch op f || (t.spire sp.val).mismatch then
           t.modSpire sp.val fun x => { x with retry := some ⟨op, (t.task j i).charge⟩, mismatch := false }
         else t.tileDone sp j i op f false)) ∧
  (∀ (sp : Fin 64) f dt j i h s, RetryOk sp j i h s →
    let t := (s.elapse dt).settle sp.val
    f.storeUe = false → tileMismatch h.op f = false → (t.spire sp.val).mismatch = false →
    let now := t.clk.elapsed
    let t1 := t.modTask j i fun x => { x with retry := x.retry + (x.charge - h.charge) / 16 }
    let t2 := t1.modSpire sp.val fun x => { x with retry := none, masked := now :: x.masked.filter fun y => decide (now < y + 1000000000) }
    let t3 := t2.record sp.val 21 lvMasked { part := some (t2.job j).part, source := some sp.val }
    let u := t3.tileRead sp h.op fun t => t.tileDone sp j i h.op f true
    exec (.tileRetryDone sp f dt) s = .next (if 16 < (u.spire sp.val).masked.length then u.quarantine sp.val else u)) ∧
  (∀ (sp : Fin 64) f dt j i h s, RetryOk sp j i h s → f.storeUe = false → tileMismatch h.op f = true →
    exec (.tileRetryDone sp f dt) s = .next (((s.elapse dt).settle sp.val).quarantine sp.val)) ∧
  (∀ (sp : Fin 64) f dt j i h s, RetryOk sp j i h s → f.storeUe = true →
    exec (.tileRetryDone sp f dt) s = .next ((((s.elapse dt).settle sp.val).record sp.val 6 lvTask {}).quarantine sp.val))

/-- The fixed-order reduction and the sums in arrival order (08 R278, R280 to R282): what they store, at the addresses the command names,
in element order; with DET_MODE set nothing is added in arrival order; an atomic operation answers the word as it was. -/
def Obligations.Reductions : Prop :=
  (∀ src out n t s, ReadsOk src.sp (src.das.map fun a => (a, 4 * n)) t s →
    exec (.detReduction src out n) s = .next (t.writeOp (.spire src.sp) out ((List.range n).flatMap fun i =>
      leBytes 4 (detReduce (src.das.map fun a => BitVec.ofNat 32 (t.rdNat (resolve src.sp.val a + 4 * i) 4))).toNat) [])) ∧
  (∀ sp da v t s, s.saf.det = false → ReadsOk sp [(da, 4)] t s →
    exec (.arrivalOrderAdd sp da v) s = .next
      (t.writeOp (.spire sp) da (leBytes 4 (fadd (BitVec.ofNat 32 (t.rdNat (resolve sp.val da) 4)) v).toNat) [])) ∧
  (∀ sp da v s, s.saf.det = true → exec (.arrivalOrderAdd sp da v) s = .next s) ∧
  (∀ req op da v s, AtomicOk req op da s →
    let a := reqDa req da
    let old : W32 := BitVec.ofNat 32 (s.rdNat a 4)
    let t := s.store (s.origin req) a (leBytes 4 (atomicApply op old v).toNat) []
    exec (.atomicOp req op da v) s =
      .next (if (t.blocked a 4).isSome then t.poisoned req da else t.answer (leBytes 4 old.toNat) false)) ∧
  (∀ a b : W32, atomicApply .addI32 a b = a + b ∧ atomicApply .minI32 a b = (if a.toInt ≤ b.toInt then a else b) ∧
    atomicApply .maxI32 a b = (if a.toInt ≤ b.toInt then b else a))

/-- The Score Sorter (03 R103 to R110): a request of a task that does not wait joins its Dome's queue while that sorter is in service; the
oldest is taken and its descriptor read, and it starts where that is valid or ends with a sorter fault; an operation whose two copies
agree writes its output, one whose copies differ is repeated; a repeat that passes is counted and written, one that differs again takes
the sorter out of service, ends the operation and sends its pending requests elsewhere. -/
def Obligations.ScoreSorter : Prop :=
  (∀ (sp : Fin 64) da j i s, s.running sp.val = some (j, i) → (s.task j i).waitSince = none →
      tget false s.saf.sorterOut (sp.val / 4) = false →
    exec (.sortRequest sp da) s =
      .next (s.modSorter (sp.val / 4) fun x => x.enter { sp := sp.val, da := da, task := (j, i, (s.task j i).run) })) ∧
  (∀ (d : Fin 16) r rest sp t s, SortStartOk d r rest sp t s →
    let ws := sortWords t sp r.da
    exec (.sortStart d) s = .next
      (if t.sortOk (s.job r.task.1).part sp (sortFields ws) then t.modSorter d.val fun x => { x with cur := some (r, ws) }
       else t.sorterFault d.val r)) ∧
  (∀ (d : Fin 16) r ws s, (s.sorter d.val).cur = some (r, ws) → (s.sorter d.val).again = false →
    exec (.sortDone d false) s = .next (s.sortWrite d.val r ws) ∧
    exec (.sortDone d true) s = .next (s.modSorter d.val fun x => { x with again := true })) ∧
  (∀ (d : Fin 16) r ws s, (s.sorter d.val).cur = some (r, ws) → (s.sorter d.val).again = true →
    exec (.sortRepeatDone d false) s = .next
      ((s.record (srcDome d.val) 21 lvMasked { part := some (s.job r.task.1).part, source := some r.sp }).sortWrite d.val r ws) ∧
    let x := s.sorter d.val
    let t : State := { s with saf := { s.saf with sorterOut := tput false s.saf.sorterOut d.val true } }
    let u := ((t.modSorter d.val fun _ => {}).record (srcDome d.val) 22 lvUnit {}).sorterFault d.val r
    exec (.sortRepeatDone d true) s = .next ((x.queue ++ x.stalled).foldl (fun s r => s.sortRoute d.val r) u))

/-- The KV Gather Unit (04 R121 to R128, R525): a valid request of a task that does not wait joins its Dome's gathers; a tile whose rows
translate and can be read is written and counted in its delivery counter while its task goes on; a tile read is released and counted,
the last one ending the gather; an append writes its row, and is noted unless a word or line of it cannot be replaced; a position is
acknowledged once every layer has it; a walk fills the TLBs. -/
def Obligations.Gathers : Prop :=
  (∀ (sp : Fin 64) desc wf tensor j i s, s.running sp.val = some (j, i) → (s.task j i).waitSince = none →
      s.gatherOk (s.job j).part (sp.val / 4) (gatherFields desc) wf = true →
    let d := sp.val / 4
    exec (.gatherRequest sp desc wf tensor) s = .next (s.setGathers d (s.gathers d ++
      [{ sp := sp.val, desc := desc, wf := wf, tensor := tensor, task := (j, i, (s.task j i).run)
         rel0 := ((tget 0 s.sch.ctrs (64 * d + (gatherFields desc).rel) : Nat) : Int) }]))) ∧
  (∀ (d : Fin 16) mismatch n g t das u s, GatherTileOk d n g t das u s →
    let f := gatherFields g.desc
    let q := (s.pruneGathers d.val).sq (slotOf f.handle)
    let (j, i, _) := g.task
    let v := u.gatherChecks d.val j i f mismatch
    let w := v.gatherWrite d.val j i g (das.map fun a => v.rd a q.rowBytes)
    let x : State := { w with sch := { w.sch with ctrs := tmod 0 w.sch.ctrs (64 * d.val + f.deliv) fun c => c + 1 } }
    exec (.gatherTileWritten d mismatch) s = .next
      (if w.liveRun g.task then x.setGathers d.val ((x.gathers d.val).modify n fun g => { g with tile := g.tile + 1 })
       else w.dropGather d.val n)) ∧
  (∀ (sp : Fin 64) j i n g s, s.running sp.val = some (j, i) → (s.task j i).waitSince = none →
      ((s.gathers (sp.val / 4)).findIdx? fun g => decide (g.task = (j, i, (s.task j i).run)) && decide (g.rel < g.tile)) = some n →
      (s.gathers (sp.val / 4))[n]? = some g →
    let d := sp.val / 4
    let f := gatherFields g.desc
    let t : State := { s with sch := { s.sch with ctrs := tmod 0 s.sch.ctrs (64 * d + f.rel) fun c => c + 1 } }
    exec (.gatherTileRelease sp) s = .next
      (if g.rel + 1 = gatherTiles f then t.dropGather d n
       else t.setGathers d ((s.gathers d).modify n fun g => { g with rel := g.rel + 1 }))) ∧
  (∀ sp handle layer pos data j i t ppn s, AppendOk sp handle layer pos data j i t ppn s →
    let slot := slotOf handle
    let q := s.sq slot
    let da := ppnDa ppn + pos % max 1 q.tpp * q.rowBytes
    let r := gatherOf sp.val
    let u := t.store (t.origin r) da data []
    exec (.appendWrite sp handle layer pos data) s = .next
      (if (u.blocked da data.length).isSome then u.memFault r da
       else u.modSeq slot fun q => { q with
         layers := tmod [] q.layers pos fun (l : List Nat) => if layer ∈ l then l else layer :: l })) ∧
  (∀ (slot : Fin 4096) pos s, s.inStep slot.val = true → (tget [] (s.sq slot.val).layers pos).length = (s.sq slot.val).nl →
      (s.sq slot.val).nl ≠ 0 →
    exec (.appendCounterAdvance slot pos) s = .next (s.modSeq slot.val fun q => { q with appended := max q.appended (pos + 1) })) ∧
  (∀ (d : Fin 16) (slot : Fin 4096) vpn n g t ppn s,
      ((s.gathers d.val).findIdx? fun g => decide (slotOf (gatherFields g.desc).handle = slot.val) && s.liveRun g.task &&
        decide (s.running g.sp = some (g.task.1, g.task.2.1))) = some n → (s.gathers d.val)[n]? = some g →
      s.translate g.sp slot.val vpn = (t, .page ppn) →
    exec (.pageWalkDone d slot vpn false) s = .next t)

/-- Steps and pages (04 R113, R133 to R150; 06 R229 to R232, R528): the build of the first group due takes its step value and its batch
and starts; an acknowledged invalidation drops the unit's translations and the last one lets the change of pages go on; copies that are
done finish the copy-on-write, the swap out or the swap in they belong to; a completed step advances lengths and closes. -/
def Obligations.StepsAndPages : Prop :=
  (∀ (p : Fin 16) image (phase : Fin 4) c tl s, StepBuildOk p image phase c tl s →
    let f := s.facts p.val image
    let kind := (c :: tl).filter fun x => decide (x.2.2 = c.2.2)
    let adm := admitAll phase.val f.prefillChunk f.tokenBudget (kind.map fun x => (x.1, x.2.1))
    let t := if c.2.2.1.isSome then s else s.modPart p.val fun x => { x with step := (x.step + 1) % 2 ^ 64 }
    let out := ((c :: tl).filter fun (x : Nat × Nat × Option Nat × Nat) => !(adm.any fun y => decide (y.1 = x.1))).map
      fun (x : Nat × Nat × Option Nat × Nat) => (p.val, image, phase.val, x.1)
    let keep := t.sch.leftOut.filter fun (x : Nat × Nat × Nat × Nat) =>
      !(decide (x.1 = p.val) && decide (x.2.1 = image) && decide (x.2.2.1 = phase.val))
    let u : State := { t with sch := { t.sch with leftOut := out ++ keep } }
    let b : Build := { part := p.val, image := image, phase := phase.val, step := c.2.2.1.getD (s.part p.val).step
                       explicit := c.2.2.1.isSome, entry := c.2.2.2, admits := adm
                       rest := u.liveSlots.filter fun i => !u.inStep i && !u.builtIn i }
    exec (.stepBuild p image phase) s =
      .next ((({ u with seq := { u.seq with builds := u.seq.builds ++ [b] } } : State).lowWater p.val).runBuilds)) ∧
  (∀ (unit : Fin 20) (slot : Fin 4096) s, (s.sq slot.val).inval.getLsbD unit.val = true →
    let left := (s.sq slot.val).inval &&& ~~~ BitVec.ofNat 20 (2 ^ unit.val)
    let t := (s.dropTlb unit.val slot.val).modSeq slot.val fun q => { q with inval := left }
    exec (.tlbInvalidationAck unit slot) s = .next (if left = 0 then (t.afterAck slot.val).runBuilds else t)) ∧
  (∀ (slot : Fin 4096) s, (s.sq slot.val).copies ≠ [] → (s.sq slot.val).inval = 0 →
      (s.sq slot.val).st = sqOpen ∨ (s.sq slot.val).st = sqStalled ∨ (s.sq slot.val).st = sqClosing →
    exec (.copyOnWriteDone slot) s =
      .next (s.finishCopies slot.val (s.bbOrigin (s.sq slot.val).part) false
        (if (s.sq slot.val).st = sqStalled then .unstall else .boundary) ((s.sq slot.val).copies.map fun c => c.2.1) [])) ∧
  (∀ (slot : Fin 4096) s, (s.sq slot.val).copies ≠ [] → (s.sq slot.val).st = sqSwapOut →
    exec (.swapOutCopyDone slot) s = .next (s.finishSwap slot.val true)) ∧
  (∀ (slot : Fin 4096) s, (s.sq slot.val).copies ≠ [] → (s.sq slot.val).st = sqSwapIn →
    exec (.swapInCopyDone slot) s = .next (s.finishSwap slot.val false)) ∧
  (∀ job s, (s.job job).live = true → (s.job job).kind = .step → (s.job job).cause = some causeOk →
    let b := s.job job
    let t := b.wants.foldl (fun s w =>
      let slot := slotOf w.handle
      if (s.sq slot).gen = w.handle / 4096 ∧ (s.sq slot).st ≠ sqFree then
        let u := s.modSeq slot fun q => { q with
          length := w.l0 + w.tokens, st := if q.st = sqInStep then sqOpen else q.st, a := 0, layers := [] }
        u.takeTokens w.handle 0 0 0 w.tokens (b.served u.jobIds)
      else s.stale s.srcBb) (s.chargeStep b)
    exec (.stepComplete job) s =
      .next ((((t.modJob job fun _ => {}).sendEnd b.part b.step).closeStepLaunches.settleLimbo).runBuilds))

namespace Sys2Proof.Certs

/-! ### The Planning Engines -/

/-- An idle engine with a request in its queue, whose checks need not wait for a test window (05 R198). -/
abbrev SearchStartOk (e : Fin 2) (r : PlanReq) (rest : List PlanReq) (s : State) : Prop :=
  (s.eng e.val).cur = none ∧ (s.eng e.val).queue = r :: rest ∧ s.checksWait e.val r = false

/-- A search with a free proposer buffer, whose pops come to `end_` and leave `c`. -/
abbrev BatchOk (e : Fin 2) (b : Nat) (c : Search) (end_ : PopEnd) (s : State) : Prop :=
  ∃ c0, (s.eng e.val).cur = some c0 ∧ c0.phase = .search ∧ c0.freeBuf = some b ∧ c0.pops s.clk.ctc 65 = (c, end_)

/-- A search whose oldest ended batch is `b`. -/
abbrev ProposerOk (e : Fin 2) (c : Search) (b : Batch) (s : State) : Prop :=
  (s.eng e.val).cur = some c ∧ (c.out.find? fun b => (s.job b.job).cause.isSome) = some b

/-- A search with a child that waits for its check, which need not wait for a test window. -/
abbrev CheckOk (e : Fin 2) (c : Search) (s : State) : Prop :=
  (s.eng e.val).cur = some c ∧ c.kids ≠ [] ∧ s.checksWait e.val c.req = false

/-- A search between its pops, with a deadline. -/
abbrev DeadlineOk (e : Fin 2) (c : Search) (s : State) : Prop :=
  (s.eng e.val).cur = some c ∧ c.req.deadline ≠ 0 ∧ c.phase = .search ∧ c.out = [] ∧ c.kids = []

/-- The recheck of a path that is not smoothed, with its times `ps`. -/
abbrev RecheckOk (e : Fin 2) (c : Search) (ps : List (List W64)) (s : State) : Prop :=
  (s.eng e.val).cur = some c ∧ c.phase = .recheckPlain ∧ timeScale c.req.limits (c.pathTo c.goal (c.nodes.length + 1)) = some ps ∧
    s.checksWait e.val c.req = false

/-- The recheck of a smoothed path, with its times `ps`. -/
abbrev SmoothOk (e : Fin 2) (c : Search) (ps : List (List W64)) (s : State) : Prop :=
  (s.eng e.val).cur = some c ∧ c.phase = .recheckSmooth ∧
    timeScale c.req.limits (smooth (bits (c.req.w 10) 63 48) (c.pathTo c.goal (c.nodes.length + 1))) = some ps ∧
    s.checksWait e.val c.req = false

/-- A path in a round of its publication, whose next check comes to `k` and need not wait. -/
abbrev RoundOk (e : Fin 2) (c : Search) (k : PubCheck) (s : State) : Prop :=
  (s.eng e.val).cur = some c ∧ c.phase = .round ∧ c.pubCheck (s.eng e.val).world = k ∧ (k.ran && s.checksWait e.val c.req) = false

/-- A found path whose publication holds the updates, whose last check comes to `k` and need not wait. -/
abbrev LockedOk (e : Fin 2) (c : Search) (k : PubCheck) (s : State) : Prop :=
  (s.eng e.val).cur = some c ∧ c.phase = .locked ∧ c.fallback = false ∧ c.mustFull = false ∧
    c.pubCheck (s.eng e.val).world = k ∧ (k.ran && s.checksWait e.val c.req) = false

/-- The fallback of a search whose verdict must be made again in full, while updates are held; no test window delays its check. -/
abbrev FallbackOk (e : Fin 2) (c : Search) (s : State) : Prop :=
  (s.eng e.val).cur = some c ∧ c.phase = .locked ∧ c.fallback = true ∧ c.mustFull = true ∧ s.checksWait e.val c.req = false

/-- The search with its path checked and its rounds begun (05 R189, R190). -/
abbrev startRounds (c : Search) (hitOver : Bool) (ps : List (List W64)) (status v pub : Nat) : Search :=
  { (c.note hitOver) with
    path := ps, status := status, phase := .round, rounds := 0, fallback := false, mustFull := false, v := v, pubFlags := pub }

/-- The engine's event word stands at the head of its own result queue and nothing of it is behind. -/
abbrev ResultOk (e : Fin 2) (c : Search) (s : State) : Prop :=
  (s.eng e.val).cur = some c ∧ c.phase = .written

end Sys2Proof.Certs

/-- Search (05 R178 to R189): the oldest queued request starts with its root in the heap and its minimum-risk trajectory checked; a
batch that pops fill is sent as a proposer, a popped GOAL node goes to its recheck, a stop ends the search; a batch that ended well
leaves its valid children to be checked, one that did not ends a search that has nothing else outstanding with cause 4 (6 after a
parity error) and marks any other; the next child, in FREE mode the drawn one, is checked and inserted; a deadline that a search
between its pops has passed ends it; a path that passes its recheck begins its rounds, one that fails is rejected, a smoothed one tried
again unsmoothed. Where the engines check in pairs and the other answers differently the candidate counts as colliding and the
disagreement is recorded (R197). -/
def Obligations.SearchSteps : Prop :=
  (∀ e d r rest s, SearchStartOk e r rest s →
    let x := s.eng e.val
    let differs := s.dualNow e.val r && d
    let m := checkPath x.world x.world.now r.shape (s.poses r.mrtDa r.mrtPoses)
    let c : Search := { req := r, e0 := x.world.epoch, mrtFree := m.1 && !differs, heap := [(0, 0)]
                        nodes := [{ pose := s.words r.rootDa 4, st := s.words (r.rootDa + 32) 4 }] }
    let t := s.modEng e.val fun y => { y with cur := some { c.note m.2 with mrtFlags := s.dualFlags e.val c 0 }, queue := rest }
    exec (.planSearchStart ⟨e, d⟩) s = .next (if differs then t.peDisagree e.val else t)) ∧
  (∀ e b c s, BatchOk e b c .batch s → c.batch ≠ [] → exec (.proposerBatchSend e) s = .next (s.sendBatch e.val c b)) ∧
  (∀ e b c n s, BatchOk e b c (.goal n) s →
    exec (.proposerBatchSend e) s = .next (s.modEng e.val fun x => { x with cur := some c.toRecheck })) ∧
  (∀ e b c w s, BatchOk e b c (.stop w) s →
    exec (.proposerBatchSend e) s = .next ((s.modEng e.val fun x => { x with cur := some c }).endSearch e.val w)) ∧
  (∀ e c b s, ProposerOk e c b s → (s.job b.job).proposerBad = false →
    let t := (s.modJob b.job fun _ => {}).modSearch e.val fun x => { x with out := x.out.erase b }
    let ks := t.readKids c b
    exec (.proposerComplete e false) s = .next (t.modSearch e.val fun x => { x with
      kids := x.kids ++ ks.filter c.kidOk, invalid := satAdd 16 x.invalid (ks.length - (ks.filter c.kidOk).length) })) ∧
  (∀ e c b s, ProposerOk e c b s → (s.job b.job).proposerBad = true →
    let t := ((s.modJob b.job fun _ => {}).modSearch e.val fun x => { x with out := x.out.erase b }).modSearch e.val fun x =>
      { x with peFault := true }
    exec (.proposerComplete e false) s = .next
      (if { c with out := c.out.erase b }.idle then t.endSearch e.val (if c.parity then 6 else 4) else t)) ∧
  (∀ e d c s, CheckOk e c s → c.req.isFree = false →
    let w := (s.eng e.val).world
    let k := c.kids.getD 0 (0, [])
    let differs := s.dualNow e.val c.req && d
    let v := checkCand w (c.view w) c.req.shape ((c.nodes.getD k.1 {}).pose :: kidPoses k.2)
    let t := if differs then s.peDisagree e.val else s
    exec (.candidateCheckDone e d) s = .next (t.modSearch e.val fun c =>
      ({ c with kids := c.kids.eraseIdx 0 }.note v.2).insert k (v.1.isNone && !differs))) ∧
  (∀ e d c s, CheckOk e c s → c.req.isFree = true → ∃ i < c.kids.length,
    let w := (s.eng e.val).world
    let k := c.kids.getD i (0, [])
    let differs := (s.draw 64).2.dualNow e.val c.req && d
    let v := checkCand w (c.view w) c.req.shape ((c.nodes.getD k.1 {}).pose :: kidPoses k.2)
    let t := if differs then (s.draw 64).2.peDisagree e.val else (s.draw 64).2
    exec (.candidateCheckDone e d) s = .next (t.modSearch e.val fun c =>
      ({ c with kids := c.kids.eraseIdx i }.note v.2).insert k (v.1.isNone && !differs))) ∧
  (∀ e c s, DeadlineOk e c s →
    let t := s.elapseTo (c.req.deadline + 1)
    exec (.planDeadline e) s = .next (match c.stop t.clk.ctc with
      | some w => t.endSearch e.val w
      | none => t)) ∧
  (∀ e d c ps s, RecheckOk e c ps s →
    let x := s.eng e.val
    let differs := s.dualNow e.val c.req && d
    let t := if differs then s.peDisagree e.val else s
    let g := checkPath x.world (c.view x.world) c.req.shape ps
    exec (.pathRecheckDone ⟨e, d⟩) s = .next (t.modSearch e.val fun c' =>
      if g.1 && !differs then startRounds c' g.2 ps (if c.req.smoothEn then 2 else 1)
        (if c.req.isFree then x.world.epoch else c'.e0) (s.dualFlags e.val c' 0)
      else (c'.note g.2).reject)) ∧
  (∀ e d c ps s, SmoothOk e c ps s →
    let x := s.eng e.val
    let differs := s.dualNow e.val c.req && d
    let t := if differs then s.peDisagree e.val else s
    let g := checkPath x.world (c.view x.world) c.req.shape ps
    exec (.pathRecheckDone ⟨e, d⟩) s = .next (t.modSearch e.val fun c' =>
      if g.1 && !differs then startRounds c' g.2 ps 1 (if c.req.isFree then x.world.epoch else c'.e0) (s.dualFlags e.val c' 0)
      else { (c'.note g.2) with phase := .recheckPlain, smoothFlags := c'.smoothFlags ||| 64 }))

/-- Publication and the world (05 R165 to R167, R177, R190 to R197): a round whose epoch is the path's own locks the search; one whose
check passes moves the path to the engine's epoch and locks it after the third, one whose check fails rejects the path, or locks the
fallback for its full check; a locked path that passes is written with its record, one that does not resumes the search; the fallback's
full check writes it whole (status 3) or its free prefix (status 4); a written result's event enters the engine's result queue, whose
head passes to the Event Queue, and the request is done once it has left; an engine applies its oldest update unless it is LOCKED, which
answers the commands every engine now holds and ends a search that the update churns with cause 5. -/
def Obligations.Publication : Prop :=
  (∀ (e : Fin 2) d c s, (s.eng e.val).cur = some c → c.phase = .round → (s.eng e.val).world.epoch = c.v →
    exec (.publishRound ⟨e, d⟩) s = .next (s.modEng e.val fun y => { y with cur := some { c with phase := .locked } })) ∧
  (∀ (e : Fin 2) d c k s, RoundOk e c k s → k.ran = true →
    let differs := s.dualNow e.val c.req && d
    let t := if differs then s.peDisagree e.val else s
    exec (.publishRound ⟨e, d⟩) s = .next (t.modSearch e.val fun c' =>
      let c' := c'.checked k (s.dualFlags e.val c c.pubFlags)
      if k.ok && !differs then
        { c' with v := (s.eng e.val).world.epoch, rounds := c'.rounds + 1, phase := if 3 ≤ c'.rounds + 1 then .locked else .round }
      else if c'.fallback then { c' with phase := .locked, mustFull := true } else c'.reject)) ∧
  (∀ (e : Fin 2) d c k s, LockedOk e c k s →
    let differs := k.ran && s.dualNow e.val c.req && d
    let t := if differs then s.peDisagree e.val else s
    let c' := { c.checked k (s.dualFlags e.val c c.pubFlags) with flags := c.flags ||| k.bits ||| (if differs then 8 else 0) }
    let u := t.modEng e.val fun y => { y with cur := some c' }
    exec (.publishLocked ⟨e, d⟩) s = .next
      (if k.ok && !differs then u.writeResult e.val c' c.status 0 c.path
       else t.modEng e.val fun y => { y with cur := some c'.reject })) ∧
  (∀ (e : Fin 2) d c s, FallbackOk e c s → (s.dualNow e.val c.req && d) = false →
    let m := c.mrtPrefix (s.eng e.val).world
    let c' := { c.note m.2 with pubFlags := s.dualFlags e.val c c.pubFlags }
    let u := s.modEng e.val fun y => { y with cur := some c' }
    exec (.publishLocked ⟨e, d⟩) s = .next
      (if m.1 = c.path.length then u.writeResult e.val c' 3 0 c.path else u.writeResult e.val c' 4 m.1 (c.path.take m.1))) ∧
  (∀ (e : Fin 2) c s, ResultOk e c s →
    let t := (s.setQ (QueueId.plan e).key ((s.q (QueueId.plan e).key).push (c.event e.val))).modSearch e.val fun x =>
      { x with phase := .queued }
    exec (.resultPublished e) s = .next ((t.passResults e 16).resultsDone e)) ∧
  (∀ (e : Fin 2) es rest s, (s.eng e.val).updates = es :: rest → s.engOut e.val = false →
      (∀ c, (s.eng e.val).cur = some c → c.phase ≠ .locked) →
    let w := (s.eng e.val).world.update s.detSearches es
    let t := (s.modEng e.val fun y => { y with world := w.1, updates := rest }).modSearch e.val fun c =>
      { c with churn := c.churn || (c.isDet && decide (c.e0 ∈ w.2)) }
    exec (.worldUpdateApply e) s = .next (if (t.eng e.val).cur.any Search.churned then t.endSearch e.val 5 else t).worldDone)

namespace Sys2Proof.Certs

/-! ### Memory -/

/-- A requester that acts, an access it may make outside unit control space, and an endpoint where the access needs one. -/
abbrev AccessOk (r : Requester) (a n : Nat) (write : Bool) (s : State) : Prop :=
  s.acts r = true ∧ s.kindRange a n ≠ some .unit ∧ s.allowed r a n write = true ∧ s.hostCut r a n = false ∧
    (∀ e, r = .engine e → a < ownBase)

/-- The same, and the parity of the transfer's control fields holds (09 R307). -/
abbrev TransferOk (r : Requester) (a n : Nat) (write : Bool) (conds : List EccCond) (s : State) : Prop :=
  AccessOk r a n write s ∧ .ctrl ∉ conds

/-- The state after the requests of a read and the errors it meets. -/
abbrev readOf (r : Requester) (a n : Nat) (conds : List EccCond) (s : State) : State := s.fetch (s.origin r) (reqDa r a) n conds

/-- A write of whole words or lines. -/
abbrev WholeOk (r : Requester) (a : Nat) (bs : List Byte) (s : State) : Prop :=
  AccessOk r a bs.length true s ∧ reqDa r a % s.unitAt (reqDa r a) = 0 ∧ bs.length % s.unitAt (reqDa r a) = 0 ∧ bs ≠ []

/-- A Spire of the Dome whose forward task does not wait issues a descriptor. -/
abbrev DescOk (d : Fin 16) (sp : Fin 64) (j i : Nat) (s : State) : Prop :=
  s.running sp.val = some (j, i) ∧ sp.val / 4 = d.val ∧ (s.task j i).waitSince = none ∧ (s.task j i).decl.backward = false

/-- A descriptor of a launch that goes on, none of whose rows meets an uncorrectable word; its rows leave `t`. -/
abbrev DmaOk (d : Fin 16) (ch : Fin 4) (x : DmaJob) (t : State) (s : State) : Prop :=
  s.dmaRun d.val ch.val = some x ∧ (∃ k, x.task = some k ∧ s.liveRun k = true) ∧
    s.dmaRows (s.origin (.dma d ch ⟨x.sp % 64, Nat.mod_lt _ (by decide)⟩)) (dmaFields x.ws) 0 (dmaFields x.ws).rows = (t, none)

/-- A channel that runs and owes fewer than 128 refreshes, with `q` to issue next. -/
abbrev IssueOk (ch : Fin 64) (q : Option DramReq) (s : State) : Prop :=
  s.chanUp ch.val = true ∧ (s.chan ch.val).debt < 128 ∧ (s.chan ch.val).next s.clk.elapsed = q

/-- The state after `q` has opened its rows, paid and left its queue. -/
abbrev issued (ch : Fin 64) (q : DramReq) (s : State) : State :=
  ((s.lineAccess ch.val q.line q.by_).modChan ch.val fun c => { c with
    wq := if q.write then c.wq.erase q else c.wq
    rq := if q.write then c.rq else c.rq.erase q
    drain := c.draining && decide (16 < (if q.write then c.wq.erase q else c.wq).length)
    credit := tmod 0 c.credit q.by_.part fun n => n - q.cost * 256
    rrNext := if c.inCredit q then c.rrNext else (q.by_.part + 1) % 16
    reads := c.reads + 1 }).chargeDram q

/-- The words of a bank's next line, by address. -/
abbrev scrubWords (bank : Nat) (s : State) : List Nat :=
  (List.range 8).map fun w => bankLineDa bank (tget 0 s.mem.scrub bank) + w * (if bank < 1280 then 16 * 8 else 8)

end Sys2Proof.Certs

/-- Accesses (07 R238, R239, R242, R245, R246, R255; 01 R39, R41): a requester that does not act makes none; an allowed read delivers
memory as it shows itself, one that finds an uncorrectable word or line delivers poison and has done what its receiver does with that;
an access that is not allowed is a decode fault and delivers nothing; one whose control fields fail their parity is discarded and is a
memory fault (09 R307); a write with no partial word or line that is uncorrectable is
stored, another one has the memory fault of its requester; a descriptor of a task is refused, or queued and granted; a completed one has
moved its rows, its counter advances and its channel serves the next. -/
def Obligations.MemoryAccesses : Prop :=
  (∀ r a n conds s, TransferOk r a n false conds s → (readOf r a n conds s).anyBad (reqDa r a) n = false →
    exec (.memoryRead r a n conds) s = .next ((readOf r a n conds s).answer (s.viewBytes (reqDa r a) n) false)) ∧
  (∀ r a n conds s, TransferOk r a n false conds s → (readOf r a n conds s).anyBad (reqDa r a) n = true →
    let t := readOf r a n conds s
    exec (.memoryRead r a n conds) s = .next ((t.answer (t.rd (reqDa r a) n) true).poisoned r a)) ∧
  (∀ r a n conds s, s.acts r = true → s.kindRange a n ≠ some .unit → s.allowed r a n false = false → (∀ e, r = .engine e → a < ownBase) →
    exec (.memoryRead r a n conds) s = .next ((s.answer [] false).decodeFault r a)) ∧
  (∀ r a n conds s, AccessOk r a n false s → .ctrl ∈ conds →
    exec (.memoryRead r a n conds) s = .next ((s.answer [] false).transferFault r a)) ∧
  (∀ r a bs conds s, AccessOk r a bs.length true s → .ctrl ∈ conds →
    exec (.memoryWrite r a bs conds) s = .next (s.transferFault r a)) ∧
  (∀ r a bs conds s, TransferOk r a bs.length true conds s →
    let t := s.store (s.origin r) (reqDa r a) bs conds
    t.blocked (reqDa r a) bs.length = none → exec (.memoryWrite r a bs conds) s = .next t) ∧
  (∀ r a bs conds c s, TransferOk r a bs.length true conds s →
    let t := s.store (s.origin r) (reqDa r a) bs conds
    t.blocked (reqDa r a) bs.length = some c → exec (.memoryWrite r a bs conds) s = .next (t.writeFault r a)) ∧
  (∀ r a bs conds s, s.acts r = true → s.kindRange a bs.length ≠ some .unit → s.allowed r a bs.length true = false →
    exec (.memoryWrite r a bs conds) s = .next (s.decodeFault r a)) ∧
  (∀ r a n bs conds s, s.acts r = false →
    exec (.memoryRead r a n conds) s = .next s ∧ exec (.memoryWrite r a bs conds) s = .next s) ∧
  (∀ (d : Fin 16) (ch : Fin 4) ws (sp : Fin 64) j i s, DescOk d sp j i s →
    let x : DmaJob := { ws := ws, sp := sp.val, part := (s.job j).part, task := some (s.taskId j i) }
    s.dmaOk ws (dmaFields ws) (s.job j).part sp.val = true →
    exec (.dmaDescriptor d ch ws sp) s = .next (({ s with
      mem := { s.mem with dma := tmod {} s.mem.dma (4 * d.val + ch.val) fun c => { c with queue := c.queue ++ [x] } } } : State).grantDma
        d.val ch.val)) ∧
  (∀ (d : Fin 16) (ch : Fin 4) ws (sp : Fin 64) j i s, DescOk d sp j i s →
    s.dmaOk ws (dmaFields ws) (s.job j).part sp.val = false →
    exec (.dmaDescriptor d ch ws sp) s = .next ((s.record (srcDome d.val) 18 lvTask
      { addr := (dmaFields ws).dst, part := some (s.job j).part, source := some sp.val }).failTask j i causeFault (srcDome d.val) 18)) ∧
  (∀ d ch x t s, DmaOk d ch x t s →
    exec (.dmaComplete d ch) s = .next (({ t with
      sch := { t.sch with ctrs := tmod 0 t.sch.ctrs (64 * d.val + (dmaFields x.ws).counter) fun n => n + 1 } } : State).endDma d.val ch.val))

/-- A write of whole words or lines (07 R239, R255): what it stores reads back, and every byte outside it reads as before. -/
def Obligations.WriteThenRead : Prop :=
  ∀ r a bs s, Memory.wf s.mem.bytes → WholeOk r a bs s →
    ∃ t, exec (.memoryWrite r a bs []) s = .next t ∧ t.rd (reqDa r a) bs.length = bs ∧
      ∀ x, (x < reqDa r a ∨ reqDa r a + bs.length ≤ x) → t.byte x = s.byte x

/-- The channel controllers and the scrubbers (07 R237, R240, R241, R253 to R267): a write or a read issues, pays, is charged and leaves
its queue, a read with what its link met; refreshes fall due sixteen at a time and are drawn down by idle banks, or all at once by a
forced one; the devices' rate and error counts are taken over; a row-disturbance window clears the tables; credit is refilled up to 64
lines; a patrol read of a good line counts a correctable error; a bank scrubber reads its next line and reports what is uncorrectable; a
bank that powers up reads zero. -/
def Obligations.DramChannels : Prop :=
  (∀ (ch : Fin 64) q cond link s, IssueOk ch (some q) s → q.write = true →
    exec (.dramRequestIssue ch cond link) s = .next ((issued ch q s).modChan ch.val fun c => c.takeIn.refpb 1)) ∧
  (∀ (ch : Fin 64) q cond link s, IssueOk ch (some q) s → q.write = false →
    exec (.dramRequestIssue ch cond link) s =
      .next (((issued ch q s).linkError ch.val q cond link).modChan ch.val fun c => c.takeIn.refpb 1)) ∧
  (∀ (ch : Fin 64) cond l s, IssueOk ch none s →
    exec (.dramRequestIssue ch cond l) s = .next (s.modChan ch.val fun c => c.refpb 1)) ∧
  (∀ (ch : Fin 64) s, s.chanUp ch.val = true →
    let t := s.elapse ((s.chan ch.val).refAt - s.clk.elapsed)
    exec (.refreshInterval ch) s = .next (t.modChan ch.val fun c =>
      ({ c with debt := c.debt + 16, refAt := t.clk.elapsed + Config.tRefi c.rate }).refpb 16)) ∧
  (∀ (ch : Fin 64) s, s.chanUp ch.val = true → 128 ≤ (s.chan ch.val).debt → exec (.forcedRefab ch) s = .next
    ((s.modChan ch.val fun c => { c with debt := c.debt % 16, rows := [], owed := 0xFFFF }).record (srcChan ch.val) 23 lvMasked {})) ∧
  (∀ (ch : Fin 64) rate s, s.chanUp ch.val = true →
    exec (.mr4Read ch rate) s = .next (s.modChan ch.val fun c => ({ c with rate := rate.val }).refpb 1)) ∧
  (∀ (ch : Fin 64) n s, n ≠ 0 → s.chanUp ch.val = true → exec (.linkEccCountRead ch n) s = .next
    ((s.modChan ch.val fun c => { c with linkWrites := c.linkWrites + n }).record (srcChan ch.val) 7 lvMasked {})) ∧
  (∀ s, let t := s.elapseTo s.mem.rhNext
    exec .rhWindowStart s = .next { t with mem := { t.mem with
      chans := (List.range 64).foldl (fun u c => tmod {} u c fun (x : Chan) => { x with hot := [], throttled := [], lastThrottled := [] })
        t.mem.chans
      t1 := t.mem.nextT1, t2 := t.mem.nextT2, rhBegan := t.clk.elapsed, rhNext := t.mem.rhNext + 32000000 } }) ∧
  (∀ s, let t := s.elapse (s.mem.creditAt - s.clk.elapsed)
    exec .creditRefill s = .next { t with mem := { t.mem with
      chans := (List.range 64).foldl (fun u c => tmod {} u c fun (x : Chan) => { x with credit := t.fill 240 x.credit }) t.mem.chans
      egress := (List.range 12).foldl (fun u k => tmod [] u k fun (b : Tab Nat) => t.fill (if k % 3 = 2 then 8000 else 16000) b) t.mem.egress
      creditAt := t.clk.elapsed + 100 } }) ∧
  (∀ (ch : Fin 64) da s, s.chanUp ch.val = true →
    let a := (s.chan ch.val).scrub * 64
    let o := scrubOrigin (srcChan ch.val)
    let u := (s.modChan ch.val Chan.nextScrub).lineAccess ch.val a o
    (s.modChan ch.val Chan.nextScrub).chanDa ch.val a = some da → u.isBad da = false →
    exec (.dramPatrolScrub ch .clean) s = .next u ∧
      exec (.dramPatrolScrub ch .single) s = .next (u.record (u.memUnit da) 5 lvMasked (o.note (u.memAddr da)))) ∧
  (∀ bank conds s, bank < 1296 →
    let t : State := { s with mem := { s.mem with scrub := tput 0 s.mem.scrub bank ((tget 0 s.mem.scrub bank + 1) % bankLines bank) } }
    let o := scrubOrigin (s.memUnit (bankLineDa bank (tget 0 s.mem.scrub bank)))
    let u := t.strike o (scrubWords bank s) conds
    exec (.sramScrub bank conds) s = .next (((scrubWords bank s).filter u.isBad).foldl (fun s w => s.reportUe o w) u)) ∧
  (∀ (b : Fin 16) s, tget false s.mem.bankOff b.val = true →
    let t := s.zero (towerSramBase + b.val * 0x4000000) 0x4000000
    exec (.bankPowerUp b) s = .next { t with mem := { t.mem with bankOff := tput false t.mem.bankOff b.val false } })

namespace Sys2Proof.Certs

/-! ### Time -/

/-- SYNC_IN is claimed, has a PERIOD, and an edge was seen at `t0`. -/
abbrev SyncOk (t0 : Nat) (s : State) : Prop := s.claimed 1 = true ∧ s.clk.periodMs ≠ 0 ∧ s.clk.lastEdge = some t0

/-! ### Safety events -/

/-- Lantern `l` is in service. -/
abbrev LanternIn (l : Fin 2) (s : State) : Prop := (s.lantern l.val).out = false

/-- A Spire's clock count more than 2 % off, the Spire running. -/
abbrev ClockOffOk (sp : Fin 64) (count : Nat) (s : State) : Prop :=
  625 * (s.spire sp.val).clk < ((2 * count : Nat) - (625 * (s.spire sp.val).clk : Int)).natAbs * 50 ∧
    (s.spire sp.val).quarantined = false ∧ (s.spire sp.val).stopped = false

/-- A takeover is due and the other Cupola is in service. -/
abbrev TakeoverOk (s : State) : Prop := s.saf.takeover = true ∧ tget false s.saf.cupolaOut (1 - s.saf.active) = false

/-- The state after the standby has become active, before its Batch Builder is looked at. -/
abbrev tookOver (s : State) : State :=
  ({ s with saf := { s.saf with
    takeover := false, active := 1 - s.saf.active
    cupolaOut := tput false s.saf.cupolaOut s.saf.active true } } : State).record (srcIo s.saf.active 1) 1 lvUnit {}

end Sys2Proof.Certs

/-- SYNC_IN and the twin exchange (08 R294, R296, R297): an edge latches the CTC and its error, counts towards the lock, and steers the
CTC where it is near, and a claim that is not held lets it pass; a period without an edge sets MISSED, two holdover; an exchange takes the
offset in, counts towards TWIN_VALID and steers a SECONDARY, or after a pairing aligns its CTC; a missing one is counted, and ten clear
TWIN_VALID. -/
def Obligations.SyncAndExchange : Prop :=
  (∀ dt s, s.claimed 1 = true → s.clk.periodMs ≠ 0 →
    let t := s.elapse dt
    let p := t.clk.periodMs * 1000000
    let e := edgeError t.clk.ctc p t.clk.offsetNs
    let good := if e.natAbs ≤ 20 then t.clk.goodEdges + 1 else 0
    let u : State := { t with clk := { t.clk with
      syncLatch := t.clk.ctc, lastEdge := some t.clk.elapsed, holdover := false, syncErr := sat32 e, goodEdges := good
      syncLocked := decide (e.natAbs ≤ 100) && (t.clk.syncLocked || decide (4 ≤ good)) } }
    exec (.syncInEdge dt) s = .next
      (if e.natAbs ≤ 1000000 ∧ 2 * e.natAbs < p then (if s.isSecondary then u else u.steer e)
       else { u with clk := { u.clk with syncFar := true } })) ∧
  (∀ dt s, s.claimed 1 = false → exec (.syncInEdge dt) s = .next (s.elapse dt)) ∧
  (∀ t0 s, SyncOk t0 s →
    let t := s.elapse (t0 + s.clk.periodMs * 1100000 - s.clk.elapsed)
    exec .syncMissed s = .next { t with clk := { t.clk with syncMissed := true } }) ∧
  (∀ t0 s, SyncOk t0 s →
    let t := s.elapse (t0 + s.clk.periodMs * 2000000 - s.clk.elapsed)
    exec .holdover s = .next { t with clk := { t.clk with holdover := true, syncLocked := false, goodEdges := 0 } }) ∧
  (∀ ps s, s.tw.st = 1 → s.clk.align = false →
    let good := if ps.natAbs ≤ 8000 then s.clk.goodExch + 1 else 0
    let t : State := { s with clk := { s.clk with
      twinOffset := sat32 ps, missExch := 0, goodExch := good
      twinValid := decide (ps.natAbs ≤ 8000) && (s.clk.twinValid || decide (16 ≤ good)) } }
    exec (.twinTimeExchange ps false) s = .next (if s.tw.role = 1 then t.steer (-ps) else t) ∧
      exec (.twinTimeExchange ps true) s =
        .next { s with clk := { s.clk with missExch := s.clk.missExch + 1, goodExch := 0 } }) ∧
  (∀ ps s, s.tw.st = 1 → s.clk.align = true →
    let good := if ps.natAbs ≤ 8000 then s.clk.goodExch + 1 else 0
    exec (.twinTimeExchange ps false) s = .next (({ s with clk := { s.clk with
      twinOffset := sat32 ps, missExch := 0, goodExch := good
      twinValid := decide (ps.natAbs ≤ 8000) && (s.clk.twinValid || decide (16 ≤ good)) } } : State).alignCtc ps)) ∧
  (∀ s, 10 ≤ s.clk.missExch → exec .twinValidLoss s = .next { s with clk := { s.clk with twinValid := false, goodExch := 0 } })

/-- Monitors (09 R310, R313, R322, R515): an excursion of each supply is recorded by the monitors that see it and reacted to at its level: a
Spire's, a Tower's, the package's, or the drawn level where none is given; a clock more than 2 % off likewise, one within 2 % is let
pass; the loss of the reference clock is recorded by both I/O dies and decided PACKAGE. -/
def Obligations.Monitors : Prop :=
  (∀ (t : Fin 4) s, exec (.supplyExcursion (.spire t)) s =
    .next ((s.record (srcTower t.val 0x18) 37 lvTower {}).towerQuarantine t.val)) ∧
  (∀ (sp : Fin 64) s, (s.spire sp.val).quarantined = false → exec (.supplyExcursion (.spireIsland sp)) s =
    .next ((s.record (srcTower (sp.val / 16) 0x18) 37 lvUnit { source := some sp.val }).quarantine sp.val)) ∧
  (∀ s, exec (.supplyExcursion .base) s = .next ((List.range 4).foldl (fun s t =>
    (s.record (srcTower t 0x18) 37 lvPackage {}).packageFrom (srcTower t 0x18)) s)) ∧
  (∀ s, exec (.supplyExcursion .io) s = .next (((s.record (srcIo 0 0) 37 lvPackage {}).record (srcIo 1 0) 37 lvPackage {}).packageAll)) ∧
  (∀ (l : Fin 2) s, exec (.supplyExcursion (.lantern l)) s =
    .next (((s.record (srcIo (1 - l.val) 0) 37 lvPackage {}).lanternOut l.val).packageAll)) ∧
  (∀ rail s, rail = .phy ∨ rail = .gpio → let l := s.openLevel
    exec (.supplyExcursion rail) s =
      .next (((l.2.record (srcIo 0 0) 37 l.1 {}).record (srcIo 1 0) 37 l.1 {}).reactAt l.1 none)) ∧
  (∀ s, let l := s.openLevel
    exec (.supplyExcursion .dram) s =
      .next (((List.range 4).foldl (fun s t => s.record (srcTower t 0x18) 37 l.1 {}) l.2).reactAt l.1 none)) ∧
  (∀ sp count s, ClockOffOk sp count s → exec (.clockMonitorWindow (.spire sp) count) s =
    .next ((s.record (srcTower (sp.val / 16) 0x18) 38 lvUnit { source := some sp.val }).quarantine sp.val)) ∧
  (∀ (d : Fin 16) count s, 10000 < ((2 * count : Nat) - (10000 : Int)).natAbs * 50 →
    exec (.clockMonitorWindow (.dome d) count) s = .next ((s.record (srcTower (d.val / 4) 0x18) 38 lvTower
      { source := some (srcDome d.val) }).towerQuarantine (d.val / 4))) ∧
  (∀ (t : Fin 4) count s, 14000 < ((2 * count : Nat) - (14000 : Int)).natAbs * 50 →
    exec (.clockMonitorWindow (.towerBase t) count) s =
      .next ((s.record (srcTower t.val 0x18) 38 lvPackage {}).packageFrom (srcTower t.val 0x18))) ∧
  (∀ isl count s, ((2 * count : Nat) - (s.setCount isl : Int)).natAbs * 50 ≤ s.setCount isl →
    exec (.clockMonitorWindow isl count) s = .next s) ∧
  (∀ s, exec .referenceClockLoss s = .next (((s.record (srcIo 0 0) 38 lvPackage {}).record (srcIo 1 0) 38 lvPackage {}).packageAll))

/-- The Lanterns (09 R312, R313, R318 to R322): a heartbeat clears its source's count of missing ones or raises it; three missing ones of a
Tower Monitor decide PACKAGE, of a Cupola lose it; a frame goes out with its number, its level and what was heard; a partner's
PACKAGE decision is adopted, three missing frames decide it; a Lantern decides a report of each level by itself; the pin of one that works toggles. -/
def Obligations.Lanterns : Prop :=
  (∀ (t : Fin 4) l ok s, LanternIn l s →
    exec (.towerMonitorHeartbeat t l ok) s = .next (s.modLantern l.val fun x => { x with
      miss := tmod 0 x.miss t.val fun n => if ok then 0 else n + 1
      heard := if ok ∧ t.val ∉ x.heard then t.val :: x.heard else x.heard })) ∧
  (∀ (c : Fin 2) l ok s, LanternIn l s →
    exec (.cupolaHeartbeat c l ok) s = .next (s.modLantern l.val fun x => { x with
      miss := tmod 0 x.miss (4 + c.val) fun n => if ok then 0 else n + 1
      heard := if ok ∧ 4 + c.val ∉ x.heard then (4 + c.val) :: x.heard else x.heard })) ∧
  (∀ (t : Fin 4) l s, LanternIn l s → 3 ≤ tget 0 (s.lantern l.val).miss t.val →
    let u := (s.modLantern l.val fun x => { x with miss := tput 0 x.miss t.val 0 }).record (srcIo l.val 2) 36 lvPackage {}
    exec (.hbLost (.towerMonitor t) l) s = .next (u.packageDecision l.val u.recs.seq)) ∧
  (∀ (c : Fin 2) l s, LanternIn l s → 3 ≤ tget 0 (s.lantern l.val).miss (4 + c.val) →
      tget false s.saf.cupolaOut c.val = false → (s.saf.takeover = true → c.val ≠ s.saf.active) →
    exec (.hbLost (.cupola c) l) s = .next ((s.modLantern l.val fun x => { x with miss := tput 0 x.miss (4 + c.val) 0 }).loseCupola c.val 36
      (srcIo l.val 2))) ∧
  (∀ l s, LanternIn l s → exec (.crossWatchSend l) s = .next (s.modLantern l.val fun x => { x with
    cwSeq := x.cwSeq + 1, cwOut := some (x.cwSeq, x.level, x.heard), heard := [] })) ∧
  (∀ l (level : Fin 6) s, LanternIn l s →
    let t := s.modLantern l.val fun x => { x with cwMiss := 0 }
    exec (.crossWatchFrame l true level) s = .next (if level.val = 5 then t.packageDecision l.val t.recs.seq else t) ∧
      exec (.crossWatchFrame l false level) s = .next (s.modLantern l.val fun x => { x with cwMiss := x.cwMiss + 1 })) ∧
  (∀ l s, LanternIn l s → (s.lantern l.val).peerLost = false → 3 ≤ (s.lantern l.val).cwMiss →
    let t := (s.modLantern l.val fun x => { x with peerLost := true }).record (srcIo l.val 2) 36 lvPackage { detail := 7 }
    exec (.peerSilent l) s = .next (t.packageDecision l.val t.recs.seq)) ∧
  (∀ l s, LanternIn l s → exec (.lanternDecision l .masked) s = .next s ∧
    exec (.lanternDecision l .task) s = .next (s.modLantern l.val fun x => { x with level := max x.level 1 })) ∧
  (∀ l src s, LanternIn l s → exec (.lanternDecision l (.unitLoss src)) s =
    .next ((s.modLantern l.val fun x => { x with level := max x.level 2 }).unitOut src)) ∧
  (∀ l s, LanternIn l s → exec (.lanternDecision l .package) s = .next (s.packageDecision l.val s.recs.seq)) ∧
  (∀ l (p : Fin 16) s, LanternIn l s → (s.part p.val).live = true →
    exec (.lanternDecision l (.partition p)) s =
      .next ((s.modLantern l.val fun x => { x with level := max x.level 3 }).degrade p.val)) ∧
  (∀ l (t : Fin 4) s, LanternIn l s → tget false s.saf.towerQ t.val = false →
    exec (.lanternDecision l (.tower t)) s =
      .next ((s.modLantern l.val fun x => { x with level := max x.level 4 }).towerQuarantine t.val)) ∧
  (∀ (l : Fin 2) s, (s.lantern l.val).toggling = true →
    exec (.lantHbToggle l) s = .next (s.modLantern l.val fun x => { x with hbLevel := !x.hbLevel }))

/-- Redundancy (09 R308, R309, R313, R321, R331 to R342; 01 R21, R22; 10 R376): a lockstep mismatch of an address generator marks its next
tile, of a Dome Scheduler takes its Dome out, a parity error of a unit's configuration is handled as its lockstep mismatch; a takeover makes the standby active, and its Batch Builder
reissues the steps where the lost one built, or ends in a PACKAGE decision where no standby is left; signatures are kept and compared once both are there;
an arbitration without a mismatching Spire ends it; a self-test slot without a failure passes; an audit that agrees moves on; a
retry and a repaired lane are recorded; a window of an engine that is due opens, one that is open closes. -/
def Obligations.Redundancy : Prop :=
  (∀ (sp : Fin 64) s, (s.spire sp.val).quarantined = false →
    exec (.lockstepMismatch (.addrGen sp) false) s = .next (s.modSpire sp.val fun x => { x with mismatch := true })) ∧
  (∀ (d : Fin 16) cfg s, tget false s.saf.domeOut d.val = false →
    exec (.lockstepMismatch (.domeSched d) cfg) s = .next ((s.record (srcDome d.val) 35 lvUnit {}).domeOutOfService d.val)) ∧
  (∀ src s, srcUsed src = true → s.silentUnit src = false → 64 ≤ src → exec (.lockstepMismatch (.other src) true) s = .next (s.lockstep src 35)) ∧
  (∀ s, TakeoverOk s → s.saf.bbActive ≠ s.saf.active → exec .cupolaTakeover s = .next (tookOver s)) ∧
  (∀ s, TakeoverOk s → s.saf.bbActive = s.saf.active → tget false s.saf.bbOut (1 - s.saf.active) = false →
    exec .cupolaTakeover s =
      .next ({ tookOver s with saf := { (tookOver s).saf with bbActive := 1 - s.saf.active } } : State).reissueSteps) ∧
  (∀ s, s.saf.takeover = true → tget false s.saf.cupolaOut (1 - s.saf.active) = true →
    exec .cupolaTakeover s = .next (((({ s with saf := { s.saf with takeover := false } } : State).record (srcIo s.saf.active 1) 35 lvPackage
      {})).packageAll)) ∧
  (∀ job sigs s, (s.job job).live = true → (s.job job).dual = 1 ∨ (s.job job).dual = 2 → (s.job job).compared = false →
    exec (.dualSignature job false sigs) s = .next ((s.modJob job fun b => { b with sigsP := some sigs }).compareDual job) ∧
      exec (.dualSignature job true sigs) s = .next
        ((s.modJob job fun b => { b with sigsS := some (if b.shadowFailed then [] else sigs) }).compareDual job)) ∧
  (∀ (p : Fin 16) s, (s.part p.val).live = true → (s.part p.val).dual.arb = true →
    exec (.dualArbitration p []) s = .next (s.modPart p.val fun x => { x with dual := { x.dual with arb := false } })) ∧
  (∀ s, s.saf.test.enabled = true → s.saf.test.slot < 199 →
    let x := s.saf.test
    let t := s.elapse ((x.rotation * 200 + x.slot + 1) * 1000000 - s.clk.elapsed)
    let res := if ((slotUnits x.slot).filter fun u => !t.skipped u) = [] then 3 else 1
    exec (.selftestSlot []) s = .next { t with saf := { t.saf with test := { x with
      slot := x.slot + 1, now := tput 0 x.now x.slot res } } }) ∧
  (∀ l s, LanternIn l s → tget 0 s.saf.audit l.val + 1 < (sourcesFrom 0).length →
    exec (.configAudit l true true) s = .next { s with saf := { s.saf with
      audit := tput 0 s.saf.audit l.val (tget 0 s.saf.audit l.val + 1) } }) ∧
  (∀ e s, exec (.towerLinkCrcRetry e) s = .next (s.record (edgeSource e) 26 lvMasked {})) ∧
  (∀ e (m : Fin 4) s, m.val < edgeModules e → (s.lostMask e).testBit m.val = false →
    exec (.laneFailure e m true) s = .next
      (({ s with saf := { s.saf with lanesBad := tmod 0 s.saf.lanesBad (4 * edgeKey e + m.val) fun n => n + 1 } } : State).record
        (edgeSource e) 27 lvMasked {})) ∧
  (∀ (e : Fin 2) s, TestUnit.engine e ∉ s.saf.test.windows → s.windowDue (.engine e) = true →
    exec (.testWindow (.engine e) true) s = .next { s with saf := { s.saf with test := { s.saf.test with
      windows := .engine e :: s.saf.test.windows } } }) ∧
  (∀ (e : Fin 2) s, TestUnit.engine e ∈ s.saf.test.windows →
    exec (.testWindow (.engine e) false) s = .next { s with saf := { s.saf with test := { s.saf.test with
      windows := s.saf.test.windows.filter fun u => u ≠ .engine e } } })

namespace Sys2Proof.Certs

/-! ### Cameras -/

/-- The receive slot of a virtual channel. -/
abbrev slotOfVc (port vc : Fin 16) : Nat := 16 * port.val + vc.val

/-- A bound slot of a port in service. -/
abbrev BoundOk (port vc : Fin 16) (b : Binding) (s : State) : Prop :=
  tget false s.saf.portOut port.val = false ∧ (s.stream (slotOfVc port vc)).bind = some b

/-- A bound slot with a frame in progress. -/
abbrev FrameOk (port vc : Fin 16) (b : Binding) (r : RxFrame) (s : State) : Prop :=
  BoundOk port vc b s ∧ (s.stream (slotOfVc port vc)).frame = some r

/-- A packet with a good header and a good checksum that is neither a line start nor a line end. -/
abbrev GoodPkt (p : CsiPkt) : Prop := p.header = .clean ∧ p.dt ≠ 2 ∧ p.dt ≠ 3 ∧ p.crcOk = true

/-- A complete frame in a buffer of a QM partition, without a launch, all of whose checks pass. -/
abbrev FrameReleaseOk (port vc : Fin 16) (b : Binding) (r : RxFrame) (i : Nat) (s : State) : Prop :=
  FrameOk port vc b r s ∧ r.buf = some i ∧ r.failed = false ∧ r.openLine = false ∧ r.lines = b.f 8 2 ∧ b.flag 0 = false ∧
    b.flag 1 = false ∧ b.flag 4 = false ∧ r.answers = false ∧ (s.part b.part).cls = 0

/-- A bound slot whose silence is not known yet and that has no rebind waiting. -/
abbrev SilentOk (port vc : Fin 16) (b : Binding) (s : State) : Prop :=
  (s.stream (slotOfVc port vc)).bind = some b ∧ (s.stream (slotOfVc port vc)).silent = false ∧
    (s.stream (slotOfVc port vc)).next = none

/-- A TRUSTED stream with a time of its next challenge. -/
abbrev ReauthOk (port vc : Fin 16) (b : Binding) (t : Nat) (s : State) : Prop :=
  (s.stream (slotOfVc port vc)).bind = some b ∧ (s.stream (slotOfVc port vc)).reauthAt = some t ∧ (s.stream (slotOfVc port vc)).trust = 2

end Sys2Proof.Certs

/-- Cameras (11 R379, R381 to R395): a frame start of a bound slot begins a frame,
or applies an unbind that waits; a packet with a bad header or a bad checksum fails the
frame; an image line counts, is stored while it fits and fails the frame where its length is not the binding's; a released frame's header
is written and its event posted with start and end; silence is recorded once; a response that verifies makes the stream
TRUSTED, one that does not makes it untrusted; the camera is challenged again in time. -/
def Obligations.Cameras : Prop :=
  (∀ port vc b n s, BoundOk port vc b s → (s.stream (slotOfVc port vc)).unbind = false → (s.stream (slotOfVc port vc)).next = none →
      (s.stream (slotOfVc port vc)).frame = none →
    exec (.csiFrameStart port vc n) s = .next (s.beginFrame (slotOfVc port vc) b n)) ∧
  (∀ port vc n s, tget false s.saf.portOut port.val = false → (s.stream (slotOfVc port vc)).unbind = true →
    exec (.csiFrameStart port vc n) s = .next (s.applyUnbind (slotOfVc port vc))) ∧
  (∀ port vc b r p nonce s, FrameOk port vc b r s → p.header = .bad ∨ (p.header = .clean ∧ p.dt ≠ 2 ∧ p.dt ≠ 3 ∧ p.crcOk = false) →
    exec (.csiPacket port vc p nonce) s = .next (s.csiFail (slotOfVc port vc))) ∧
  (∀ port vc b r p nonce s, FrameOk port vc b r s → GoodPkt p → p.dt = b.f 3 1 → p.dt ≠ 0x12 →
    let k := slotOfVc port vc
    let ok := decide (lineBytes p.dt (b.f 6 2) = some p.data.length) && !p.ingressDrop
    let t := if ok then (if r.lines < b.f 8 2 then s.storeLine b r (b.f 0x0B 1 + r.lines) p.data else s) else s.csiFail k
    exec (.csiPacket port vc p nonce) s = .next (t.modFrame k fun r => { r with lines := r.lines + 1 })) ∧
  (∀ port vc b r p nonce s, FrameOk port vc b r s → GoodPkt p → p.dt ≠ b.f 3 1 → p.dt ≠ 0x12 →
    exec (.csiPacket port vc p nonce) s =
      .next (s.modStream (slotOfVc port vc) fun x => { x with discarded := x.discarded + 1 })) ∧
  (∀ port vc b r i s, FrameReleaseOk port vc b r i s →
    let k := slotOfVc port vc
    let a := b.f 0x10 8 + i * b.f 0x18 4
    let t := (s.writeCells a ((s.stream k).header b r) (s.unitAt a) 65).modStream k fun x => { x with frame := none, first := false }
    let u := t.modStream k fun x => { x with dropped := 0 }
    exec (.csiFrameEnd port vc) s = .next (u.postStream k 1 (r.fc.getD 0)
      [r.start % 2 ^ 32, r.start / 2 ^ 32, u.clk.ctc % 2 ^ 32, u.clk.ctc / 2 ^ 32])) ∧
  (∀ port vc b s, SilentOk port vc b s →
    let k := slotOfVc port vc
    let t := s.elapse ((s.stream k).lastStart + b.timeoutNs - s.clk.elapsed)
    exec (.streamSilent port vc) s = .next (((t.modStream k fun x => { x with silent := true }).postStream k 4
      ((s.stream k).prevFc.getD 0) []).record (rxSource k) 4 lvTask { part := some b.part })) ∧
  (∀ port vc b d fc s, (s.stream (slotOfVc port vc)).bind = some b → (s.stream (slotOfVc port vc)).verify = some (d, fc) →
    let k := slotOfVc port vc
    let due := if b.f 0x28 2 = 0 then none else some (s.clk.elapsed + 1000000000 * b.f 0x28 2)
    exec (.responseVerified port vc) s = .next (if s.responseOk d fc then
      (s.modStream k fun x => { x with
        snap := some (slice d 4 16, slice d 24 57, four d 256), nonce := none, verify := none, left := 0, reauthAt := due }).setTrust k 2
      else s.untrust k)) ∧
  (∀ port vc b t nonce s, ReauthOk port vc b t s →
    let k := slotOfVc port vc
    let u := s.elapse (t - s.clk.elapsed)
    exec (.reauthChallenge port vc nonce) s = .next ((u.modStream k fun x => { x with
      reauthAt := some (u.clk.elapsed + 1000000000 * b.f 0x28 2) }).challenge k nonce)) ∧
  (∀ port vc nonce s, s.tw.st = 1 →
    exec (.challengeNonceReceive port vc nonce) s = .next (s.takeNonce (slotOfVc port vc) nonce))

namespace Sys2Proof.Certs

/-! ### Displays and the East I3C role -/

/-- A port with a binding in force and none waiting. -/
abbrev DisplayOk (port : Fin 4) (b : Binding) (s : State) : Prop :=
  tget false s.cam.portOff port.val = false ∧ (s.display port.val).bind = some b ∧ (s.display port.val).next = none

/-- A line to send whose layers can all be read. -/
abbrev LineOk (port : Fin 4) (b : Binding) (s : State) : Prop :=
  let d := s.display port.val
  DisplayOk port b s ∧ d.line < b.f 8 2 ∧ d.frames ≠ 0 ∧
    ((b.stack d.disabled d.line).filter fun (x : Nat × Layer) => s.layerFaults (b.f 6 2) x.2 d.line) = []

/-- An enabled layer that is not disabled yet. -/
abbrev LayerOk (port layer : Fin 4) (b : Binding) (s : State) : Prop :=
  (s.display port.val).bind = some b ∧ (b.layer layer.val).flags.testBit 0 = true ∧
    (s.display port.val).disabled.getLsbD layer.val = false

end Sys2Proof.Certs

/-- Displays (11 R396 to R401): the first frame of a binding starts at the first of its frame times at or after the instant set for it and
completes the bind; a frame starts at its time; a line is composed from its layers, sent and added to the frame's checksum; a layer whose source
cannot be read is disabled with its record and its event; a loopback test switches off the display ports that failed, with a record each, and frees its claim. -/
def Obligations.Displays : Prop :=
  (∀ (port : Fin 4) b s, tget false s.cam.portOff port.val = false → (s.display port.val).bind = none →
      (s.display port.val).next = some b →
    let k := b.frameFrom (s.display port.val).nextAt
    exec (.displayFrameStart port) s = .next (((s.elapseTo (b.frameAt k)).modDisplay port.val fun _ =>
      ({ bind := some b, k := k + 1 } : Display).begin_ b false).finishAll (.displayBind port.val) stOk 0 [])) ∧
  (∀ port b s, DisplayOk port b s →
    exec (.displayFrameStart port) s = .next ((s.elapseTo (b.frameAt (s.display port.val).k)).modDisplay port.val fun d =>
      ({ d with k := d.k + 1 }).begin_ b false)) ∧
  (∀ port b late s, LineOk port b s →
    let d := s.display port.val
    let ls := b.stack d.disabled d.line
    let w := b.f 6 2
    let hit := ls.any fun (l : Nat × Layer) => late.any fun t =>
      decide (t.1 = l.1) && decide (t.2 < min w (l.2.x + l.2.w)) && decide (l.2.x < w)
    let bytes := packLine (decide (b.f 3 1 = 0x24)) ((List.range w).map fun x => s.composePixel b ls late x d.line)
    exec (.displayLineSend port late) s = .next (s.modDisplay port.val fun d' => { d' with
      line := d.line + 1, under := d'.under || hit, sent := bytes, crc := bytes.foldl (crcByte 64 0x42F0E1EBA9EA3693) d'.crc })) ∧
  (∀ port layer b s, LayerOk port layer b s →
    let y := b.layer layer.val
    let bit := if (s.kindRange y.da (max 1 y.span)).isSome then 17 else 11
    let t := (s.record (txSource port.val) bit lvTask { addr := y.da, part := some b.part, source := some (txSource port.val) }).modDisplay
      port.val fun d => { d with disabled := d.disabled ||| BitVec.ofNat 4 (2 ^ layer.val) }
    exec (.layerDisabled port layer) s = .next (t.post 6 (txSource port.val) 1 (port.val * 16 + layer.val) [] false)) ∧
  (∀ fails s, (s.claimOf 3 0).isSome = true →
    let bad := (List.range 4).filter fun p => decide (p ∈ fails)
    let t := bad.foldl (fun s p =>
      let u := s.record (srcIo (p / 2) (0x18 + p % 2)) 33 lvUnit {}
      { u with cam := { u.cam with portOff := tput false u.cam.portOff p true } }) s
    let v : State := { t with saf := { t.saf with test := { t.saf.test with loopback := if bad.isEmpty then 1 else 2 } } }
    exec (.loopbackTestDone fails) s = .next ((v.dropClaims fun c => decide (c.res = 3)).bump))

/-- The East I3C role (11 R404): a handoff that is accepted gives the claim, one that is not ends its command with ST_E_TIMEOUT; a bulk
claim ends in time; a role that returns challenges the cameras whose binding asks for it; one that does not return is asked back again with a record. -/
def Obligations.I3cRole : Prop :=
  (∀ c s, s.cam.role = 1 → s.cam.roleClaim = some c → s.waits .i3cHandoff = true →
    let d : Claim := { c with until_ := if c.res = 5 then some (s.clk.elapsed + 1000000000 * c.value) else none }
    exec (.i3cHandoffAccepted true) s = .next ((({ s with
      cam := { s.cam with role := 2, roleClaim := some d }, claims := s.claims ++ [d] } : State).bump.finishAll .i3cHandoff stOk 0 []))) ∧
  (∀ c s, s.cam.role = 1 → s.cam.roleClaim = some c →
    exec (.i3cHandoffAccepted false) s = .next
      (({ s with cam := { s.cam with role := 0, roleClaim := none } } : State).finishAll .i3cHandoff stTimeout 0 [])) ∧
  (∀ c s, s.claimOf 5 0 = some c →
    exec .camSbBulkExpiry s = .next (((s.elapse (c.until_.getD 0 - s.clk.elapsed)).dropClaims fun x => decide (x.res = 5)).bump)) ∧
  (∀ nonces s, s.cam.role = 3 →
    let t : State := { s with cam := { s.cam with role := 0, roleClaim := none } }
    let keys := (s.cam.streams.filter fun (x : Nat × Stream) => match x.2.bind with
      | some b => b.flag 1
      | none => false).map (·.1)
    exec (.i3cRoleReturn nonces) s = .next ((List.range keys.length).foldl (fun s i => s.challenge (keys.getD i 0) (nonces.getD i 0)) t)) ∧
  (∀ s, s.cam.role = 3 →
    let t := (s.elapse (s.cam.retryAt - s.clk.elapsed)).record (srcIo 1 8) 3 lvTask {}
    exec .i3cRoleRequestRetry s = .next { t with cam := { t.cam with retryAt := t.clk.elapsed + 100000000 } })

namespace Sys2Proof.Certs

/-! ### Resets and boot -/

/-- The package identity check is still to come and power is on. -/
abbrev IdentDue (s : State) : Prop := s.saf.identOk = false ∧ s.bs.powered = true

/-- No Lantern holds a failed check and both are in service. -/
abbrev LanternsGood (s : State) : Prop :=
  s.pkgIdent 0 = false ∧ s.pkgIdent 1 = false ∧ (s.lantern 0).out = false ∧ (s.lantern 1).out = false

/-- The state with the strap samples of a check kept. -/
abbrev sampled (ws : List Nat) (s : State) : State := { s with saf := { s.saf with prevStraps := ws } }

/-- The words of the check after Tower `t` has sampled its own straps again. -/
abbrev towerStraps (t : Fin 4) (ws : List Nat) (s : State) : List Nat := s.saf.prevStraps.set t.val (ws.getD t.val 0)

/-- The step of a Lantern with the LANTERN section that it runs already. -/
abbrev SectionOk (l : Fin 2) (f : FwImage) (s : State) : Prop :=
  s.bs.fw = some f ∧ s.bs.stage = stLoad ∧ (s.lantern l.val).out = false ∧ tget false s.bs.lanternsUp l.val = false ∧
    tget none s.bs.lantFw l.val = some f.lantern

end Sys2Proof.Certs

/-- Resets (14 R462 to R464, R481; 16 R514, R516, R520; 01 R29 to R32): power loss and power-on leave OTP and the host's own memory alone;
a long low pulse is a warm reset, a short one nothing, a delayed one comes in its time with its transition; a check of the package that
finds nothing releases it, or halts a package at end of life, one that finds something has every finding's effect; a reset Tower of a
consistent package starts anew, but for units that failed their self-test, and its command completes, of an inconsistent one the package
goes into reset. -/
def Obligations.Resets : Prop :=
  (∀ s, exec .powerLoss s = .next { queues := resetQueues, otp := s.otp, bs := { powered := false }, free := s.free, pending := s.pending
                                    mem := { bytes := s.mem.bytes.filter fun c => decide (hostBase ≤ c.1) } }) ∧
  (∀ s, s.bs.powered = false →
    exec .powerOn s = .next { queues := resetQueues, otp := s.otp, bs := { powered := true }, free := s.free, pending := s.pending
                              mem := { bytes := s.mem.bytes.filter fun c => decide (hostBase ≤ c.1) } }) ∧
  (∀ ns s, 10000 ≤ ns → exec (.resetInNPulse ns) s = .next (s.warmReset 1)) ∧
  (∀ ns s, ns < 1000 → exec (.resetInNPulse ns) s = .next s) ∧
  (∀ cause t s, s.bs.delayed = some (cause, t) → s.bs.lcTo = none →
    exec .delayedWarmReset s = .next ((s.elapse (t - s.clk.elapsed)).warmReset cause)) ∧
  (∀ cause t lc s, s.bs.delayed = some (cause, t) → s.bs.lcTo = some lc →
    exec .delayedWarmReset s = .next (((s.elapse (t - s.clk.elapsed)).transition lc).warmReset cause)) ∧
  (∀ ws hears s, IdentDue s → LanternsGood s → s.identFound s.saf.prevStraps ws hears = [] → s.otp.lc ≠ 5 →
    let t := (sampled (ws.take 6) s).lanternsUp true
    exec (.pkgIdentCheck ws hears) s = .next { t with saf := { t.saf with identOk := true }, bs := { t.bs with stage := stReleased } }) ∧
  (∀ ws hears s, IdentDue s → LanternsGood s → s.identFound s.saf.prevStraps ws hears = [] → s.otp.lc = 5 →
    let t := (sampled (ws.take 6) s).lanternsUp true
    exec (.pkgIdentCheck ws hears) s =
      .next (({ t with saf := { t.saf with identOk := true }, bs := { t.bs with stage := stHalted } } : State).bootErr 3 0x0C)) ∧
  (∀ ws hears s, IdentDue s → s.identFound s.saf.prevStraps ws hears ≠ [] →
    exec (.pkgIdentCheck ws hears) s = .next
      (((sampled (ws.take 6) s).identFailsAll (s.identFound s.saf.prevStraps ws hears)).lanternsUp false)) ∧
  (∀ t ws hears fails s, s.waits (.towerReset t.val) = true → s.pkgIdent 0 = false → s.pkgIdent 1 = false →
      s.identFound s.saf.prevStraps (towerStraps t ws s ++ ws.drop 6) hears = [] →
    let u := (fails.filter fun k => decide (srcTowerOf k = some t.val)).foldl (fun s k => s.selftestFail k 0)
      ((sampled (towerStraps t ws s) s).freshTower t.val)
    exec (.towerResetDone t ws hears fails) s = .next (u.finishAll (.towerReset t.val) stOk 0 [])) ∧
  (∀ t ws hears fails s, s.waits (.towerReset t.val) = true →
    let found := s.identFound s.saf.prevStraps (towerStraps t ws s ++ ws.drop 6) hears
    found ≠ [] ∨ s.pkgIdent 0 = true ∨ s.pkgIdent 1 = true →
    exec (.towerResetDone t ws hears fails) s = .next
      ((((sampled (towerStraps t ws s) s).warmReset s.bs.cause).identFailsAll found).lanternsUp false))

/-- Boot (14 R465 to R479): GO takes the offered image; an image that is in and passes every check is loaded, one that fails leaves its
code and the next slot is tried; no image and a late read leave their codes; a recovery image is checked the same way; a Lantern keeps
the section it runs; units initialised lead to CONFIG, those that failed out of service with their code, and then, DRAM wiped, commands are
taken; an entropy source's failure is SELFTEST. -/
def Obligations.Boot : Prop :=
  (∀ s, s.saf.identOk = true → exec .dramWipeDone s = .next { s with bs := { s.bs with wiped := true } }) ∧
  (∀ (ep : Fin 2) s, s.bootOpen = true → s.slotLen s.firstSlot ≠ 0 →
    exec (.bootGo ep) s = .next { s with bs := { s.bs with
      goEp := some ep.val, stage := stFetch, slot := s.firstSlot, tried := [s.firstSlot], waitSince := s.clk.elapsed } }) ∧
  (∀ ok s, s.bs.stage = stFetch →
    let n := s.slotLen s.bs.slot
    exec (.imageFetchDone ok) s = .next
      (if !ok || !s.srcOk (s.bootDa s.bs.slot) n then (s.bootErr s.bs.slot 2).trySlot
       else match s.checkImage (s.rd (s.bootDa s.bs.slot) n) with
        | .inr code => (s.bootErr s.bs.slot code).trySlot
        | .inl f => if s.stagedDiffers s.bs.slot f then (s.bootErr s.bs.slot 10).trySlot else s.loadImage f s.bs.slot false)) ∧
  (∀ s, s.bs.stage = stWaitImage → s.bs.goEp = none →
    exec .noImage s = .next (((s.elapse (s.bs.waitSince + 1000000000 - s.clk.elapsed)).bootErr 3 1).recoveryWait)) ∧
  (∀ s, s.bs.stage = stFetch → exec .fetchTimeout s = .next (((s.elapse 50000000).bootErr s.bs.slot 2).trySlot)) ∧
  (∀ l s, s.bs.rcvBy = some l → s.bs.rcvState = 3 →
    exec .recoveryVerifyDone s = .next (match s.checkImage (s.bs.rcvData.take (tget 0 s.bs.rcvLen l)) with
      | .inl f => let t := s.loadImage f 2 true
        { t with bs := { t.bs with rcvState := 4 } }
      | .inr code => let t := (s.bootErr 2 code).recoveryWait
        { t with bs := { t.bs with rcvErr := code } })) ∧
  (∀ l f s, SectionOk l f s →
    let t : State := { s with bs := { s.bs with
      lanternsUp := tput false s.bs.lanternsUp l.val true, lantFw := tput none s.bs.lantFw l.val (some f.lantern) } }
    exec (.lanternSectionCheck l true) s = .next (if t.sectionsDone then { t with bs := { t.bs with stage := stUnitInit } } else t)) ∧
  (∀ fails s, s.bs.stage = stUnitInit → fails.filter srcUsed = [] →
    exec (.unitInitDone fails) s = .next { s with bs := { s.bs with stage := stConfig } }) ∧
  (∀ fails s, s.bs.stage = stUnitInit → fails.filter srcUsed ≠ [] →
    let t := ((fails.filter srcUsed).foldl (fun s u => s.selftestFail u 0) s).bootErr s.bs.booted 0x0B
    exec (.unitInitDone fails) s = .next { t with bs := { t.bs with stage := stConfig } }) ∧
  (∀ f s, s.bs.fw = some f → s.bs.stage = stConfig → s.bs.wiped = true →
    let t := s.placeQueues
    let u := t.setQ 0 { t.q 0 with enable := true }
    exec .lmpReady s = .next { u with
      bs := { u.bs with stage := stReady, lmpReady := true, timeUs := u.clk.elapsed / 1000, staging := none }
      otp := { u.otp with rollback := max u.otp.rollback f.rollback } }) ∧
  (∀ (side : Fin 2) s,
    let t : State := { s with bs := { s.bs with entropyBad := tput false s.bs.entropyBad side.val true } }
    exec (.entropyHealthFail side) s = .next
      (t.record (srcIo side.val 0) 33 (if tget false t.bs.entropyBad (1 - side.val) then lvUnit else lvMasked) {}))

namespace Sys2Proof.Certs

/-! ### Power and heat -/

/-- A condition that R491 has not reported yet. -/
abbrev ConditionOk (spot : Fin 36) (s : State) : Prop := (s.spot spot.val).cond = true ∧ (s.spot spot.val).reported = false

/-- A sample that is accepted, and what follows from it does not move P_allow by 10 W. -/
abbrev SampleOk (w : List Byte) (t : State) (c : Coolant) (s : State) : Prop :=
  let u := s.elapse (s.heat.cool.at_ - s.clk.elapsed)
  t = { u with heat := { u.heat with cool := { u.heat.cool with at_ := u.clk.elapsed + 10000000 } } } ∧
    hubAccepted t.heat.cool.seqNo true w = true ∧ c = t.heat.cool.sample w t.clk.elapsed ∧ c.allow < c.told + 10 ∧ c.told < c.allow + 10

/-- A window in which flow and T_OUT never failed. -/
abbrev WindowOk (s : State) : Prop := s.heat.cool.winOk = true ∧ s.heat.cool.winN ≠ 0

/-- Survival goes on and its 5 s check is still to come. -/
abbrev SurvivalOk (at_ cause : Nat) (s : State) : Prop :=
  s.heat.cool.survival = some (at_, cause) ∧ s.heat.cool.checked = false ∧ s.heat.towersOff = false

end Sys2Proof.Certs

/-- Sensors and ceilings (15 R490 to R494): two readings that agree govern by their mean, one alone by itself, none by the limit of its die; a
condition that lasts is recorded by both Lanterns and slows its die; each millisecond sets the Tower's ceiling and reports
one that moved by two steps since the last report; an overheated base die and a compute-die trip react with their records. -/
def Obligations.Sensors : Prop :=
  (∀ i x y, kept (some x) = some x → kept (some y) = some y →
    govern i (some x) (some y) = if (x - y).natAbs ≤ 24 then ((x + y + 1) / 2, false, false) else (max x y, true, true)) ∧
  (∀ i x, kept (some x) = some x → govern i (some x) none = (x, true, true) ∧ govern i none (some x) = (x, true, true) ∧
    govern i none none = (spotLimit i, true, false)) ∧
  (∀ (spot : Fin 36) a b s, (govern spot.val a b).2.2 = false →
    let g := govern spot.val a b
    let t := s.ageLife
    let x := t.spot spot.val
    let y : HotSpot := { gov := g.1, cond := g.2.1, since := if x.cond then x.since else t.clk.elapsed, reported := x.reported && g.2.1 }
    let u : State := { t with heat := { t.heat with spots := tput {} t.heat.spots spot.val y } }
    exec (.sensorRead spot a b) s = .next { u with heat := { u.heat with life := u.heat.life.cycle (u.hottest computeSpots) } }) ∧
  (∀ (spot : Fin 36) s, ConditionOk spot s →
    let t := s.elapse ((s.spot spot.val).since + 1000000001 - s.clk.elapsed)
    let u : State := { t with heat := { t.heat with spots := tput {} t.heat.spots spot.val { s.spot spot.val with reported := true } } }
    let v := [0, 1].foldl (fun s l => if (s.lantern l).out then s else s.record (srcIo l 2) 39 lvUnit { detail := spot.val }) u
    let w := v.postHeat (spotUnit spot.val) 3 spot.val []
    exec (.sensorFaultPersist spot) s = .next
      (if spot.val < 32 then (w.modTower (spot.val / 8) fun t => { t with cap := 8 }).wantTower (spot.val / 8)
       else { w with heat := { w.heat with halfRate := tput false w.heat.halfRate ((spot.val - 32) / 2) true } })) ∧
  (∀ (t : Fin 4) x base s, s.heat.towersOff = false →
    let u := s.elapse ((s.tower t.val).at_ - s.clk.elapsed)
    (u.tower t.val).next (u.hottest (towerSpots t.val)) (u.hottest (baseSpots t.val)) u.clk.elapsed = (x, base) →
    x.ceil < x.told + 2 → x.told < x.ceil + 2 →
    exec (.thermalCeilingUpdate t) s = .next
      ((u.modTower t.val fun _ => { x with at_ := u.clk.elapsed + 1000000 }).wantTower t.val)) ∧
  (∀ (t : Fin 4) x base s, s.heat.towersOff = false →
    let u := s.elapse ((s.tower t.val).at_ - s.clk.elapsed)
    (u.tower t.val).next (u.hottest (towerSpots t.val)) (u.hottest (baseSpots t.val)) u.clk.elapsed = (x, base) →
    x.ceil + 2 ≤ x.told ∨ x.told + 2 ≤ x.ceil →
    let v := (u.modTower t.val fun _ => { x with at_ := u.clk.elapsed + 1000000, told := x.ceil }).wantTower t.val
    let f := v.mhz x.ceil
    let d := f.2.draw 1
    let side := (base.map fun (b : Bool) => if b then 1 else 0).getD d.1
    exec (.thermalCeilingUpdate t) s = .next (d.2.postHeat (srcTower t.val 0x18) 2 (side * 2 ^ 24 + f.1) [])) ∧
  (∀ (t : Fin 4) h s, (s.tower t.val).hotSince = some h →
    exec (.baseDieOverheat t) s = .next
      (((s.elapse (h + 100000000 - s.clk.elapsed)).record (srcTower t.val 0x18) 40 lvPackage { detail := 2 }).packageFrom (srcTower t.val 0x18))) ∧
  (∀ (t : Fin 4) (spot : Fin 8) s, spot.val < 4 →
    let u := ((List.range 16).foldl (fun s i => s.modSpire (16 * t.val + i) fun x => { x with stopped := true }) s.ageLife).record
      (srcTower t.val 0x18) 40 lvTower { detail := 1 }
    let v := (if tget false u.saf.towerQ t.val then u else u.towerQuarantine t.val).postHeat (srcTower t.val 0x18) 4 (8 * t.val + spot.val) []
    exec (.thermalTrip t spot) s = .next
      ({ v with heat := { v.heat with life := { v.heat.life with trips := v.heat.life.trips + 1 } } } : State).postLife)

/-- Regulators, coolant and domains (15 R484 to R487, R496 to R505): a confirmed voltage lets a Tower rise, a current is kept, a
silent regulator holds it; an accepted sample that does not move P_allow by 10 W moves the coolant state on and balances power, ends Survival or enters it; a silent hub
enters it; a balance window whose two powers agree passes; Survival in which no flow was read switches the Towers off; hours are reported; a domain that may be
switched off loses what it held. -/
def Obligations.Coolant : Prop :=
  (∀ (t : Fin 4) mv s, mv ≤ vReq t.val (s.tower t.val).reqStep + 5 → vReq t.val (s.tower t.val).reqStep ≤ mv + 5 →
    exec (.avsVoltageConfirmed t mv) s = .next
      ((s.modTower t.val fun x => { x with okStep := x.reqStep, lostReg := false }).wantTower t.val)) ∧
  (∀ (t : Fin 4) ma s, exec (.avsCurrentRead t ma) s = .next (s.modTower t.val fun x => { x with ma := ma })) ∧
  (∀ (t : Fin 4) s, let l := s.openLevel
    exec (.regulatorNoAnswer t) s = .next
      (((l.2.record (srcTower t.val 0x18) 37 l.1 { detail := 1 }).modTower t.val fun x => { x with lostReg := true }).wantTower t.val)) ∧
  (∀ w p t c s, SampleOk w t c s →
    let u : State := { t with heat := { t.heat with cool := c } }
    exec (.hubSampleRead true w p) s = .next
      (if c.survival.isSome then
        (if (u.recent 1000000000).all (fun x => saysGood c.qNom x.2) then u.surviveEnd else u)
      else match u.flowLost with
        | some cause => u.survive cause
        | none => u.balancePower p)) ∧
  (∀ s, exec .hubSilent s = .next ((s.elapse (s.heat.cool.flowAt + 50000000 - s.clk.elapsed)).survive 2)) ∧
  (∀ (p : Nat) s, WindowOk s →
    let t := s.elapse (s.heat.cool.winAt - s.clk.elapsed)
    let c := s.heat.cool
    let den : Int := (384 * c.winN : Nat)
    (4 * ((c.winSum * 370 - (p : Int) * den).natAbs : Int) ≤ (p : Int) * den + 80000 * den) →
    exec (.heatBalanceWindow p) s = .next { t with heat := { t.heat with cool := { c with
      winSum := 0, winN := 0, winOk := true, winAt := t.clk.elapsed + 5000000000, failing := 0, passing := c.passing + 1
      capped := c.capped && decide (c.passing + 1 < 3) } } }) ∧
  (∀ at_ cause s, SurvivalOk at_ cause s → s.heat.cool.flows = [] →
    let t := s.elapse (at_ + 5000000000 - s.clk.elapsed)
    let u := (({ t with heat := { t.heat with cool := { t.heat.cool with checked := true } } } : State).postHeat srcHub 9 0 []).packageAll
    let off : Tab Bool := (List.range 164).foldl (fun t k => if k < 144 ∨ 160 ≤ k then tput false t k true else t) u.heat.domainOff
    let v := (List.range 64).foldl (fun s sp => s.modSpire sp fun x => { x with stopped := true }) u
    let w : State := { v with
      heat := { v.heat with towersOff := true, domainOff := off }
      mem := { v.mem with bytes := v.mem.bytes.filter fun c => decide (hostBase ≤ c.1), bad := [] } }
    exec .towersOff s = .next (w.users.foldl (fun s p => s.degrade p) w)) ∧
  (∀ s, let t := s.ageLife
    let u := (t.elapse ((t.heat.life.hours + 1) * 3600000000000 - t.heat.life.ns)).ageLife
    exec .life s = .next ({ u with heat := { u.heat with life := { u.heat.life with hours := u.heat.life.hours + 1 } } } : State).postLife) ∧
  (∀ d s, tget false s.heat.domainOff (domainKey d) = false → s.mayOff d = true →
    exec (.powerDomainSwitch d false) s = .next
      (({ s with heat := { s.heat with domainOff := tput false s.heat.domainOff (domainKey d) true } } : State).loseDomain d)) ∧
  (∀ d s, tget false s.heat.domainOff (domainKey d) = true → s.heat.towersOff = false →
    exec (.powerDomainSwitch d true) s = .next
      (({ s with heat := { s.heat with domainOff := tput false s.heat.domainOff (domainKey d) false } } : State).gainDomain d))

/-! ### The machine as a whole -/

/-- A step takes the command at the front of the queue and runs it with the queue's rest. -/
def Obligations.StepTakesFront : Prop :=
  ∀ c rest s, s.pending = c :: rest → step s = exec c { s with pending := rest }

/-- On an empty queue 1 ns passes and nothing is commanded (the model's own choice, log 2). -/
def Obligations.IdleStep : Prop :=
  ∀ s, s.pending = [] → step s = .next (s.elapse 1) ∧ (s.elapse 1).clk.elapsed = s.clk.elapsed + 1

/-- No command touches the queue of waiting commands: after a step it holds what stood behind the front, and an empty queue stays
empty. -/
def Obligations.QueueKept : Prop :=
  (∀ c s t, exec c s = .next t → t.pending = s.pending) ∧ (∀ s t, step s = .next t → t.pending = s.pending.tail)

/-- Every step keeps memory, the Spill Queues and the row tokens in canonical form: what is stored there is stored once, under
one number. -/
def Obligations.TablesCanonical : Prop := ∀ s t, Canonical s → step s = .next t → Canonical t

/-- What is fused stays fused (14 R475, R477, R480): from every state, a step leaves the package's identity, seed, keys and
revocations, and neither the rollback counter nor the transition counter ever falls. -/
def Obligations.FusesKept : Prop :=
  ∀ s t, step s = .next t →
    t.otp.uid = s.otp.uid ∧ t.otp.seed = s.otp.seed ∧ t.otp.fwKey = s.otp.fwKey ∧ t.otp.revoked = s.otp.revoked ∧
      t.otp.oemRoot = s.otp.oemRoot ∧ s.otp.rollback ≤ t.otp.rollback ∧ s.otp.count ≤ t.otp.count

/-- Right after power-on reset: the queue is empty, the tables are canonical, memory lists nothing; mailboxes are closed and free; the
CTC is 0 and free-running; the Event Queue stands at its reset place with 4,096 entries and policy DROP, EVQ_IRQ is armed with threshold
1 and holdoff 0; no partition but 0 exists, nothing is paired, bound, claimed or off. -/
def Obligations.ResetState : Prop :=
  let s := State.reset
  Canonical s ∧ s.pending = [] ∧ s.mem.bytes = [] ∧ s.bs.lmpReady = false ∧ s.clk.ctc = 0 ∧ s.clk.elapsed = 0 ∧
    (∀ m, (s.mbx m).st = mbFree ∧ (s.mbx m).version = none ∧ (s.mbx m).hdr = 0 ∧ (s.mbx m).status = 0) ∧
    (s.q 0).base = 0x100F000000 ∧ (s.q 0).size = 4096 ∧ (s.q 0).drop = true ∧ (s.q 0).count = 0 ∧
    s.host.irq.armed = true ∧ s.host.irq.holdoffUs = 0 ∧ s.host.irq.threshold = 1 ∧
    (∀ p, 1 ≤ p → (s.part p).live = false) ∧ s.tw.st = 0 ∧ s.claims = [] ∧ s.cam.streams = [] ∧ s.heat.domainOff = [] ∧
    (∀ l, (s.lantern l).pinLow = true)

/-- Before LMP_READY (12 R412): a read anywhere in a mailbox's window answers 0 and a write there, by REGISTER_WRITE or by the rows of
STATE and GO, leaves the state as it is. -/
def Obligations.MailboxWindowsClosed : Prop :=
  ∀ (m : Fin 64) (ep : Fin 2) off s, s.bs.lmpReady = false → off < 0x1000 →
    s.bar0Read ep.val (0x10000 + 0x1000 * m.val + off) = 0 ∧
    (∀ wide v, exec (.registerWrite (.bar0 ep (0x10000 + 0x1000 * m.val + off) wide) v) s = .next s) ∧
    exec (.mbxStateFilling m ep) s = .next s ∧ exec (.mbxStateFree m ep) s = .next s ∧ exec (.mbxGo m ep) s = .next s

namespace Sys2Proof.Certs

/-- A full queue; the Event Queue's policy is DROP (07 R268, R273). -/
abbrev Full (q : QueueId) (s : State) : Prop :=
  (s.q q.key).enable = true ∧ (s.q q.key).size + 32 ≤ (s.q q.key).count ∧ (q = .evq → (s.q 0).drop = true)

end Sys2Proof.Certs

/-- A push into a full queue (07 R271): with STALL the producer's push waits behind those that wait already, stays there while the queue is
full, and is accepted once a word has been popped; with DROP the word is discarded, SQ_DROPPED counts it (stopping at 0xFFFF_FFFF) and
OVERFLOW is set. Either way the queue keeps every word it holds, in its order. -/
def Obligations.FullQueues : Prop :=
  (∀ q pl po s, Full q s → tabWf ({} : SpillQ) s.queues →
    ∃ t, exec (.sqPush q pl po) s = .next t ∧
      (t.q q.key).head = (s.q q.key).head ∧ (t.q q.key).mid = (s.q q.key).mid ∧ (t.q q.key).tail = (s.q q.key).tail ∧
      if (s.q q.key).drop then
        (t.q q.key).dropped = min ((s.q q.key).dropped + 1) 0xFFFFFFFF ∧ (t.q q.key).overflow = true ∧
          (t.q q.key).stalled = (s.q q.key).stalled
      else
        (t.q q.key).stalled = (s.q q.key).stalled ++ [sqWord pl.toNat po] ∧ (t.q q.key).dropped = (s.q q.key).dropped ∧
          (t.q q.key).overflow = (s.q q.key).overflow) ∧
  (∀ q s, (s.q q.key).size + 32 ≤ (s.q q.key).count → exec (.sqStalledPushAccept q) s = .next s) ∧
  (∀ q w rest s, (s.q q.key).stalled = w :: rest → (s.q q.key).enable = true → (s.q q.key).linkLost = false →
      (s.q q.key).count < (s.q q.key).size + 32 →
    exec (.sqStalledPushAccept q) s = .next (s.setQ q.key { (s.q q.key).accept w with stalled := rest }))

/-- Names (04 R111, R117): a slot's handle is below 2^20, holds the slot's generation in [19:12] and its number in [11:0]; a DRAM
page lies at PPN × 0x4000, a host page from 0x8000_0000_0000, which is PCIe bus addresses below 192 GiB. -/
def Obligations.HandlesAndPages : Prop :=
  (∀ (s : State) slot, slot < 4096 → (s.sq slot).gen < 256 →
    s.handleOf slot < 2 ^ 20 ∧ bits (BitVec.ofNat 64 (s.handleOf slot)) 19 12 = (s.sq slot).gen ∧
      bits (BitVec.ofNat 64 (s.handleOf slot)) 11 0 = slot ∧ slotOf (s.handleOf slot) = slot) ∧
  (∀ ppn, ppn < 0x3C0000 → ppnDa ppn = ppn * 0x4000) ∧
  (∀ ppn, 0x400000 ≤ ppn → ppn < 0x1000000 →
    ppnDa ppn = 0x800000000000 + (ppn - 0x400000) * 0x4000 ∧ ppnDa ppn + 0x4000 ≤ 0x800000000000 + 192 * 2 ^ 30)

namespace Sys2Proof.Certs

/-- A ball of the package. -/
abbrev OnGrid (c r : Nat) : Prop := 1 ≤ c ∧ c ≤ 73 ∧ 1 ≤ r ∧ r ≤ 73

/-- The regions of 16 R510, in their order. -/
abbrev InSignals (c r : Nat) : Prop := (c ≤ 10 ∨ 64 ≤ c) ∧ 19 ≤ r ∧ r ≤ 55
abbrev InBands (c r : Nat) : Prop :=
  (r ≤ 6 ∨ 68 ≤ r) ∨ ((c ≤ 6 ∨ 68 ≤ c) ∧ ((7 ≤ r ∧ r ≤ 18) ∨ (56 ≤ r ∧ r ≤ 67)))
abbrev InCores (c r : Nat) : Prop := ((11 ≤ c ∧ c ≤ 18) ∨ (56 ≤ c ∧ c ≤ 63)) ∧ 19 ≤ r ∧ r ≤ 55

end Sys2Proof.Certs

/-- The function of every ball (16 R510): even rows of the signal fields and, elsewhere, balls with c + r even are VSS; odd rows of the
signal fields are those of R511, mirrored in the East; the DRAM bands carry the four DRAM rails by their depth, the I/O die cores the PHY,
Lantern, GPIO and fabric rails, the Tower field VDD_BASE along its middle lines and each Tower's VDD_SPIRE in its quadrant. -/
def Obligations.BallMap : Prop :=
  (∀ c r, OnGrid c r → InSignals c r →
    ballFunction c r = if r % 2 = 0 then .vss
      else if c ≤ 10 then fieldBall 0 ((r - 19) / 2) c else fieldBall 1 ((r - 19) / 2) (74 - c)) ∧
  (∀ c r, OnGrid c r → ¬ InSignals c r → (c + r) % 2 = 0 → ballFunction c r = .vss) ∧
  (∀ c r d, OnGrid c r → ¬ InSignals c r → (c + r) % 2 = 1 → InBands c r → d = min (min c r) (min (74 - c) (74 - r)) →
    ballFunction c r = .rail (if d ≤ 2 then .vdd2h else if d ≤ 4 then .vddq else if d = 5 then .vdd2l else .vdd1)) ∧
  (∀ c r, OnGrid c r → (c + r) % 2 = 1 → InCores c r →
    ballFunction c r = .rail (
      if c = 11 ∨ c = 12 ∨ c = 62 ∨ c = 63 then (if r ≤ 37 then .phy085 else .phy12)
      else if r ≤ 22 then .lant (decide (56 ≤ c)) else if r ≤ 26 then .gpio else .io)) ∧
  (∀ c r, OnGrid c r → ¬ InSignals c r → ¬ InBands c r → ¬ InCores c r → (c + r) % 2 = 1 →
    ballFunction c r = .rail (
      if (31 ≤ c ∧ c ≤ 43) ∨ (31 ≤ r ∧ r ≤ 43) then .base
      else if c < 37 then (if r < 37 then .spire 0 else .spire 3) else if r < 37 then .spire 1 else .spire 2))

end
end

