-- ==== Sys2Proof/Laws/Table.lean ====
section
/-! SUPPORT. Laws of tables and memory: read after write, and the canonical form that every operation keeps. -/

namespace Sys2Proof.Machine

variable {α : Type} [DecidableEq α]

theorem tabWfFrom_mono {d : α} {lo lo' : Nat} (h : lo' ≤ lo) : ∀ {t : Tab α}, tabWfFrom d lo t → tabWfFrom d lo' t
  | [], _ => rfl
  | (k, v) :: t, w => by
    simp only [tabWfFrom, Bool.and_eq_true, decide_eq_true_eq] at w ⊢
    exact ⟨⟨by omega, w.1.2⟩, w.2⟩

/-- A number below every listed one reads as the default. -/
theorem tget_below {d : α} : ∀ {t : Tab α} {lo i : Nat}, tabWfFrom d lo t → i < lo → tget d t i = d
  | [], _, _, _, _ => rfl
  | (k, v) :: t, lo, i, w, h => by
    simp only [tabWfFrom, Bool.and_eq_true, decide_eq_true_eq] at w
    simp only [tget]
    rw [if_neg (by omega), if_pos (by omega)]

/-- A write keeps the canonical form. -/
theorem tput_wfFrom {d : α} (i : Nat) (x : α) :
    ∀ {t : Tab α} {lo : Nat}, lo ≤ i → tabWfFrom d lo t → tabWfFrom d lo (tput d t i x)
  | [], lo, h, _ => by
    simp only [tput]
    split
    · rfl
    · simp_all [tabWfFrom]
  | (k, v) :: t, lo, h, w => by
    simp only [tabWfFrom, Bool.and_eq_true, decide_eq_true_eq] at w
    simp only [tput]
    split_ifs with h1 h2 h3 h4
    · simp [tabWfFrom, w.1.1, w.1.2, w.2]
    · simp [tabWfFrom, h, h2, w.1.2, w.2]; omega
    · exact tabWfFrom_mono (by omega) w.2
    · subst h3; simp [tabWfFrom, h, h4, w.2]
    · simp only [tabWfFrom, Bool.and_eq_true, decide_eq_true_eq]
      exact ⟨⟨w.1.1, w.1.2⟩, tput_wfFrom i x (by omega) w.2⟩

theorem tput_wf {d : α} {t : Tab α} (i : Nat) (x : α) (w : tabWf d t) : tabWf d (tput d t i x) :=
  tput_wfFrom i x (Nat.zero_le i) w

theorem tmod_wf {d : α} {t : Tab α} (i : Nat) (f : α → α) (w : tabWf d t) : tabWf d (tmod d t i f) := tput_wf i _ w

theorem tget_tput_sameFrom {d : α} (i : Nat) (x : α) :
    ∀ {t : Tab α} {lo : Nat}, tabWfFrom d lo t → tget d (tput d t i x) i = x
  | [], _, _ => by
    simp only [tput]
    split
    · next h => simp [tget, h]
    · simp [tget]
  | (k, v) :: t, lo, w => by
    simp only [tabWfFrom, Bool.and_eq_true, decide_eq_true_eq] at w
    simp only [tput]
    split_ifs with h1 h2 h3 h4
    · subst h2; simp [tget, h1]; omega
    · simp [tget]
    · subst h4; exact tget_below w.2 (by omega)
    · simp [tget]
    · simp only [tget]; rw [if_neg h3, if_neg h1]; exact tget_tput_sameFrom i x w.2

/-- A read after a write of the same number gives what was written. -/
theorem tget_tput_same {d : α} {t : Tab α} (i : Nat) (x : α) (w : tabWf d t) : tget d (tput d t i x) i = x :=
  tget_tput_sameFrom i x w

/-- A write leaves every other number alone. -/
theorem tget_tput_other {d : α} {i j : Nat} (x : α) (h : j ≠ i) :
    ∀ {t : Tab α} {lo : Nat}, tabWfFrom d lo t → tget d (tput d t i x) j = tget d t j
  | [], _, _ => by
    simp only [tput]
    split
    · rfl
    · simp [tget, h]
  | (k, v) :: t, lo, w => by
    simp only [tabWfFrom, Bool.and_eq_true, decide_eq_true_eq] at w
    simp only [tput]
    split_ifs with h1 h2 h3 h4
    · rfl
    · simp only [tget]
      rw [if_neg h]
      by_cases hj : j < i
      · rw [if_pos hj, if_neg (show ¬ j = k by omega), if_pos (show j < k by omega)]
      · rw [if_neg hj]
    · subst h3
      simp only [tget]
      rw [if_neg h]
      by_cases hj : j < i
      · rw [if_pos hj]; exact tget_below w.2 (by omega)
      · rw [if_neg hj]
    · subst h3; simp only [tget]; rw [if_neg h, if_neg h]
    · simp only [tget]; rw [tget_tput_other x h w.2]

/-- Memory keeps its canonical form under a store of one byte. -/
theorem memSet_wf {m : List Host.Cell} (a : Nat) (b : Byte) (w : Memory.wf m) : Memory.wf (memSet m a b) := tput_wf a b w

/-- Memory keeps its canonical form under a store of bytes. -/
theorem memStore_wf : ∀ (l : List Byte) {m : List Host.Cell} (a : Nat), Memory.wf m → Memory.wf (memStore m a l)
  | [], _, _, w => w
  | b :: t, _, a, w => memStore_wf t (a + 1) (memSet_wf a b w)

theorem filter_wfFrom {d : α} (p : Nat × α → Bool) : ∀ {t : Tab α} {lo : Nat}, tabWfFrom d lo t → tabWfFrom d lo (t.filter p)
  | [], _, _ => rfl
  | (k, v) :: t, lo, w => by
    simp only [tabWfFrom, Bool.and_eq_true, decide_eq_true_eq] at w
    simp only [List.filter]
    split
    · simp only [tabWfFrom, Bool.and_eq_true, decide_eq_true_eq]
      exact ⟨w.1, filter_wfFrom p w.2⟩
    · exact tabWfFrom_mono (by omega) (filter_wfFrom p w.2)

theorem tabMap_wfFrom {d : α} (f : α → α) : ∀ {t : Tab α} {lo : Nat}, tabWfFrom d lo t → tabWfFrom d lo (tabMap d f t)
  | [], _, _ => rfl
  | (k, v) :: t, lo, w => by
    simp only [tabWfFrom, Bool.and_eq_true, decide_eq_true_eq] at w
    have ih : tabWfFrom d (k + 1) (tabMap d f t) = true := tabMap_wfFrom f w.2
    simp only [tabMap, List.map, List.filter]
    split
    · rename_i h
      simp only [tabWfFrom, Bool.and_eq_true, decide_eq_true_eq]
      exact ⟨⟨w.1.1, of_decide_eq_true h⟩, ih⟩
    · exact tabWfFrom_mono (by omega) ih

theorem tabMap_wf {d : α} {t : Tab α} (f : α → α) (w : tabWf d t) : tabWf d (tabMap d f t) := tabMap_wfFrom f w

theorem filter_wf {d : α} {t : Tab α} (p : Nat × α → Bool) (w : tabWf d t) : tabWf d (t.filter p) := filter_wfFrom p w

theorem memFilter_wf {m : List Host.Cell} (p : Nat × Byte → Bool) (w : Memory.wf m) : Memory.wf (m.filter p) := filter_wfFrom p w

/-- Memory keeps its canonical form when a range is wiped. -/
theorem memZero_wf {m : List Host.Cell} (a n : Nat) (w : Memory.wf m) : Memory.wf (memZero m a n) := filter_wfFrom _ w

/-- A byte just stored reads back. -/
theorem memByte_memSet_same {m : List Host.Cell} (a : Nat) (b : Byte) (w : Memory.wf m) : memByte (memSet m a b) a = b :=
  tget_tput_same a b w

/-- A store of one byte leaves every other byte alone. -/
theorem memByte_memSet_other {m : List Host.Cell} {a j : Nat} (b : Byte) (h : j ≠ a) (w : Memory.wf m) :
    memByte (memSet m a b) j = memByte m j := tget_tput_other b h w

/-- A store of bytes leaves every byte outside them alone. -/
theorem memByte_memStore_other : ∀ (l : List Byte) {m : List Host.Cell} (a : Nat) {j : Nat}, Memory.wf m →
    (j < a ∨ a + l.length ≤ j) → memByte (memStore m a l) j = memByte m j
  | [], _, _, _, _, _ => rfl
  | b :: t, m, a, j, w, h => by
    simp only [List.length_cons] at h
    simp only [memStore]
    rw [memByte_memStore_other t (a + 1) (memSet_wf a b w) (by omega), memByte_memSet_other b (by omega) w]

end Sys2Proof.Machine
end

