-- ==== Sys2Proof/Laws/Keeps.lean ====
section
/-! SUPPORT. What every operation keeps, whatever else it does: the queue of waiting commands is left alone, the tables
keep their canonical form, and what is fused in OTP stays fused (14 R475, R480). One lemma per operation. -/

namespace Sys2Proof.Machine

/-- OTP from one State to a later one: identity, keys and revocations stay, the counters only rise. -/
structure OtpKept (a b : Otp) : Prop where
  uid : b.uid = a.uid
  seed : b.seed = a.seed
  fwKey : b.fwKey = a.fwKey
  revoked : b.revoked = a.revoked
  oemRoot : b.oemRoot = a.oemRoot
  rollback : a.rollback ≤ b.rollback
  count : a.count ≤ b.count

/-- What every operation keeps from one State to the next. -/
structure Keeps (s t : State) : Prop where
  pending : t.pending = s.pending
  canon : Canonical s → Canonical t
  otp : OtpKept s.otp t.otp

theorem OtpKept.refl (a : Otp) : OtpKept a a := ⟨rfl, rfl, rfl, rfl, rfl, Nat.le_refl _, Nat.le_refl _⟩

theorem OtpKept.trans {a b c : Otp} (h : OtpKept a b) (k : OtpKept b c) : OtpKept a c :=
  ⟨k.uid.trans h.uid, k.seed.trans h.seed, k.fwKey.trans h.fwKey, k.revoked.trans h.revoked, k.oemRoot.trans h.oemRoot,
    h.rollback.trans k.rollback, h.count.trans k.count⟩

theorem Keeps.refl (s : State) : Keeps s s := ⟨rfl, id, OtpKept.refl _⟩

theorem Keeps.trans {a b c : State} (h : Keeps a b) (k : Keeps b c) : Keeps a c :=
  ⟨k.pending.trans h.pending, fun w => k.canon (h.canon w), h.otp.trans k.otp⟩

/-- An update of other fields. -/
theorem Keeps.lit {r u : State} {a b d m e f g i j k l n o p q x y z} (h : Keeps r u) (hm : m.bytes = u.mem.bytes)
    (ht : e.tokens = u.sch.tokens) (hs : e.shadows = u.sch.shadows) (hr : e.reads = u.sch.reads) (ho : x = u.otp) :
    Keeps r (State.mk a b u.queues d m e f g i j k l n o x p q y z u.pending) :=
  ⟨h.pending, fun w => have c := h.canon w
    ⟨hm ▸ c.mem, c.queues, ht ▸ c.tokens, hs ▸ c.shadows, hr ▸ c.reads⟩, ho ▸ h.otp⟩

/-- An update of memory's bytes. -/
theorem Keeps.bytes {r u t : State} (h : Keeps r u) (hm : Memory.wf u.mem.bytes → Memory.wf t.mem.bytes) (hp : t.pending = u.pending)
    (hq : t.queues = u.queues) (hs : t.sch = u.sch) (ho : t.otp = u.otp) : Keeps r t :=
  ⟨hp.trans h.pending, fun w => have c := h.canon w
    ⟨hm c.mem, hq ▸ c.queues, hs ▸ c.tokens, hs ▸ c.shadows, hs ▸ c.reads⟩, ho ▸ h.otp⟩

/-- An update of the queues. -/
theorem Keeps.setQs {r u t : State} (h : Keeps r u) (hq : tabWf ({} : SpillQ) u.queues → tabWf ({} : SpillQ) t.queues)
    (hp : t.pending = u.pending) (hm : t.mem = u.mem) (hs : t.sch = u.sch) (ho : t.otp = u.otp) : Keeps r t :=
  ⟨hp.trans h.pending, fun w => have c := h.canon w
    ⟨hm ▸ c.mem, hq c.queues, hs ▸ c.tokens, hs ▸ c.shadows, hs ▸ c.reads⟩, ho ▸ h.otp⟩

/-- An update of the row tokens. -/
theorem Keeps.toks {r u t : State} (h : Keeps r u) (ht : tabWf 0 u.sch.tokens → tabWf 0 t.sch.tokens)
    (hs : tabWf 0 u.sch.shadows → tabWf 0 t.sch.shadows) (hr : tabWf 0 u.sch.reads → tabWf 0 t.sch.reads)
    (hp : t.pending = u.pending) (hq : t.queues = u.queues) (hm : t.mem.bytes = u.mem.bytes) (ho : t.otp = u.otp) : Keeps r t :=
  ⟨hp.trans h.pending, fun w => have c := h.canon w
    ⟨hm ▸ c.mem, hq ▸ c.queues, ht c.tokens, hs c.shadows, hr c.reads⟩, ho ▸ h.otp⟩

theorem Keeps.ite {r a b : State} {c : Prop} [Decidable c] (h : Keeps r a) (k : Keeps r b) : Keeps r (if c then a else b) := by
  split <;> assumption

theorem Keeps.foldl {α : Type} {r u : State} {f : State → α → State} {l : List α} (h : Keeps r u)
    (hf : ∀ v x, Keeps r v → Keeps r (f v x)) : Keeps r (l.foldl f u) := by
  induction l generalizing u with
  | nil => exact h
  | cons x t ih => exact ih (hf _ _ h)

theorem Keeps.fst {α : Type} {r t : State} {p : State × α} {a : α} (e : p = (t, a)) (k : Keeps r p.1) : Keeps r t := by
  subst e; exact k

theorem Keeps.snd {α : Type} {r t : State} {p : α × State} {a : α} (e : p = (a, t)) (k : Keeps r p.2) : Keeps r t := by
  subst e; exact k

/-- What a command's body keeps. -/
def LmpKeeps (r : State) : LmpRes → Prop
  | .done _ _ _ t => Keeps r t
  | .wait _ t => Keeps r t

theorem LmpKeeps.done {r t : State} {a b : Nat} {o : List Byte} (h : Keeps r t) : LmpKeeps r (.done a b o t) := h
theorem LmpKeeps.wait {r t : State} {w : Wait} (h : Keeps r t) : LmpKeeps r (.wait w t) := h
theorem LmpKeeps.ite {r : State} {a b : LmpRes} {c : Prop} [Decidable c] (h : LmpKeeps r a) (k : LmpKeeps r b) :
    LmpKeeps r (if c then a else b) := by split <;> assumption
theorem LmpKeeps.checked {r s : State} {f : List (Bool × Nat)} {c : List (Bool × Nat × Nat)} {b : Unit → LmpRes} (h : Keeps r s)
    (k : LmpKeeps r (b ())) : LmpKeeps r (checked s f c b) := by
  unfold Machine.checked; split
  · exact h
  · split
    · exact h
    · exact k

/-- What a command's answer keeps. -/
def OutKeeps (r : State) : Host.Outcome State Fault Refusal → Prop
  | .next t => Keeps r t
  | .fault _ => True
  | .refused _ => True

theorem OutKeeps.next {r t : State} (h : Keeps r t) : OutKeeps r (.next t) := h
theorem OutKeeps.ite {r : State} {a b : Host.Outcome State Fault Refusal} {c : Prop} [Decidable c] (h : OutKeeps r a) (k : OutKeeps r b) :
    OutKeeps r (if c then a else b) := by split <;> assumption

theorem Keeps.ite1 {α : Type} {r : State} {a b : State × α} {c : Prop} [Decidable c] (h : Keeps r a.1) (k : Keeps r b.1) :
    Keeps r (if c then a else b).1 := by split <;> assumption
theorem Keeps.ite2 {α : Type} {r : State} {a b : α × State} {c : Prop} [Decidable c] (h : Keeps r a.2) (k : Keeps r b.2) :
    Keeps r (if c then a else b).2 := by split <;> assumption


theorem Keeps.of_done {r t : State} {x : LmpRes} {a b o} (e : x = .done a b o t) (k : LmpKeeps r x) : Keeps r t := by
  subst e; exact k
theorem Keeps.of_wait {r t : State} {x : LmpRes} {w} (e : x = .wait w t) (k : LmpKeeps r x) : Keeps r t := by
  subst e; exact k
theorem Keeps.of_next {r t : State} {x : Host.Outcome State Fault Refusal} (e : x = .next t) (k : OutKeeps r x) : Keeps r t := by
  subst e; exact k

end Sys2Proof.Machine
end

