-- ==== Sys2Proof/Laws/KeepsOps.lean ====
section
/-! SUPPORT. What each operation keeps (Sys2Proof/Laws/Keeps.lean): the shared operations, the memory map, the mailboxes, launches, the scheduler and memory units. -/

namespace Sys2Proof.Machine

theorem State.modMbx_keeps {r : State} (s : State) (m : Nat) (f : Mailbox → Mailbox) (h : Keeps r s) :
    Keeps r (State.modMbx s m f) := by
  unfold State.modMbx
  (try dsimp only)
  repeat' first
    | with_reducible exact h
    | with_reducible assumption
    | intro _ _ _
    | intro _ _
    | fail_if_no_progress (with_reducible refine Keeps.lit ?_ rfl rfl rfl rfl rfl)

theorem State.modEp_keeps {r : State} (s : State) (e : Nat) (f : Endpoint → Endpoint) (h : Keeps r s) :
    Keeps r (State.modEp s e f) := by
  unfold State.modEp
  (try dsimp only)
  repeat' first
    | with_reducible exact h
    | with_reducible assumption
    | intro _ _ _
    | intro _ _
    | fail_if_no_progress (with_reducible refine Keeps.lit ?_ rfl rfl rfl rfl rfl)

theorem State.modSm_keeps {r : State} (s : State) (l : Nat) (f : I3cTarget → I3cTarget) (h : Keeps r s) :
    Keeps r (State.modSm s l f) := by
  unfold State.modSm
  (try dsimp only)
  repeat' first
    | with_reducible exact h
    | with_reducible assumption
    | intro _ _ _
    | intro _ _
    | fail_if_no_progress (with_reducible refine Keeps.lit ?_ rfl rfl rfl rfl rfl)

theorem State.setQ_keeps {r : State} (s : State) (k : Nat) (v : SpillQ) (h : Keeps r s) : Keeps r (State.setQ s k v) :=
  h.setQs (tput_wf _ _) rfl rfl rfl rfl

theorem State.modPart_keeps {r : State} (s : State) (p : Nat) (f : Partition → Partition) (h : Keeps r s) :
    Keeps r (State.modPart s p f) := by
  unfold State.modPart
  (try dsimp only)
  repeat' first
    | with_reducible exact h
    | with_reducible assumption
    | intro _ _ _
    | intro _ _
    | fail_if_no_progress (with_reducible refine Keeps.lit ?_ rfl rfl rfl rfl rfl)

theorem State.modJob_keeps {r : State} (s : State) (j : Nat) (f : Job → Job) (h : Keeps r s) :
    Keeps r (State.modJob s j f) := by
  unfold State.modJob
  (try dsimp only)
  repeat' first
    | with_reducible exact h
    | with_reducible assumption
    | intro _ _ _
    | intro _ _
    | fail_if_no_progress (with_reducible refine Keeps.lit ?_ rfl rfl rfl rfl rfl)

theorem State.modSpire_keeps {r : State} (s : State) (i : Nat) (f : Spire → Spire) (h : Keeps r s) :
    Keeps r (State.modSpire s i f) := by
  unfold State.modSpire
  (try dsimp only)
  repeat' first
    | with_reducible exact h
    | with_reducible assumption
    | intro _ _ _
    | intro _ _
    | fail_if_no_progress (with_reducible refine Keeps.lit ?_ rfl rfl rfl rfl rfl)

theorem State.modLantern_keeps {r : State} (s : State) (l : Nat) (f : Lantern → Lantern) (h : Keeps r s) :
    Keeps r (State.modLantern s l f) := by
  unfold State.modLantern
  (try dsimp only)
  repeat' first
    | with_reducible exact h
    | with_reducible assumption
    | intro _ _ _
    | intro _ _
    | fail_if_no_progress (with_reducible refine Keeps.lit ?_ rfl rfl rfl rfl rfl)

theorem State.modChan_keeps {r : State} (s : State) (c : Nat) (f : Chan → Chan) (h : Keeps r s) :
    Keeps r (State.modChan s c f) := by
  unfold State.modChan
  (try dsimp only)
  repeat' first
    | with_reducible exact h
    | with_reducible assumption
    | intro _ _ _
    | intro _ _
    | fail_if_no_progress (with_reducible refine Keeps.lit ?_ rfl rfl rfl rfl rfl)

theorem State.elapse_keeps {r : State} (s : State) (dt : Nat) (h : Keeps r s) :
    Keeps r (State.elapse s dt) := by
  unfold State.elapse
  repeat' first
    | with_reducible exact h
    | with_reducible assumption
    | intro _ _ _
    | intro _ _
    | fail_if_no_progress (with_reducible refine Keeps.lit ?_ rfl rfl rfl rfl rfl)

theorem State.elapseTo_keeps {r : State} (s : State) (t : Nat) (h : Keeps r s) :
    Keeps r (State.elapseTo s t) := by
  unfold State.elapseTo
  repeat' first
    | with_reducible exact h
    | with_reducible assumption
    | intro _ _ _
    | intro _ _
    | fail_if_no_progress (with_reducible refine Keeps.lit ?_ rfl rfl rfl rfl rfl)

theorem State.draw_keeps {r : State} (s : State) (w : Nat) (h : Keeps r s) :
    Keeps r (State.draw s w).2 := by
  unfold State.draw
  (try dsimp only)
  repeat' first
    | with_reducible exact h
    | with_reducible assumption
    | intro _ _ _
    | intro _ _
    | fail_if_no_progress (with_reducible refine Keeps.lit ?_ rfl rfl rfl rfl rfl)

theorem State.msix_keeps {r : State} (s : State) (e v : Nat) (h : Keeps r s) :
    Keeps r (State.msix s e v) := by
  unfold State.msix
  (try dsimp only)
  repeat' first
    | with_reducible exact h
    | with_reducible assumption
    | intro _ _ _
    | intro _ _
    | fail_if_no_progress (with_reducible refine Keeps.lit ?_ rfl rfl rfl rfl rfl)

theorem State.fireIrq_keeps {r : State} (s : State) (h : Keeps r s) :
    Keeps r (State.fireIrq s) := by
  unfold State.fireIrq
  (try dsimp only)
  repeat' first
    | with_reducible exact h
    | with_reducible assumption
    | with_reducible apply State.msix_keeps
    | intro _ _ _
    | intro _ _
    | fail_if_no_progress (with_reducible refine Keeps.lit ?_ rfl rfl rfl rfl rfl)

theorem State.pushedIrq_keeps {r : State} (s : State) (h : Keeps r s) :
    Keeps r (State.pushedIrq s) := by
  unfold State.pushedIrq
  (try dsimp only)
  repeat' first
    | with_reducible exact h
    | with_reducible assumption
    | with_reducible apply State.fireIrq_keeps
    | with_reducible apply Keeps.ite
    | intro _ _ _
    | intro _ _
    | fail_if_no_progress (with_reducible refine Keeps.lit ?_ rfl rfl rfl rfl rfl)

theorem State.pushGroup_keeps {r : State} (s : State) (ws : List W64) (h : Keeps r s) :
    Keeps r (State.pushGroup s ws) := by
  unfold State.pushGroup
  (try dsimp only)
  repeat' first
    | with_reducible exact h
    | with_reducible assumption
    | with_reducible apply State.setQ_keeps
    | with_reducible apply State.pushedIrq_keeps
    | with_reducible apply Keeps.ite

theorem State.post_keeps {r : State} (s : State) (cls src code payload : Nat) (ext : List Nat) (urgent : Bool) (h : Keeps r s) :
    Keeps r (State.post s cls src code payload ext urgent) := by
  unfold State.post
  (try dsimp only)
  repeat' first
    | with_reducible exact h
    | with_reducible assumption
    | with_reducible apply State.pushGroup_keeps
    | with_reducible apply State.msix_keeps
    | with_reducible apply Keeps.ite

theorem State.putRec_keeps {r0 : State} (s : State) (src : Nat) (r : Rec) (h : Keeps r0 s) :
    Keeps r0 (State.putRec s src r) := by
  unfold State.putRec
  (try dsimp only)
  repeat' first
    | with_reducible exact h
    | with_reducible assumption
    | with_reducible apply Keeps.ite
    | intro _ _ _
    | intro _ _
    | fail_if_no_progress (with_reducible refine Keeps.lit ?_ rfl rfl rfl rfl rfl)

theorem State.faultRec_keeps {r : State} (s : State) (f : FaultRec) (h : Keeps r s) :
    Keeps r (State.faultRec s f) := by
  unfold State.faultRec
  repeat' first
    | with_reducible exact h
    | with_reducible assumption
    | with_reducible apply State.modSm_keeps

theorem State.record_keeps {r : State} (s : State) (src bit level : Nat) (n : Note) (h : Keeps r s) :
    Keeps r (State.record s src bit level n) := by
  unfold State.record
  (try dsimp only)
  repeat' first
    | with_reducible exact h
    | with_reducible assumption
    | with_reducible apply State.putRec_keeps
    | with_reducible apply State.faultRec_keeps
    | with_reducible apply State.post_keeps
    | with_reducible apply Keeps.ite
    | intro _ _ _
    | intro _ _
    | fail_if_no_progress (with_reducible refine Keeps.lit ?_ rfl rfl rfl rfl rfl)

theorem State.stale_keeps {r : State} (s : State) (src : Nat) (h : Keeps r s) :
    Keeps r (State.stale s src) := by
  unfold State.stale
  repeat' first
    | with_reducible exact h
    | with_reducible assumption
    | with_reducible apply State.record_keeps

theorem State.answer_keeps {r : State} (s : State) (data : List Byte) (poison : Bool) (h : Keeps r s) :
    Keeps r (State.answer s data poison) := by
  unfold State.answer
  (try dsimp only)
  repeat' first
    | with_reducible exact h
    | with_reducible assumption
    | intro _ _ _
    | intro _ _
    | fail_if_no_progress (with_reducible refine Keeps.lit ?_ rfl rfl rfl rfl rfl)

theorem State.wr_keeps {r : State} (s : State) (a : Nat) (bs : List Byte) (h : Keeps r s) : Keeps r (State.wr s a bs) :=
  h.bytes (memStore_wf bs a) rfl rfl rfl rfl

theorem State.zero_keeps {r : State} (s : State) (a n : Nat) (h : Keeps r s) : Keeps r (State.zero s a n) :=
  h.bytes (memZero_wf a n) rfl rfl rfl rfl

theorem State.setBad_keeps {r : State} (s : State) (a : Nat) (b : Bool) (h : Keeps r s) :
    Keeps r (State.setBad s a b) := by
  unfold State.setBad
  (try dsimp only)
  repeat' first
    | with_reducible exact h
    | with_reducible assumption
    | intro _ _ _
    | intro _ _
    | fail_if_no_progress (with_reducible refine Keeps.lit ?_ rfl rfl rfl rfl rfl)

theorem State.bump_keeps {r : State} (s : State) (h : Keeps r s) :
    Keeps r (State.bump s) := by
  unfold State.bump
  repeat' first
    | with_reducible exact h
    | with_reducible assumption
    | intro _ _ _
    | intro _ _
    | fail_if_no_progress (with_reducible refine Keeps.lit ?_ rfl rfl rfl rfl rfl)

theorem State.complete_keeps {r : State} (s : State) (m status detail : Nat) (out : List Byte) (h : Keeps r s) :
    Keeps r (State.complete s m status detail out) := by
  unfold State.complete
  (try dsimp only)
  repeat' first
    | with_reducible exact h
    | with_reducible assumption
    | with_reducible apply State.bump_keeps
    | with_reducible apply State.modMbx_keeps
    | with_reducible apply State.msix_keeps
    | with_reducible apply Keeps.ite

theorem State.finish_keeps {r : State} (s : State) (m : Nat) (w : Wait) (status detail : Nat) (out : List Byte) (h : Keeps r s) :
    Keeps r (State.finish s m w status detail out) := by
  unfold State.finish
  repeat' first
    | with_reducible exact h
    | with_reducible assumption
    | with_reducible apply State.complete_keeps
    | with_reducible apply Keeps.ite

theorem State.finishAll_keeps {r : State} (s : State) (w : Wait) (status detail : Nat) (out : List Byte) (h : Keeps r s) :
    Keeps r (State.finishAll s w status detail out) := by
  unfold State.finishAll
  repeat' first
    | with_reducible exact h
    | with_reducible assumption
    | with_reducible apply State.finish_keeps
    | (with_reducible refine Keeps.foldl ?_ ?_)
    | intro _ _ _

theorem LmpRes.apply_keeps {r : State} (m : Nat) (a : LmpRes) (h : LmpKeeps r a) : Keeps r (LmpRes.apply m a) := by
  cases a with
  | done _ _ _ t => exact State.complete_keeps _ _ _ _ _ h
  | wait _ t => exact State.modMbx_keeps _ _ _ h

theorem LmpRes.counted_keeps {r : State} (op : Nat) (a : LmpRes) (h : LmpKeeps r a) : LmpKeeps r (LmpRes.counted op a) := by
  cases a with
  | done _ _ _ t =>
    simp only [LmpRes.counted]
    split
    · split
      · exact State.stale_keeps _ _ h
      · exact h
    · exact h
  | wait _ t => exact h

theorem State.takeMbx_keeps {r : State} (s : State) (m : Nat) (h : Keeps r s) :
    Keeps r (State.takeMbx s m) := by
  unfold State.takeMbx
  (try dsimp only)
  repeat' first
    | with_reducible exact h
    | with_reducible assumption
    | with_reducible apply State.modMbx_keeps
    | intro _ _ _
    | intro _ _
    | fail_if_no_progress (with_reducible refine Keeps.lit ?_ rfl rfl rfl rfl rfl)

theorem State.rejectHeader_keeps {r : State} (s : State) (m st d : Nat) (h : Keeps r s) :
    Keeps r (State.rejectHeader s m st d) := by
  unfold State.rejectHeader
  (try dsimp only)
  repeat' first
    | with_reducible exact h
    | with_reducible assumption
    | with_reducible apply State.stale_keeps
    | with_reducible apply State.complete_keeps
    | with_reducible apply Keeps.ite

theorem State.rejectHeaders_keeps {r : State} : ∀ (s : State) (n : Nat) (_ : Keeps r s), Keeps r (State.rejectHeaders s n)
  | _, 0, h => h
  | s, n + 1, h => by
    unfold State.rejectHeaders
    split
    · exact h
    · split
      · exact h
      · exact rejectHeaders_keeps _ n (State.rejectHeader_keeps _ _ _ _ (State.takeMbx_keeps _ _ h))

theorem State.lmp_keeps {r : State} (s : State) (m : Nat) (isRow : Nat → Ctx → Bool) (body : Ctx → State → LmpRes) (h : Keeps r s)
    (hb : ∀ c t, Keeps r t → LmpKeeps r (body c t)) : Keeps r (State.lmp s m isRow body) := by
  unfold State.lmp
  dsimp only
  have k := State.takeMbx_keeps s m h
  split
  · apply State.rejectHeaders_keeps
    split
    · exact State.rejectHeader_keeps _ _ _ _ k
    · split
      · exact State.complete_keeps _ _ _ _ _ k
      · exact LmpRes.apply_keeps _ _ (LmpRes.counted_keeps _ _ (hb _ _ k))
  · exact h

theorem State.modTwp_keeps {r : State} (s : State) (p : Nat) (f : TwinPart → TwinPart) (h : Keeps r s) :
    Keeps r (State.modTwp s p f) := by
  unfold State.modTwp
  (try dsimp only)
  repeat' first
    | with_reducible exact h
    | with_reducible assumption
    | intro _ _ _
    | intro _ _
    | fail_if_no_progress (with_reducible refine Keeps.lit ?_ rfl rfl rfl rfl rfl)

theorem State.send_keeps {r : State} (s : State) (x : TwinMsg) (h : Keeps r s) :
    Keeps r (State.send s x) := by
  unfold State.send
  (try dsimp only)
  repeat' first
    | with_reducible exact h
    | with_reducible assumption
    | intro _ _ _
    | intro _ _
    | fail_if_no_progress (with_reducible refine Keeps.lit ?_ rfl rfl rfl rfl rfl)

theorem LmpRes.refuseShared_keeps {r : State} (s : State) (x : LmpRes) (h : Keeps r s) : LmpKeeps r (LmpRes.refuseShared s x) := by
  cases x with
  | done st d o t =>
    simp only [LmpRes.refuseShared]
    split <;> exact h
  | wait w t => exact h

theorem shared_keeps {r : State} (op : Nat) (of : Ctx → Option Nat) (body : Ctx → State → LmpRes) (c : Ctx) (s : State) (h : Keeps r s)
    (hb : ∀ c t, Keeps r t → LmpKeeps r (body c t)) : LmpKeeps r (shared op of body c s) := by
  unfold shared
  dsimp only
  have k : Keeps r (({ s with tw := { s.tw with
      shared := s.tw.shared ++ [{ op := op, part := c.part, payload := c.pl, mbx := some c.m }] } } : State).send (.command op c.part c.pl)) :=
    State.send_keeps _ _ (Keeps.lit h rfl rfl rfl rfl rfl)
  split
  · exact hb c s h
  · exact LmpRes.refuseShared_keeps _ _ h
  · split
    · have hc := hb c s h
      rename_i e
      rw [e] at hc
      split
      · exact k
      · exact hc
    · exact k

theorem State.sendDelta_keeps {r : State} (s : State) (p step : Nat) (h : Keeps r s) :
    Keeps r (State.sendDelta s p step) := by
  unfold State.sendDelta
  (try dsimp only)
  repeat' first
    | with_reducible exact h
    | with_reducible assumption
    | with_reducible apply State.send_keeps
    | intro _ _ _
    | intro _ _
    | fail_if_no_progress (with_reducible refine Keeps.lit ?_ rfl rfl rfl rfl rfl)

theorem State.sendEnd_keeps {r : State} (s : State) (p step : Nat) (h : Keeps r s) :
    Keeps r (State.sendEnd s p step) := by
  unfold State.sendEnd
  (try dsimp only)
  repeat' first
    | with_reducible exact h
    | with_reducible assumption
    | with_reducible apply State.send_keeps
    | with_reducible apply State.sendDelta_keeps
    | with_reducible apply State.modTwp_keeps
    | with_reducible apply Keeps.ite

theorem State.logLaunch_keeps {r : State} (s : State) (p m op step : Nat) (pl : List Byte) (h : Keeps r s) :
    Keeps r (State.logLaunch s p m op step pl) := by
  unfold State.logLaunch
  (try dsimp only)
  repeat' first
    | with_reducible exact h
    | with_reducible assumption
    | with_reducible apply State.modTwp_keeps
    | with_reducible apply State.send_keeps
    | with_reducible apply Keeps.ite

theorem State.holdFrame_keeps {r : State} (s : State) (pl : List Byte) (step : Nat) (job : Option Nat) (h : Keeps r s) :
    Keeps r (State.holdFrame s pl step job) := by
  unfold State.holdFrame
  (try dsimp only)
  repeat' first
    | with_reducible exact h
    | with_reducible assumption
    | with_reducible apply Keeps.ite
    | with_reducible apply Keeps.ite1
    | with_reducible apply Keeps.ite2
    | (with_reducible refine Keeps.foldl ?_ ?_)
    | intro _ _ _
    | intro _ _
    | fail_if_no_progress (with_reducible refine Keeps.lit ?_ rfl rfl rfl rfl rfl)

theorem State.takeNonce_keeps {r : State} (s : State) (key nonce : Nat) (h : Keeps r s) :
    Keeps r (State.takeNonce s key nonce) := by
  unfold State.takeNonce
  (try dsimp only)
  repeat' first
    | with_reducible exact h
    | with_reducible assumption
    | with_reducible apply Keeps.ite
    | with_reducible apply Keeps.ite1
    | with_reducible apply Keeps.ite2
    | intro _ _ _
    | intro _ _
    | fail_if_no_progress (with_reducible refine Keeps.lit ?_ rfl rfl rfl rfl rfl)

theorem State.sendCopy_keeps {r : State} (s : State) (p : Nat) (h : Keeps r s) :
    Keeps r (State.sendCopy s p) := by
  unfold State.sendCopy
  (try dsimp only)
  repeat' first
    | with_reducible exact h
    | with_reducible assumption
    | with_reducible apply State.send_keeps

theorem State.applyDelta_keeps {r : State} (s : State) (p : Nat) (d : Delta) (h : Keeps r s) :
    Keeps r (State.applyDelta s p d) := by
  unfold State.applyDelta
  (try dsimp only)
  repeat' first
    | with_reducible exact h
    | with_reducible assumption
    | with_reducible apply State.wr_keeps
    | with_reducible apply State.modPart_keeps
    | with_reducible apply Keeps.ite
    | with_reducible apply Keeps.ite1
    | with_reducible apply Keeps.ite2
    | (with_reducible refine Keeps.foldl ?_ ?_)
    | intro _ _ _
    | intro _ _
    | fail_if_no_progress (with_reducible refine Keeps.lit ?_ rfl rfl rfl rfl rfl)

theorem State.modTask_keeps {r : State} (s : State) (j i : Nat) (f : TaskSt → TaskSt) (h : Keeps r s) :
    Keeps r (State.modTask s j i f) := by
  unfold State.modTask
  repeat' first
    | with_reducible exact h
    | with_reducible assumption
    | with_reducible apply State.modJob_keeps

theorem State.modClient_keeps {r : State} (s : State) (m : Nat) (f : Acct → Acct) (h : Keeps r s) :
    Keeps r (State.modClient s m f) := by
  unfold State.modClient
  (try dsimp only)
  repeat' first
    | with_reducible exact h
    | with_reducible assumption
    | intro _ _ _
    | intro _ _
    | fail_if_no_progress (with_reducible refine Keeps.lit ?_ rfl rfl rfl rfl rfl)

theorem State.modPartAcct_keeps {r : State} (s : State) (p : Nat) (f : Acct → Acct) (h : Keeps r s) :
    Keeps r (State.modPartAcct s p f) := by
  unfold State.modPartAcct
  repeat' first
    | with_reducible exact h
    | with_reducible assumption
    | with_reducible apply State.modPart_keeps

theorem State.modJobAcct_keeps {r : State} (s : State) (j : Nat) (f : Acct → Acct) (h : Keeps r s) :
    Keeps r (State.modJobAcct s j f) := by
  unfold State.modJobAcct
  repeat' first
    | with_reducible exact h
    | with_reducible assumption
    | with_reducible apply State.modClient_keeps

theorem State.leaveSpire_keeps {r : State} (s : State) (j i : Nat) (h : Keeps r s) :
    Keeps r (State.leaveSpire s j i) := by
  unfold State.leaveSpire
  (try dsimp only)
  repeat' first
    | with_reducible exact h
    | with_reducible assumption
    | with_reducible apply State.modSpire_keeps
    | with_reducible apply State.modPart_keeps
    | with_reducible apply Keeps.ite

theorem State.postEnd_keeps {r : State} (s : State) (j : Nat) (h : Keeps r s) :
    Keeps r (State.postEnd s j) := by
  unfold State.postEnd
  (try dsimp only)
  repeat' first
    | with_reducible exact h
    | with_reducible assumption
    | with_reducible apply State.wr_keeps
    | with_reducible apply State.record_keeps
    | with_reducible apply State.post_keeps
    | with_reducible apply State.modClient_keeps
    | with_reducible apply State.sendEnd_keeps
    | with_reducible apply State.modJob_keeps
    | with_reducible apply Keeps.ite
    | intro _ _ _
    | intro _ _
    | fail_if_no_progress (with_reducible refine Keeps.lit ?_ rfl rfl rfl rfl rfl)

theorem State.settle_keeps {r : State} (s : State) (sp : Nat) (h : Keeps r s) :
    Keeps r (State.settle s sp) := by
  unfold State.settle
  (try dsimp only)
  repeat' first
    | with_reducible exact h
    | with_reducible assumption
    | with_reducible apply State.modTask_keeps
    | with_reducible apply State.modSpire_keeps
    | with_reducible apply Keeps.ite
    | with_reducible apply Keeps.ite1
    | with_reducible apply Keeps.ite2
    | intro _ _ _
    | intro _ _
    | fail_if_no_progress (with_reducible refine Keeps.lit ?_ rfl rfl rfl rfl rfl)
    | split

theorem State.chargeEnd_keeps {r : State} (s : State) (j i : Nat) (h : Keeps r s) :
    Keeps r (State.chargeEnd s j i) := by
  unfold State.chargeEnd
  (try dsimp only)
  repeat' first
    | with_reducible exact h
    | with_reducible assumption
    | with_reducible apply State.modMbx_keeps
    | with_reducible apply State.modPart_keeps
    | with_reducible apply State.modClient_keeps
    | with_reducible apply Keeps.ite

theorem State.stopTask_keeps {r : State} (s : State) (j i : Nat) (h : Keeps r s) :
    Keeps r (State.stopTask s j i) := by
  unfold State.stopTask
  (try dsimp only)
  repeat' first
    | with_reducible exact h
    | with_reducible assumption
    | with_reducible apply State.settle_keeps
    | with_reducible apply State.chargeEnd_keeps
    | with_reducible apply State.modJob_keeps
    | with_reducible apply Keeps.ite

theorem State.closeJob_keeps {r : State} (s : State) (j : Nat) (h : Keeps r s) :
    Keeps r (State.closeJob s j) := by
  unfold State.closeJob
  (try dsimp only)
  repeat' first
    | with_reducible exact h
    | with_reducible assumption
    | with_reducible apply State.postEnd_keeps
    | with_reducible apply Keeps.ite
    | with_reducible apply Keeps.ite1
    | with_reducible apply Keeps.ite2
    | intro _ _ _
    | intro _ _
    | fail_if_no_progress (with_reducible refine Keeps.lit ?_ rfl rfl rfl rfl rfl)
    | split

theorem State.takeTokens_keeps {r : State} : ∀ (x0 : Nat) (x1 : List Nat) (handle : Nat) (cause : Nat) (src : Nat) (bit : Nat) (s : State) (_ : Keeps r s), Keeps r (State.takeTokens s handle cause src bit x0 x1)
  | _, [], handle, cause, src, bit, s, h => by
    unfold State.takeTokens
    repeat' first
      | with_reducible exact h
  | n, j :: rest, handle, cause, src, bit, s, h => by
    unfold State.takeTokens
    (try dsimp only)
    repeat' first
      | with_reducible exact h
      | with_reducible assumption
      | with_reducible apply State.takeTokens_keeps
      | with_reducible apply State.modJob_keeps
      | with_reducible apply Keeps.ite

theorem State.closeStepLaunches_keeps {r : State} (s : State) (h : Keeps r s) :
    Keeps r (State.closeStepLaunches s) := by
  unfold State.closeStepLaunches
  (try dsimp only)
  repeat' first
    | with_reducible exact h
    | with_reducible assumption
    | with_reducible apply State.modJob_keeps
    | with_reducible apply State.closeJob_keeps
    | with_reducible apply Keeps.ite
    | (with_reducible refine Keeps.foldl ?_ ?_)
    | intro _ _ _

theorem State.chargeStep_keeps {r : State} (s : State) (b : Job) (h : Keeps r s) :
    Keeps r (State.chargeStep s b) := by
  unfold State.chargeStep
  (try dsimp only)
  repeat' first
    | with_reducible exact h
    | with_reducible assumption
    | with_reducible apply State.modClient_keeps
    | with_reducible apply State.modJob_keeps
    | with_reducible apply Keeps.ite
    | (with_reducible refine Keeps.foldl ?_ ?_)
    | intro _ _ _

theorem State.endTasks_keeps {r : State} (s : State) (j : Nat) (is : List Nat) (h : Keeps r s) :
    Keeps r (State.endTasks s j is) := by
  unfold State.endTasks
  (try dsimp only)
  repeat' first
    | with_reducible exact h
    | with_reducible assumption
    | with_reducible apply State.stopTask_keeps
    | with_reducible apply State.leaveSpire_keeps
    | with_reducible apply State.modTask_keeps
    | (with_reducible refine Keeps.foldl ?_ ?_)
    | intro _ _ _
    | intro _ _
    | fail_if_no_progress (with_reducible refine Keeps.lit ?_ rfl rfl rfl rfl rfl)

theorem State.setCause_keeps {r : State} (s : State) (j cause src bit : Nat) (h : Keeps r s) :
    Keeps r (State.setCause s j cause src bit) := by
  unfold State.setCause
  repeat' first
    | with_reducible exact h
    | with_reducible assumption
    | with_reducible apply State.endTasks_keeps
    | with_reducible apply State.modJob_keeps

theorem State.failJob_keeps {r : State} : ∀ (x0 : Nat) (j : Nat) (cause : Nat) (src : Nat) (bit : Nat) (s : State) (_ : Keeps r s), Keeps r (State.failJob s j cause src bit x0)
  | 0, j, cause, src, bit, s, h => by
    unfold State.failJob
    repeat' first
      | with_reducible exact h
  | fuel + 1, j, cause, src, bit, s, h => by
    unfold State.failJob
    (try dsimp only)
    repeat' first
      | with_reducible exact h
      | with_reducible assumption
      | with_reducible apply State.failJob_keeps
      | with_reducible apply State.setCause_keeps
      | with_reducible apply State.chargeStep_keeps
      | with_reducible apply State.modJob_keeps
      | with_reducible apply State.takeTokens_keeps
      | with_reducible apply State.closeStepLaunches_keeps
      | with_reducible apply State.closeJob_keeps
      | with_reducible apply Keeps.ite
      | (with_reducible refine Keeps.foldl ?_ ?_)
      | intro _ _ _

theorem State.fail_keeps {r : State} (s : State) (j cause src bit : Nat) (h : Keeps r s) :
    Keeps r (State.fail s j cause src bit) := by
  unfold State.fail
  repeat' first
    | with_reducible exact h
    | with_reducible assumption
    | with_reducible apply State.failJob_keeps

theorem State.failShadow_keeps {r : State} (s : State) (j : Nat) (h : Keeps r s) :
    Keeps r (State.failShadow s j) := by
  unfold State.failShadow
  (try dsimp only)
  repeat' first
    | with_reducible exact h
    | with_reducible assumption
    | with_reducible apply State.endTasks_keeps
    | with_reducible apply State.modJob_keeps

theorem State.failTask_keeps {r : State} (s : State) (j i cause src bit : Nat) (h : Keeps r s) :
    Keeps r (State.failTask s j i cause src bit) := by
  unfold State.failTask
  repeat' first
    | with_reducible exact h
    | with_reducible assumption
    | with_reducible apply State.failShadow_keeps
    | with_reducible apply State.fail_keeps
    | with_reducible apply Keeps.ite

theorem State.failSpire_keeps {r : State} (s : State) (sp src bit : Nat) (h : Keeps r s) :
    Keeps r (State.failSpire s sp src bit) := by
  unfold State.failSpire
  repeat' first
    | with_reducible exact h
    | with_reducible assumption
    | with_reducible apply State.failTask_keeps
    | intro _ _ _
    | intro _ _
    | fail_if_no_progress (with_reducible refine Keeps.lit ?_ rfl rfl rfl rfl rfl)
    | split

theorem State.failMarks_keeps {r : State} (s : State) (p : Nat) (marks : List (Nat × Nat)) (src bit : Nat) (h : Keeps r s) :
    Keeps r (State.failMarks s p marks src bit) := by
  unfold State.failMarks
  (try dsimp only)
  repeat' first
    | with_reducible exact h
    | with_reducible assumption
    | with_reducible apply State.fail_keeps
    | (with_reducible refine Keeps.foldl ?_ ?_)
    | intro _ _ _
    | intro _ _
    | fail_if_no_progress (with_reducible refine Keeps.lit ?_ rfl rfl rfl rfl rfl)

theorem State.failRun_keeps {r : State} (s : State) (t : TaskId) (src bit : Nat) (h : Keeps r s) :
    Keeps r (State.failRun s t src bit) := by
  unfold State.failRun
  repeat' first
    | with_reducible exact h
    | with_reducible assumption
    | with_reducible apply State.failTask_keeps
    | with_reducible apply State.fail_keeps
    | with_reducible apply Keeps.ite

theorem State.endStepLaunch_keeps {r : State} (s : State) (j cause src bit : Nat) (h : Keeps r s) :
    Keeps r (State.endStepLaunch s j cause src bit) := by
  unfold State.endStepLaunch
  repeat' first
    | with_reducible exact h
    | with_reducible assumption
    | with_reducible apply State.modJob_keeps
    | with_reducible apply State.closeJob_keeps
    | with_reducible apply Keeps.ite

theorem State.stopSteps_keeps {r : State} (s : State) (j cause : Nat) (h : Keeps r s) :
    Keeps r (State.stopSteps s j cause) := by
  unfold State.stopSteps
  repeat' first
    | with_reducible exact h
    | with_reducible assumption
    | with_reducible apply State.fail_keeps
    | (with_reducible refine Keeps.foldl ?_ ?_)
    | intro _ _ _

theorem State.abort_keeps {r : State} (s : State) (j : Nat) (h : Keeps r s) :
    Keeps r (State.abort s j) := by
  unfold State.abort
  repeat' first
    | with_reducible exact h
    | with_reducible assumption
    | with_reducible apply State.stopSteps_keeps
    | with_reducible apply State.endStepLaunch_keeps
    | with_reducible apply State.fail_keeps
    | with_reducible apply Keeps.ite

theorem State.askTwin_keeps {r : State} (s : State) (p : Nat) (h : Keeps r s) :
    Keeps r (State.askTwin s p) := by
  unfold State.askTwin
  (try dsimp only)
  repeat' first
    | with_reducible exact h
    | with_reducible assumption
    | with_reducible apply State.send_keeps
    | with_reducible apply State.faultRec_keeps
    | with_reducible apply Keeps.ite
    | intro _ _ _
    | intro _ _
    | fail_if_no_progress (with_reducible refine Keeps.lit ?_ rfl rfl rfl rfl rfl)

theorem State.degrade_keeps {r : State} (s : State) (p : Nat) (h : Keeps r s) :
    Keeps r (State.degrade s p) := by
  unfold State.degrade
  (try dsimp only)
  repeat' first
    | with_reducible exact h
    | with_reducible assumption
    | with_reducible apply State.modPart_keeps
    | with_reducible apply State.post_keeps
    | with_reducible apply State.abort_keeps
    | with_reducible apply State.askTwin_keeps
    | with_reducible apply Keeps.ite
    | (with_reducible refine Keeps.foldl ?_ ?_)
    | intro _ _ _

theorem State.loseSpires_keeps {r : State} (s : State) (h : Keeps r s) :
    Keeps r (State.loseSpires s) := by
  unfold State.loseSpires
  (try dsimp only)
  repeat' first
    | with_reducible exact h
    | with_reducible assumption
    | with_reducible apply State.fail_keeps
    | with_reducible apply State.endStepLaunch_keeps
    | with_reducible apply State.degrade_keeps
    | with_reducible apply Keeps.ite
    | (with_reducible refine Keeps.foldl ?_ ?_)
    | intro _ _ _

theorem State.quarantine_keeps {r : State} (s : State) (sp : Nat) (h : Keeps r s) :
    Keeps r (State.quarantine s sp) := by
  unfold State.quarantine
  (try dsimp only)
  repeat' first
    | with_reducible exact h
    | with_reducible assumption
    | with_reducible apply State.record_keeps
    | with_reducible apply State.settle_keeps
    | with_reducible apply State.modTask_keeps
    | with_reducible apply State.modSpire_keeps
    | with_reducible apply State.loseSpires_keeps
    | with_reducible apply Keeps.ite
    | with_reducible apply Keeps.ite1
    | with_reducible apply Keeps.ite2
    | intro _ _ _
    | intro _ _
    | fail_if_no_progress (with_reducible refine Keeps.lit ?_ rfl rfl rfl rfl rfl)
    | split

theorem State.domeOutOfService_keeps {r : State} (s : State) (d : Nat) (h : Keeps r s) :
    Keeps r (State.domeOutOfService s d) := by
  unfold State.domeOutOfService
  (try dsimp only)
  repeat' first
    | with_reducible exact h
    | with_reducible assumption
    | with_reducible apply State.quarantine_keeps
    | (with_reducible refine Keeps.foldl ?_ ?_)
    | intro _ _ _
    | intro _ _
    | fail_if_no_progress (with_reducible refine Keeps.lit ?_ rfl rfl rfl rfl rfl)

theorem State.towerQuarantine_keeps {r : State} (s : State) (t : Nat) (h : Keeps r s) :
    Keeps r (State.towerQuarantine s t) := by
  unfold State.towerQuarantine
  (try dsimp only)
  repeat' first
    | with_reducible exact h
    | with_reducible assumption
    | with_reducible apply State.quarantine_keeps
    | (with_reducible refine Keeps.foldl ?_ ?_)
    | intro _ _ _
    | intro _ _
    | fail_if_no_progress (with_reducible refine Keeps.lit ?_ rfl rfl rfl rfl rfl)

theorem State.packageDecision_keeps {r : State} (s : State) (l seq : Nat) (h : Keeps r s) :
    Keeps r (State.packageDecision s l seq) := by
  unfold State.packageDecision
  (try dsimp only)
  repeat' first
    | with_reducible exact h
    | with_reducible assumption
    | with_reducible apply State.modLantern_keeps
    | with_reducible apply State.post_keeps
    | with_reducible apply State.faultRec_keeps
    | with_reducible apply State.send_keeps
    | with_reducible apply State.degrade_keeps
    | with_reducible apply Keeps.ite
    | (with_reducible refine Keeps.foldl ?_ ?_)
    | intro _ _ _

theorem State.packageAll_keeps {r : State} (s : State) (h : Keeps r s) :
    Keeps r (State.packageAll s) := by
  unfold State.packageAll
  (try dsimp only)
  repeat' first
    | with_reducible exact h
    | with_reducible assumption
    | with_reducible apply State.packageDecision_keeps
    | with_reducible apply Keeps.ite

theorem State.packageFrom_keeps {r : State} (s : State) (src : Nat) (h : Keeps r s) :
    Keeps r (State.packageFrom s src) := by
  unfold State.packageFrom
  (try dsimp only)
  repeat' first
    | with_reducible exact h
    | with_reducible assumption
    | with_reducible apply State.packageAll_keeps
    | with_reducible apply State.towerQuarantine_keeps
    | with_reducible apply Keeps.ite

theorem State.lanternOut_keeps {r : State} (s : State) (l : Nat) (h : Keeps r s) :
    Keeps r (State.lanternOut s l) := by
  unfold State.lanternOut
  repeat' first
    | with_reducible exact h
    | with_reducible assumption
    | with_reducible apply State.modLantern_keeps

theorem State.modTower_keeps {r : State} (s : State) (t : Nat) (f : TowerHeat → TowerHeat) (h : Keeps r s) :
    Keeps r (State.modTower s t f) := by
  unfold State.modTower
  (try dsimp only)
  repeat' first
    | with_reducible exact h
    | with_reducible assumption
    | intro _ _ _
    | intro _ _
    | fail_if_no_progress (with_reducible refine Keeps.lit ?_ rfl rfl rfl rfl rfl)

theorem State.raiseRail_keeps {r : State} (s : State) (t : Nat) (h : Keeps r s) :
    Keeps r (State.raiseRail s t) := by
  unfold State.raiseRail
  (try dsimp only)
  repeat' first
    | with_reducible exact h
    | with_reducible assumption
    | with_reducible apply State.modTower_keeps
    | with_reducible apply Keeps.ite

theorem State.lowerRail_keeps {r : State} (s : State) (t : Nat) (h : Keeps r s) :
    Keeps r (State.lowerRail s t) := by
  unfold State.lowerRail
  (try dsimp only)
  repeat' first
    | with_reducible exact h
    | with_reducible assumption
    | with_reducible apply State.modTower_keeps
    | with_reducible apply Keeps.ite

theorem State.wantStep_keeps {r : State} (s : State) (sp : Nat) (h : Keeps r s) :
    Keeps r (State.wantStep s sp) := by
  unfold State.wantStep
  repeat' first
    | with_reducible exact h
    | with_reducible assumption
    | with_reducible apply State.modSpire_keeps
    | with_reducible apply State.raiseRail_keeps

theorem State.wantTower_keeps {r : State} (s : State) (t : Nat) (h : Keeps r s) :
    Keeps r (State.wantTower s t) := by
  unfold State.wantTower
  repeat' first
    | with_reducible exact h
    | with_reducible assumption
    | with_reducible apply State.wantStep_keeps
    | (with_reducible refine Keeps.foldl ?_ ?_)
    | intro _ _ _

theorem State.wantAll_keeps {r : State} (s : State) (h : Keeps r s) :
    Keeps r (State.wantAll s) := by
  unfold State.wantAll
  repeat' first
    | with_reducible exact h
    | with_reducible assumption
    | with_reducible apply State.wantTower_keeps
    | (with_reducible refine Keeps.foldl ?_ ?_)

theorem State.suspend_keeps {r : State} (s : State) (p : Nat) (cause : BitVec 8) (h : Keeps r s) :
    Keeps r (State.suspend s p cause) := by
  unfold State.suspend
  (try dsimp only)
  repeat' first
    | with_reducible exact h
    | with_reducible assumption
    | with_reducible apply State.modPart_keeps
    | with_reducible apply State.modSpire_keeps
    | with_reducible apply Keeps.ite
    | with_reducible apply Keeps.ite1
    | with_reducible apply Keeps.ite2
    | (with_reducible refine Keeps.foldl ?_ ?_)
    | intro _ _ _
    | intro _ _
    | fail_if_no_progress (with_reducible refine Keeps.lit ?_ rfl rfl rfl rfl rfl)
    | split

theorem State.ageLife_keeps {r : State} (s : State) (h : Keeps r s) :
    Keeps r (State.ageLife s) := by
  unfold State.ageLife
  (try dsimp only)
  repeat' first
    | with_reducible exact h
    | with_reducible assumption
    | intro _ _ _
    | intro _ _
    | fail_if_no_progress (with_reducible refine Keeps.lit ?_ rfl rfl rfl rfl rfl)

theorem State.drawEgress_keeps {r : State} (s : State) (from_ to_ : Die) (p cost : Nat) (h : Keeps r s) :
    Keeps r (State.drawEgress s from_ to_ p cost) := by
  unfold State.drawEgress
  (try dsimp only)
  repeat' first
    | with_reducible exact h
    | with_reducible assumption
    | (with_reducible refine Keeps.foldl ?_ ?_)
    | intro _ _ _
    | intro _ _
    | fail_if_no_progress (with_reducible refine Keeps.lit ?_ rfl rfl rfl rfl rfl)
    | split

theorem State.enqueue_keeps {r : State} (s : State) (o : Origin) (a n : Nat) (write : Bool) (h : Keeps r s) :
    Keeps r (State.enqueue s o a n write) := by
  unfold State.enqueue
  (try dsimp only)
  repeat' first
    | with_reducible exact h
    | with_reducible assumption
    | with_reducible apply State.drawEgress_keeps
    | with_reducible apply State.modChan_keeps
    | with_reducible apply Keeps.ite
    | with_reducible apply Keeps.ite1
    | with_reducible apply Keeps.ite2
    | (with_reducible refine Keeps.foldl ?_ ?_)
    | intro _ _ _
    | intro _ _
    | fail_if_no_progress (with_reducible refine Keeps.lit ?_ rfl rfl rfl rfl rfl)
    | split

theorem State.chargeDram_keeps {r : State} (s : State) (q : DramReq) (h : Keeps r s) :
    Keeps r (State.chargeDram s q) := by
  unfold State.chargeDram
  (try dsimp only)
  repeat' first
    | with_reducible exact h
    | with_reducible assumption
    | with_reducible apply State.modClient_keeps
    | with_reducible apply State.modPartAcct_keeps
    | with_reducible apply Keeps.ite
    | with_reducible apply Keeps.ite1
    | with_reducible apply Keeps.ite2
    | intro _ _ _
    | intro _ _
    | fail_if_no_progress (with_reducible refine Keeps.lit ?_ rfl rfl rfl rfl rfl)
    | split

theorem State.retirePage_keeps {r : State} (s : State) (a : Nat) (h : Keeps r s) :
    Keeps r (State.retirePage s a) := by
  unfold State.retirePage
  (try dsimp only)
  repeat' first
    | with_reducible exact h
    | with_reducible assumption
    | with_reducible apply Keeps.ite
    | intro _ _ _
    | intro _ _
    | fail_if_no_progress (with_reducible refine Keeps.lit ?_ rfl rfl rfl rfl rfl)

theorem State.reportUe_keeps {r : State} (s : State) (o : Origin) (c : Nat) (h : Keeps r s) :
    Keeps r (State.reportUe s o c) := by
  unfold State.reportUe
  repeat' first
    | with_reducible exact h
    | with_reducible assumption
    | with_reducible apply State.record_keeps
    | with_reducible apply State.retirePage_keeps

theorem State.strike_keeps {r : State} : ∀ (x0 : List Nat) (x1 : List EccCond) (o : Origin) (s : State) (_ : Keeps r s), Keeps r (State.strike s o x0 x1)
  | c :: cs, e :: es, o, s, h => by
    unfold State.strike
    repeat' first
      | with_reducible exact h
      | with_reducible assumption
      | with_reducible apply State.strike_keeps
      | with_reducible apply State.record_keeps
      | with_reducible apply State.setBad_keeps
      | with_reducible apply Keeps.ite
      | with_reducible apply Keeps.ite1
      | with_reducible apply Keeps.ite2
      | intro _ _ _
      | intro _ _
      | fail_if_no_progress (with_reducible refine Keeps.lit ?_ rfl rfl rfl rfl rfl)
      | split
  | _, _, o, s, h => by
    unfold State.strike
    repeat' first
      | with_reducible exact h
      | with_reducible assumption
      | with_reducible apply State.strike_keeps
      | with_reducible apply State.record_keeps
      | with_reducible apply State.setBad_keeps
      | with_reducible apply Keeps.ite
      | with_reducible apply Keeps.ite1
      | with_reducible apply Keeps.ite2
      | intro _ _ _
      | intro _ _
      | fail_if_no_progress (with_reducible refine Keeps.lit ?_ rfl rfl rfl rfl rfl)
      | split

theorem State.fetch_keeps {r : State} (s : State) (o : Origin) (a n : Nat) (conds : List EccCond) (h : Keeps r s) :
    Keeps r (State.fetch s o a n conds) := by
  unfold State.fetch
  (try dsimp only)
  repeat' first
    | with_reducible exact h
    | with_reducible assumption
    | with_reducible apply State.enqueue_keeps
    | with_reducible apply State.strike_keeps
    | with_reducible apply State.reportUe_keeps
    | (with_reducible refine Keeps.foldl ?_ ?_)
    | intro _ _ _

theorem State.writeCell_keeps {r : State} (s : State) (a : Nat) (bs : List Byte) (unit : Nat) (h : Keeps r s) :
    Keeps r (State.writeCell s a bs unit) := by
  unfold State.writeCell
  (try dsimp only)
  repeat' first
    | with_reducible exact h
    | with_reducible assumption
    | with_reducible apply State.wr_keeps
    | with_reducible apply State.setBad_keeps
    | with_reducible apply Keeps.ite

theorem State.writeCells_keeps {r : State} : ∀ (x0 : Nat) (a : Nat) (bs : List Byte) (unit : Nat) (s : State) (_ : Keeps r s), Keeps r (State.writeCells s a bs unit x0)
  | 0, a, bs, unit, s, h => by
    unfold State.writeCells
    repeat' first
      | with_reducible exact h
  | fuel + 1, a, bs, unit, s, h => by
    unfold State.writeCells
    (try dsimp only)
    repeat' first
      | with_reducible exact h
      | with_reducible assumption
      | with_reducible apply State.writeCells_keeps
      | with_reducible apply State.writeCell_keeps
      | with_reducible apply Keeps.ite

theorem State.put_keeps {r : State} (s : State) (a : Nat) (bs : List Byte) (h : Keeps r s) :
    Keeps r (State.put s a bs) := by
  unfold State.put
  repeat' first
    | with_reducible exact h
    | with_reducible assumption
    | with_reducible apply State.writeCells_keeps

theorem State.store_keeps {r : State} (s : State) (o : Origin) (a : Nat) (bs : List Byte) (conds : List EccCond) (h : Keeps r s) :
    Keeps r (State.store s o a bs conds) := by
  unfold State.store
  (try dsimp only)
  repeat' first
    | with_reducible exact h
    | with_reducible assumption
    | with_reducible apply State.enqueue_keeps
    | with_reducible apply State.strike_keeps
    | with_reducible apply State.reportUe_keeps
    | with_reducible apply State.put_keeps
    | (with_reducible refine Keeps.foldl ?_ ?_)
    | intro _ _ _

theorem State.chargeZero_keeps {r : State} (s : State) (h : Keeps r s) :
    Keeps r (State.chargeZero s) := by
  unfold State.chargeZero
  (try dsimp only)
  repeat' first
    | with_reducible exact h
    | with_reducible assumption
    | with_reducible apply State.draw_keeps
    | intro _ _ _
    | intro _ _
    | fail_if_no_progress (with_reducible refine Keeps.lit ?_ rfl rfl rfl rfl rfl)

theorem State.zeroStore_keeps {r : State} (s : State) (sp p : Nat) (h : Keeps r s) :
    Keeps r (State.zeroStore s sp p) := by
  unfold State.zeroStore
  (try dsimp only)
  repeat' first
    | with_reducible exact h
    | with_reducible assumption
    | with_reducible apply State.zero_keeps
    | with_reducible apply State.chargeZero_keeps
    | with_reducible apply State.modSpire_keeps
    | with_reducible apply Keeps.ite

theorem State.restoreRanges_keeps {r : State} : ∀ (x0 : List (Nat × Nat)) (a : Nat) (sp : Nat) (s : State) (_ : Keeps r s), Keeps r (State.restoreRanges s a sp x0)
  | [], a, sp, s, h => by
    unfold State.restoreRanges
    repeat' first
      | with_reducible exact h
  | (off, len) :: t, a, sp, s, h => by
    unfold State.restoreRanges
    repeat' first
      | with_reducible exact h
      | with_reducible assumption
      | with_reducible apply State.restoreRanges_keeps
      | with_reducible apply State.put_keeps

theorem State.chargePlace_keeps {r : State} (s : State) (j i : Nat) (borrowed : Bool) (h : Keeps r s) :
    Keeps r (State.chargePlace s j i borrowed) := by
  unfold State.chargePlace
  (try dsimp only)
  repeat' first
    | with_reducible exact h
    | with_reducible assumption
    | with_reducible apply State.modJobAcct_keeps
    | with_reducible apply State.modPart_keeps
    | with_reducible apply State.modMbx_keeps
    | with_reducible apply State.modTask_keeps
    | with_reducible apply Keeps.ite

theorem State.moveGathers_keeps {r : State} (s : State) (t : TaskId) (sp : Nat) (h : Keeps r s) :
    Keeps r (State.moveGathers s t sp) := by
  unfold State.moveGathers
  (try dsimp only)
  repeat' first
    | with_reducible exact h
    | with_reducible assumption
    | with_reducible apply Keeps.ite
    | (with_reducible refine Keeps.foldl ?_ ?_)
    | intro _ _ _
    | intro _ _
    | fail_if_no_progress (with_reducible refine Keeps.lit ?_ rfl rfl rfl rfl rfl)

theorem State.place_keeps {r : State} (s : State) (j i sp : Nat) (borrowed : Bool) (h : Keeps r s) :
    Keeps r (State.place s j i sp borrowed) := by
  unfold State.place
  (try dsimp only)
  repeat' first
    | with_reducible exact h
    | with_reducible assumption
    | with_reducible apply State.chargePlace_keeps
    | with_reducible apply State.zeroStore_keeps
    | with_reducible apply State.modSpire_keeps
    | with_reducible apply State.modTask_keeps
    | with_reducible apply State.wantStep_keeps
    | with_reducible apply State.fetch_keeps
    | with_reducible apply State.restoreRanges_keeps
    | with_reducible apply State.moveGathers_keeps
    | with_reducible apply State.record_keeps
    | with_reducible apply State.failTask_keeps
    | with_reducible apply Keeps.ite

theorem execTaskDispatch_keeps {r : State} (sp : Fin 64) (s : State) (h : Keeps r s) :
    OutKeeps r (execTaskDispatch sp s) := by
  unfold execTaskDispatch
  repeat' first
    | with_reducible exact h
    | with_reducible assumption
    | with_reducible apply State.place_keeps
    | with_reducible apply OutKeeps.ite
    | with_reducible apply OutKeeps.next
    | with_reducible apply Keeps.ite
    | with_reducible apply Keeps.ite1
    | with_reducible apply Keeps.ite2
    | intro _ _ _
    | intro _ _
    | fail_if_no_progress (with_reducible refine Keeps.lit ?_ rfl rfl rfl rfl rfl)
    | split

theorem State.reclaimLent_keeps {r : State} (s : State) (p : Nat) (h : Keeps r s) :
    Keeps r (State.reclaimLent s p) := by
  unfold State.reclaimLent
  repeat' first
    | with_reducible exact h
    | with_reducible assumption
    | with_reducible apply State.modSpire_keeps
    | with_reducible apply Keeps.ite
    | with_reducible apply Keeps.ite1
    | with_reducible apply Keeps.ite2
    | (with_reducible refine Keeps.foldl ?_ ?_)
    | intro _ _ _
    | intro _ _
    | fail_if_no_progress (with_reducible refine Keeps.lit ?_ rfl rfl rfl rfl rfl)
    | split

theorem State.wake_keeps {r : State} (s : State) (p c : Nat) (h : Keeps r s) :
    Keeps r (State.wake s p c) := by
  unfold State.wake
  (try dsimp only)
  repeat' first
    | with_reducible exact h
    | with_reducible assumption
    | with_reducible apply State.modMbx_keeps
    | with_reducible apply State.modPart_keeps
    | with_reducible apply Keeps.ite

theorem execTaskReady_keeps {r : State} (job idx : Nat) (s : State) (h : Keeps r s) :
    OutKeeps r (execTaskReady job idx s) := by
  unfold execTaskReady
  (try dsimp only)
  repeat' first
    | with_reducible exact h
    | with_reducible assumption
    | with_reducible apply State.wake_keeps
    | with_reducible apply State.modTask_keeps
    | with_reducible apply State.modJob_keeps
    | with_reducible apply State.reclaimLent_keeps
    | with_reducible apply State.failTask_keeps
    | with_reducible apply OutKeeps.ite
    | with_reducible apply OutKeeps.next

theorem execLaunchAtStart_keeps {r : State} (job : Nat) (s : State) (h : Keeps r s) :
    OutKeeps r (execLaunchAtStart job s) := by
  unfold execLaunchAtStart
  repeat' first
    | with_reducible exact h
    | with_reducible assumption
    | with_reducible apply State.elapseTo_keeps
    | with_reducible apply State.modJob_keeps
    | with_reducible apply State.closeStepLaunches_keeps
    | with_reducible apply OutKeeps.ite
    | with_reducible apply OutKeeps.next
    | with_reducible apply Keeps.ite
    | with_reducible apply Keeps.ite1
    | with_reducible apply Keeps.ite2
    | intro _ _ _
    | intro _ _
    | fail_if_no_progress (with_reducible refine Keeps.lit ?_ rfl rfl rfl rfl rfl)
    | split

theorem execYieldPoint_keeps {r : State} (sp : Fin 64) (y : Nat) (ctx : List Byte) (w : List WaitRef) (dt : Nat) (s : State) (h : Keeps r s) :
    OutKeeps r (execYieldPoint sp y ctx w dt s) := by
  unfold execYieldPoint
  (try dsimp only)
  repeat' first
    | with_reducible exact h
    | with_reducible assumption
    | with_reducible apply State.elapse_keeps
    | with_reducible apply State.settle_keeps
    | with_reducible apply State.modTask_keeps
    | with_reducible apply State.failTask_keeps
    | with_reducible apply OutKeeps.ite
    | with_reducible apply OutKeeps.next
    | with_reducible apply Keeps.ite
    | with_reducible apply Keeps.ite1
    | with_reducible apply Keeps.ite2
    | intro _ _ _
    | intro _ _
    | fail_if_no_progress (with_reducible refine Keeps.lit ?_ rfl rfl rfl rfl rfl)
    | split

theorem execTokenWaitDone_keeps {r : State} (sp : Fin 64) (s : State) (h : Keeps r s) :
    OutKeeps r (execTokenWaitDone sp s) := by
  unfold execTokenWaitDone
  repeat' first
    | with_reducible exact h
    | with_reducible assumption
    | with_reducible apply State.modTask_keeps
    | with_reducible apply OutKeeps.ite
    | with_reducible apply OutKeeps.next
    | with_reducible apply Keeps.ite
    | with_reducible apply Keeps.ite1
    | with_reducible apply Keeps.ite2
    | intro _ _ _
    | intro _ _
    | fail_if_no_progress (with_reducible refine Keeps.lit ?_ rfl rfl rfl rfl rfl)
    | split

theorem execYieldWaitTimeout_keeps {r : State} (sp : Fin 64) (s : State) (h : Keeps r s) :
    OutKeeps r (execYieldWaitTimeout sp s) := by
  unfold execYieldWaitTimeout
  (try dsimp only)
  repeat' first
    | with_reducible exact h
    | with_reducible assumption
    | with_reducible apply State.elapse_keeps
    | with_reducible apply State.settle_keeps
    | with_reducible apply State.modSpire_keeps
    | with_reducible apply State.modTask_keeps
    | with_reducible apply OutKeeps.ite
    | with_reducible apply OutKeeps.next
    | with_reducible apply Keeps.ite
    | with_reducible apply Keeps.ite1
    | with_reducible apply Keeps.ite2
    | intro _ _ _
    | intro _ _
    | fail_if_no_progress (with_reducible refine Keeps.lit ?_ rfl rfl rfl rfl rfl)
    | split

theorem execSaveDone_keeps {r : State} (sp : Fin 64) (dt : Nat) (s : State) (h : Keeps r s) :
    OutKeeps r (execSaveDone sp dt s) := by
  unfold execSaveDone
  (try dsimp only)
  repeat' first
    | with_reducible exact h
    | with_reducible assumption
    | with_reducible apply State.elapse_keeps
    | with_reducible apply State.fetch_keeps
    | with_reducible apply State.quarantine_keeps
    | with_reducible apply State.store_keeps
    | with_reducible apply State.modTask_keeps
    | with_reducible apply State.modJobAcct_keeps
    | with_reducible apply State.modSpire_keeps
    | with_reducible apply OutKeeps.ite
    | with_reducible apply OutKeeps.next
    | with_reducible apply Keeps.ite
    | with_reducible apply Keeps.ite1
    | with_reducible apply Keeps.ite2
    | (with_reducible refine Keeps.foldl ?_ ?_)
    | intro _ _ _
    | intro _ _
    | fail_if_no_progress (with_reducible refine Keeps.lit ?_ rfl rfl rfl rfl rfl)
    | split

theorem State.taskEnd_keeps {r : State} (s : State) (sp dt : Nat) (h : Keeps r s) :
    Keeps r (State.taskEnd s sp dt) := by
  unfold State.taskEnd
  (try dsimp only)
  repeat' first
    | with_reducible exact h
    | with_reducible assumption
    | with_reducible apply State.elapse_keeps
    | with_reducible apply State.settle_keeps
    | with_reducible apply State.chargeEnd_keeps
    | with_reducible apply State.leaveSpire_keeps
    | with_reducible apply State.modTask_keeps
    | with_reducible apply State.modJob_keeps
    | with_reducible apply State.closeJob_keeps
    | with_reducible apply Keeps.ite
    | with_reducible apply Keeps.ite1
    | with_reducible apply Keeps.ite2
    | (with_reducible refine Keeps.foldl ?_ ?_)
    | intro _ _ _
    | intro _ _
    | fail_if_no_progress (with_reducible refine Keeps.lit ?_ rfl rfl rfl rfl rfl)
    | split

theorem State.overrun_keeps {r : State} (s : State) (sp j i : Nat) (h : Keeps r s) :
    Keeps r (State.overrun s sp j i) := by
  unfold State.overrun
  (try dsimp only)
  repeat' first
    | with_reducible exact h
    | with_reducible assumption
    | with_reducible apply State.record_keeps
    | with_reducible apply State.modJobAcct_keeps
    | with_reducible apply State.post_keeps
    | with_reducible apply State.modTask_keeps
    | with_reducible apply State.failTask_keeps
    | with_reducible apply Keeps.ite

theorem State.chargeTo_keeps {r : State} (s : State) (sp j i us : Nat) (h : Keeps r s) :
    Keeps r (State.chargeTo s sp j i us) := by
  unfold State.chargeTo
  (try dsimp only)
  repeat' first
    | with_reducible exact h
    | with_reducible assumption
    | with_reducible apply State.settle_keeps
    | with_reducible apply State.elapse_keeps

theorem execTaskOverrun_keeps {r : State} (sp : Fin 64) (s : State) (h : Keeps r s) :
    OutKeeps r (execTaskOverrun sp s) := by
  unfold execTaskOverrun
  repeat' first
    | with_reducible exact h
    | with_reducible assumption
    | with_reducible apply State.chargeTo_keeps
    | with_reducible apply State.overrun_keeps
    | with_reducible apply OutKeeps.ite
    | with_reducible apply OutKeeps.next
    | with_reducible apply Keeps.ite
    | with_reducible apply Keeps.ite1
    | with_reducible apply Keeps.ite2
    | intro _ _ _
    | intro _ _
    | fail_if_no_progress (with_reducible refine Keeps.lit ?_ rfl rfl rfl rfl rfl)
    | split

theorem execOverrunAbort_keeps {r : State} (sp : Fin 64) (s : State) (h : Keeps r s) :
    OutKeeps r (execOverrunAbort sp s) := by
  unfold execOverrunAbort
  repeat' first
    | with_reducible exact h
    | with_reducible assumption
    | with_reducible apply State.chargeTo_keeps
    | with_reducible apply State.failTask_keeps
    | with_reducible apply OutKeeps.ite
    | with_reducible apply OutKeeps.next
    | with_reducible apply Keeps.ite
    | with_reducible apply Keeps.ite1
    | with_reducible apply Keeps.ite2
    | intro _ _ _
    | intro _ _
    | fail_if_no_progress (with_reducible refine Keeps.lit ?_ rfl rfl rfl rfl rfl)
    | split

theorem execTaskFailover_keeps {r : State} (sp : Fin 64) (s : State) (h : Keeps r s) :
    OutKeeps r (execTaskFailover sp s) := by
  unfold execTaskFailover
  (try dsimp only)
  repeat' first
    | with_reducible exact h
    | with_reducible assumption
    | with_reducible apply State.zeroStore_keeps
    | with_reducible apply State.modSpire_keeps
    | with_reducible apply State.modTask_keeps
    | with_reducible apply State.wantStep_keeps
    | with_reducible apply State.post_keeps
    | with_reducible apply OutKeeps.ite
    | with_reducible apply OutKeeps.next
    | with_reducible apply Keeps.ite
    | with_reducible apply Keeps.ite1
    | with_reducible apply Keeps.ite2
    | intro _ _ _
    | intro _ _
    | fail_if_no_progress (with_reducible refine Keeps.lit ?_ rfl rfl rfl rfl rfl)
    | split

theorem execSpireFllRelock_keeps {r : State} (sp : Fin 64) (s : State) (h : Keeps r s) :
    OutKeeps r (execSpireFllRelock sp s) := by
  unfold execSpireFllRelock
  (try dsimp only)
  repeat' first
    | with_reducible exact h
    | with_reducible assumption
    | with_reducible apply State.settle_keeps
    | with_reducible apply State.modSpire_keeps
    | with_reducible apply State.lowerRail_keeps
    | with_reducible apply OutKeeps.ite
    | with_reducible apply OutKeeps.next

theorem State.throttle_keeps {r : State} (s : State) (p sp : Nat) (h : Keeps r s) :
    Keeps r (State.throttle s p sp) := by
  unfold State.throttle
  (try dsimp only)
  repeat' first
    | with_reducible exact h
    | with_reducible assumption
    | with_reducible apply State.modSpire_keeps
    | with_reducible apply State.modPart_keeps
    | with_reducible apply State.post_keeps
    | with_reducible apply Keeps.ite

theorem execBudgetExhausted_keeps {r : State} (sp : Fin 64) (s : State) (h : Keeps r s) :
    OutKeeps r (execBudgetExhausted sp s) := by
  unfold execBudgetExhausted
  (try dsimp only)
  repeat' first
    | with_reducible exact h
    | with_reducible assumption
    | with_reducible apply State.settle_keeps
    | with_reducible apply State.elapse_keeps
    | with_reducible apply State.throttle_keeps
    | with_reducible apply OutKeeps.ite
    | with_reducible apply OutKeeps.next
    | with_reducible apply Keeps.ite
    | with_reducible apply Keeps.ite1
    | with_reducible apply Keeps.ite2
    | intro _ _ _
    | intro _ _
    | fail_if_no_progress (with_reducible refine Keeps.lit ?_ rfl rfl rfl rfl rfl)
    | split

theorem State.preemptShared_keeps {r : State} (s : State) (keep : Option Nat) (why : Preempt) (h : Keeps r s) :
    Keeps r (State.preemptShared s keep why) := by
  unfold State.preemptShared
  repeat' first
    | with_reducible exact h
    | with_reducible assumption
    | with_reducible apply State.modSpire_keeps
    | with_reducible apply Keeps.ite
    | with_reducible apply Keeps.ite1
    | with_reducible apply Keeps.ite2
    | (with_reducible refine Keeps.foldl ?_ ?_)
    | intro _ _ _
    | intro _ _
    | fail_if_no_progress (with_reducible refine Keeps.lit ?_ rfl rfl rfl rfl rfl)
    | split

theorem State.frameStart_keeps {r : State} (s : State) (h : Keeps r s) :
    Keeps r (State.frameStart s) := by
  unfold State.frameStart
  (try dsimp only)
  repeat' first
    | with_reducible exact h
    | with_reducible assumption
    | with_reducible apply State.elapseTo_keeps
    | with_reducible apply State.settle_keeps
    | with_reducible apply State.modSpire_keeps
    | with_reducible apply State.modPart_keeps
    | with_reducible apply State.preemptShared_keeps
    | (with_reducible refine Keeps.foldl ?_ ?_)
    | intro _ _ _
    | intro _ _
    | fail_if_no_progress (with_reducible refine Keeps.lit ?_ rfl rfl rfl rfl rfl)

theorem execWindowStart_keeps {r : State} (p : Fin 16) (s : State) (h : Keeps r s) :
    OutKeeps r (execWindowStart p s) := by
  unfold execWindowStart
  (try dsimp only)
  repeat' first
    | with_reducible exact h
    | with_reducible assumption
    | with_reducible apply State.elapseTo_keeps
    | with_reducible apply State.modSpire_keeps
    | with_reducible apply State.preemptShared_keeps
    | with_reducible apply OutKeeps.ite
    | with_reducible apply OutKeeps.next
    | with_reducible apply Keeps.ite
    | with_reducible apply Keeps.ite1
    | with_reducible apply Keeps.ite2
    | (with_reducible refine Keeps.foldl ?_ ?_)
    | intro _ _ _
    | intro _ _
    | fail_if_no_progress (with_reducible refine Keeps.lit ?_ rfl rfl rfl rfl rfl)
    | split

theorem execSlackStart_keeps {r : State} (s : State) (h : Keeps r s) :
    OutKeeps r (execSlackStart s) := by
  unfold execSlackStart
  (try dsimp only)
  repeat' first
    | with_reducible exact h
    | with_reducible assumption
    | with_reducible apply State.elapseTo_keeps
    | with_reducible apply State.preemptShared_keeps
    | with_reducible apply OutKeeps.next
    | (with_reducible refine Keeps.foldl ?_ ?_)
    | intro _ _ _
    | intro _ _
    | fail_if_no_progress (with_reducible refine Keeps.lit ?_ rfl rfl rfl rfl rfl)
    | split

theorem execReclaimLead_keeps {r : State} (p : Fin 16) (s : State) (h : Keeps r s) :
    OutKeeps r (execReclaimLead p s) := by
  unfold execReclaimLead
  (try dsimp only)
  repeat' first
    | with_reducible exact h
    | with_reducible assumption
    | with_reducible apply State.elapseTo_keeps
    | with_reducible apply State.modSpire_keeps
    | with_reducible apply OutKeeps.ite
    | with_reducible apply OutKeeps.next
    | with_reducible apply Keeps.ite
    | (with_reducible refine Keeps.foldl ?_ ?_)
    | intro _ _ _

theorem execGoldenTileSlot_keeps {r : State} (p : Fin 16) (s : State) (h : Keeps r s) :
    OutKeeps r (execGoldenTileSlot p s) := by
  unfold execGoldenTileSlot
  (try dsimp only)
  repeat' first
    | with_reducible exact h
    | with_reducible assumption
    | with_reducible apply State.elapseTo_keeps
    | with_reducible apply State.zeroStore_keeps
    | with_reducible apply State.modSpire_keeps
    | with_reducible apply OutKeeps.ite
    | with_reducible apply OutKeeps.next
    | with_reducible apply Keeps.ite
    | with_reducible apply Keeps.ite1
    | with_reducible apply Keeps.ite2
    | (with_reducible refine Keeps.foldl ?_ ?_)
    | intro _ _ _
    | intro _ _
    | fail_if_no_progress (with_reducible refine Keeps.lit ?_ rfl rfl rfl rfl rfl)

theorem State.goldenMismatch_keeps {r : State} (s : State) (p sp : Nat) (h : Keeps r s) :
    Keeps r (State.goldenMismatch s p sp) := by
  unfold State.goldenMismatch
  (try dsimp only)
  repeat' first
    | with_reducible exact h
    | with_reducible assumption
    | with_reducible apply State.record_keeps
    | with_reducible apply State.quarantine_keeps
    | with_reducible apply State.degrade_keeps
    | with_reducible apply Keeps.ite
    | intro _ _ _
    | intro _ _
    | fail_if_no_progress (with_reducible refine Keeps.lit ?_ rfl rfl rfl rfl rfl)

theorem execGoldenTileSignature_keeps {r : State} (sp : Fin 64) (sig : W64) (s : State) (h : Keeps r s) :
    OutKeeps r (execGoldenTileSignature sp sig s) := by
  unfold execGoldenTileSignature
  (try dsimp only)
  repeat' first
    | with_reducible exact h
    | with_reducible assumption
    | with_reducible apply State.modSpire_keeps
    | with_reducible apply State.goldenMismatch_keeps
    | with_reducible apply OutKeeps.ite
    | with_reducible apply OutKeeps.next
    | with_reducible apply Keeps.ite
    | with_reducible apply Keeps.ite1
    | with_reducible apply Keeps.ite2
    | intro _ _ _
    | intro _ _
    | fail_if_no_progress (with_reducible refine Keeps.lit ?_ rfl rfl rfl rfl rfl)
    | split

theorem execGoldenTileSlotEnd_keeps {r : State} (p : Fin 16) (s : State) (h : Keeps r s) :
    OutKeeps r (execGoldenTileSlotEnd p s) := by
  unfold execGoldenTileSlotEnd
  (try dsimp only)
  repeat' first
    | with_reducible exact h
    | with_reducible assumption
    | with_reducible apply State.elapseTo_keeps
    | with_reducible apply State.modSpire_keeps
    | with_reducible apply State.goldenMismatch_keeps
    | with_reducible apply State.modPartAcct_keeps
    | with_reducible apply OutKeeps.ite
    | with_reducible apply OutKeeps.next
    | with_reducible apply Keeps.ite
    | with_reducible apply Keeps.ite1
    | with_reducible apply Keeps.ite2
    | (with_reducible refine Keeps.foldl ?_ ?_)
    | intro _ _ _
    | intro _ _
    | fail_if_no_progress (with_reducible refine Keeps.lit ?_ rfl rfl rfl rfl rfl)
    | split

theorem execRowTokenAdvance_keeps {r : State} (dome : Fin 16) (t : Fin 64) (b1 : Nat) (s : State) (h : Keeps r s) :
    OutKeeps r (execRowTokenAdvance dome t b1 s) := by
  unfold execRowTokenAdvance
  (try dsimp only)
  split
  · exact State.stale_keeps _ _ h
  · split
    · rename_i j i _ _
      have k := State.modTask_keeps s j i (fun x => { x with band := b1 }) h
      generalize State.modTask s j i _ = u at k ⊢
      exact k.toks (fun w => tmod_wf (64 * dome.val + t.val) (fun n => max n (b1 % 2 ^ 16)) w) id id rfl rfl rfl rfl
    · exact h

theorem execTokenShadowUpdate_keeps {r : State} (dome src : Fin 16) (t : Fin 64) (v : Nat) (s : State) (h : Keeps r s) :
    OutKeeps r (execTokenShadowUpdate dome src t v s) := by
  unfold execTokenShadowUpdate
  (try dsimp only)
  split
  · exact Keeps.toks h id (tput_wf _ _) id rfl rfl rfl rfl
  · exact State.stale_keeps _ _ h

theorem execRingReadTokenAdvance_keeps {r : State} (dome : Fin 16) (t : Fin 64) (lo : Option Nat) (hi : Nat) (s : State)
    (h : Keeps r s) : OutKeeps r (execRingReadTokenAdvance dome t lo hi s) := by
  unfold execRingReadTokenAdvance
  (try dsimp only)
  split
  · exact State.stale_keeps _ _ h
  · split
    · exact Keeps.toks h id id (tput_wf _ _) rfl rfl rfl rfl
    · exact h

theorem State.failReq_keeps {r0 : State} (s : State) (r : Requester) (bit : Nat) (h : Keeps r0 s) :
    Keeps r0 (State.failReq s r bit) := by
  unfold State.failReq
  repeat' first
    | with_reducible exact h
    | with_reducible assumption
    | with_reducible apply State.failRun_keeps
    | intro _ _ _
    | intro _ _
    | fail_if_no_progress (with_reducible refine Keeps.lit ?_ rfl rfl rfl rfl rfl)
    | split

theorem State.decodeFault_keeps {r0 : State} (s : State) (r : Requester) (a : Nat) (h : Keeps r0 s) :
    Keeps r0 (State.decodeFault s r a) := by
  unfold State.decodeFault
  repeat' first
    | with_reducible exact h
    | with_reducible assumption
    | with_reducible apply State.record_keeps
    | with_reducible apply State.failReq_keeps

theorem State.memFault_keeps {r0 : State} (s : State) (r : Requester) (a : Nat) (h : Keeps r0 s) :
    Keeps r0 (State.memFault s r a) := by
  unfold State.memFault
  repeat' first
    | with_reducible exact h
    | with_reducible assumption
    | with_reducible apply State.record_keeps
    | with_reducible apply State.failReq_keeps

theorem State.grantDma_keeps {r : State} (s : State) (d ch : Nat) (h : Keeps r s) :
    Keeps r (State.grantDma s d ch) := by
  unfold State.grantDma
  (try dsimp only)
  repeat' first
    | with_reducible exact h
    | with_reducible assumption
    | with_reducible apply Keeps.ite
    | intro _ _ _
    | intro _ _
    | fail_if_no_progress (with_reducible refine Keeps.lit ?_ rfl rfl rfl rfl rfl)

theorem State.endDma_keeps {r : State} (s : State) (d ch : Nat) (h : Keeps r s) :
    Keeps r (State.endDma s d ch) := by
  unfold State.endDma
  (try dsimp only)
  repeat' first
    | with_reducible exact h
    | with_reducible assumption
    | with_reducible apply State.grantDma_keeps
    | intro _ _ _
    | intro _ _
    | fail_if_no_progress (with_reducible refine Keeps.lit ?_ rfl rfl rfl rfl rfl)

theorem State.dmaAbort_keeps {r0 : State} (s : State) (r : Requester) (d ch a : Nat) (h : Keeps r0 s) :
    Keeps r0 (State.dmaAbort s r d ch a) := by
  unfold State.dmaAbort
  (try dsimp only)
  repeat' first
    | with_reducible exact h
    | with_reducible assumption
    | with_reducible apply State.record_keeps
    | with_reducible apply State.failRun_keeps
    | with_reducible apply State.failMarks_keeps
    | with_reducible apply State.endDma_keeps
    | intro _ _ _
    | intro _ _
    | fail_if_no_progress (with_reducible refine Keeps.lit ?_ rfl rfl rfl rfl rfl)
    | split

theorem State.transferFault_keeps {r0 : State} (s : State) (r : Requester) (a : Nat) (h : Keeps r0 s) :
    Keeps r0 (State.transferFault s r a) := by
  unfold State.transferFault
  split
  · exact State.dmaAbort_keeps _ _ _ _ _ h
  · exact State.memFault_keeps _ _ _ h

theorem State.poisoned_keeps {r0 : State} (s : State) (r : Requester) (a : Nat) (h : Keeps r0 s) :
    Keeps r0 (State.poisoned s r a) := by
  unfold State.poisoned
  repeat' first
    | with_reducible exact h
    | with_reducible assumption
    | with_reducible apply State.quarantine_keeps
    | with_reducible apply State.memFault_keeps
    | with_reducible apply State.dmaAbort_keeps
    | with_reducible apply Keeps.ite
    | with_reducible apply Keeps.ite1
    | with_reducible apply Keeps.ite2
    | intro _ _ _
    | intro _ _
    | fail_if_no_progress (with_reducible refine Keeps.lit ?_ rfl rfl rfl rfl rfl)
    | split

theorem State.writeFault_keeps {r0 : State} (s : State) (r : Requester) (a : Nat) (h : Keeps r0 s) :
    Keeps r0 (State.writeFault s r a) := by
  unfold State.writeFault
  repeat' first
    | with_reducible exact h
    | with_reducible assumption
    | with_reducible apply State.poisoned_keeps

theorem State.writeOp_keeps {r0 : State} (s : State) (r : Requester) (a : Nat) (bs : List Byte) (conds : List EccCond) (h : Keeps r0 s) :
    Keeps r0 (State.writeOp s r a bs conds) := by
  unfold State.writeOp
  (try dsimp only)
  repeat' first
    | with_reducible exact h
    | with_reducible assumption
    | with_reducible apply State.decodeFault_keeps
    | with_reducible apply State.transferFault_keeps
    | with_reducible apply State.store_keeps
    | with_reducible apply State.writeFault_keeps
    | with_reducible apply Keeps.ite
    | with_reducible apply Keeps.ite1
    | with_reducible apply Keeps.ite2
    | intro _ _ _
    | intro _ _
    | fail_if_no_progress (with_reducible refine Keeps.lit ?_ rfl rfl rfl rfl rfl)
    | split

theorem execMemoryWrite_keeps {r : State} (req : Requester) (da : Nat) (data : List Byte) (conds : List EccCond) (s : State) (h : Keeps r s) :
    OutKeeps r (execMemoryWrite req da data conds s) := by
  unfold execMemoryWrite
  repeat' first
    | with_reducible exact h
    | with_reducible assumption
    | with_reducible apply State.writeOp_keeps
    | with_reducible apply OutKeeps.next

theorem execSramScrub_keeps {r : State} (bank : Nat) (conds : List EccCond) (s : State) (h : Keeps r s) :
    OutKeeps r (execSramScrub bank conds s) := by
  unfold execSramScrub
  (try dsimp only)
  repeat' first
    | with_reducible exact h
    | with_reducible assumption
    | with_reducible apply State.strike_keeps
    | with_reducible apply State.reportUe_keeps
    | with_reducible apply OutKeeps.ite
    | with_reducible apply OutKeeps.next
    | with_reducible apply Keeps.ite
    | (with_reducible refine Keeps.foldl ?_ ?_)
    | intro _ _ _
    | intro _ _
    | fail_if_no_progress (with_reducible refine Keeps.lit ?_ rfl rfl rfl rfl rfl)

theorem execBankPowerUp_keeps {r : State} (bank : Fin 16) (s : State) (h : Keeps r s) :
    OutKeeps r (execBankPowerUp bank s) := by
  unfold execBankPowerUp
  (try dsimp only)
  repeat' first
    | with_reducible exact h
    | with_reducible assumption
    | with_reducible apply State.zero_keeps
    | with_reducible apply OutKeeps.ite
    | with_reducible apply OutKeeps.next
    | with_reducible apply Keeps.ite
    | intro _ _ _
    | intro _ _
    | fail_if_no_progress (with_reducible refine Keeps.lit ?_ rfl rfl rfl rfl rfl)

theorem execDmaDescriptor_keeps {r : State} (dome : Fin 16) (ch : Fin 4) (words : List W64) (sp : Fin 64) (s : State) (h : Keeps r s) :
    OutKeeps r (execDmaDescriptor dome ch words sp s) := by
  unfold execDmaDescriptor
  (try dsimp only)
  repeat' first
    | with_reducible exact h
    | with_reducible assumption
    | with_reducible apply State.zero_keeps
    | with_reducible apply State.grantDma_keeps
    | with_reducible apply State.record_keeps
    | with_reducible apply State.failTask_keeps
    | with_reducible apply OutKeeps.ite
    | with_reducible apply OutKeeps.next
    | with_reducible apply Keeps.ite
    | with_reducible apply Keeps.ite1
    | with_reducible apply Keeps.ite2
    | intro _ _ _
    | intro _ _
    | fail_if_no_progress (with_reducible refine Keeps.lit ?_ rfl rfl rfl rfl rfl)
    | split

theorem State.dmaRows_keeps {r : State} : ∀ (x0 : Nat) (x1 : Nat) (o : Origin) (d : DmaDesc) (s : State) (_ : Keeps r s), Keeps r (State.dmaRows s o d x0 x1).1
  | _, 0, o, d, s, h => by
    unfold State.dmaRows
    (try dsimp only)
    repeat' first
      | with_reducible exact h
  | i, n + 1, o, d, s, h => by
    unfold State.dmaRows
    (try dsimp only)
    repeat' first
      | with_reducible exact h
      | with_reducible assumption
      | with_reducible apply State.dmaRows_keeps
      | with_reducible apply State.zero_keeps
      | with_reducible apply State.fetch_keeps
      | with_reducible apply State.store_keeps
      | with_reducible apply Keeps.ite
      | with_reducible apply Keeps.ite1
      | with_reducible apply Keeps.ite2
      | intro _ _ _
      | intro _ _
      | fail_if_no_progress (with_reducible refine Keeps.lit ?_ rfl rfl rfl rfl rfl)
      | split

theorem execDmaComplete_keeps {r : State} (dome : Fin 16) (ch : Fin 4) (s : State) (h : Keeps r s) :
    OutKeeps r (execDmaComplete dome ch s) := by
  unfold execDmaComplete
  (try dsimp only)
  repeat' first
    | with_reducible exact h
    | with_reducible assumption
    | with_reducible apply State.grantDma_keeps
    | with_reducible apply State.stale_keeps
    | with_reducible apply State.endDma_keeps
    | with_reducible apply State.dmaRows_keeps
    | with_reducible apply State.dmaAbort_keeps
    | with_reducible apply OutKeeps.ite
    | with_reducible apply OutKeeps.next
    | with_reducible apply Keeps.ite
    | with_reducible apply Keeps.ite1
    | with_reducible apply Keeps.ite2
    | intro _ _ _
    | intro _ _
    | fail_if_no_progress (with_reducible refine Keeps.lit ?_ rfl rfl rfl rfl rfl)
    | split
    | (with_reducible refine Keeps.fst (by assumption) ?_)

theorem State.activate_keeps {r : State} (s : State) (ch bank row : Nat) (o : Origin) (addr : Nat) (h : Keeps r s) :
    Keeps r (State.activate s ch bank row o addr) := by
  unfold State.activate
  (try dsimp only)
  repeat' first
    | with_reducible exact h
    | with_reducible assumption
    | with_reducible apply State.modChan_keeps
    | with_reducible apply State.record_keeps
    | with_reducible apply Keeps.ite

theorem State.openRow_keeps {r : State} (s : State) (ch bank row : Nat) (o : Origin) (addr : Nat) (h : Keeps r s) :
    Keeps r (State.openRow s ch bank row o addr) := by
  unfold State.openRow
  repeat' first
    | with_reducible exact h
    | with_reducible assumption
    | with_reducible apply State.activate_keeps
    | with_reducible apply Keeps.ite

theorem State.lineAccess_keeps {r : State} (s : State) (ch a : Nat) (o : Origin) (h : Keeps r s) :
    Keeps r (State.lineAccess s ch a o) := by
  unfold State.lineAccess
  (try dsimp only)
  repeat' first
    | with_reducible exact h
    | with_reducible assumption
    | with_reducible apply State.openRow_keeps
    | with_reducible apply State.modChan_keeps
    | with_reducible apply Keeps.ite

theorem State.linkError_keeps {r : State} (s : State) (ch : Nat) (q : DramReq) (cond : EccCond) (link : LinkErr) (h : Keeps r s) :
    Keeps r (State.linkError s ch q cond link) := by
  unfold State.linkError
  (try dsimp only)
  repeat' first
    | with_reducible exact h
    | with_reducible assumption
    | with_reducible apply State.modChan_keeps
    | with_reducible apply State.record_keeps
    | with_reducible apply State.strike_keeps
    | with_reducible apply State.reportUe_keeps
    | with_reducible apply State.failRun_keeps
    | with_reducible apply Keeps.ite
    | with_reducible apply Keeps.ite1
    | with_reducible apply Keeps.ite2
    | intro _ _ _
    | intro _ _
    | fail_if_no_progress (with_reducible refine Keeps.lit ?_ rfl rfl rfl rfl rfl)
    | split

theorem execDramRequestIssue_keeps {r : State} (ch : Fin 64) (cond : EccCond) (link : LinkErr) (s : State) (h : Keeps r s) :
    OutKeeps r (execDramRequestIssue ch cond link s) := by
  unfold execDramRequestIssue
  (try dsimp only)
  repeat' first
    | with_reducible exact h
    | with_reducible assumption
    | with_reducible apply State.modChan_keeps
    | with_reducible apply State.lineAccess_keeps
    | with_reducible apply State.chargeDram_keeps
    | with_reducible apply State.linkError_keeps
    | with_reducible apply OutKeeps.ite
    | with_reducible apply OutKeeps.next
    | with_reducible apply Keeps.ite
    | with_reducible apply Keeps.ite1
    | with_reducible apply Keeps.ite2
    | intro _ _ _
    | intro _ _
    | fail_if_no_progress (with_reducible refine Keeps.lit ?_ rfl rfl rfl rfl rfl)
    | split

theorem execRefreshInterval_keeps {r : State} (ch : Fin 64) (s : State) (h : Keeps r s) :
    OutKeeps r (execRefreshInterval ch s) := by
  unfold execRefreshInterval
  (try dsimp only)
  repeat' first
    | with_reducible exact h
    | with_reducible assumption
    | with_reducible apply State.elapse_keeps
    | with_reducible apply State.modChan_keeps
    | with_reducible apply OutKeeps.ite
    | with_reducible apply OutKeeps.next

theorem execForcedRefab_keeps {r : State} (ch : Fin 64) (s : State) (h : Keeps r s) :
    OutKeeps r (execForcedRefab ch s) := by
  unfold execForcedRefab
  repeat' first
    | with_reducible exact h
    | with_reducible assumption
    | with_reducible apply State.modChan_keeps
    | with_reducible apply State.record_keeps
    | with_reducible apply OutKeeps.ite
    | with_reducible apply OutKeeps.next

theorem execMr4Read_keeps {r : State} (ch : Fin 64) (rate : Fin 4) (s : State) (h : Keeps r s) :
    OutKeeps r (execMr4Read ch rate s) := by
  unfold execMr4Read
  repeat' first
    | with_reducible exact h
    | with_reducible assumption
    | with_reducible apply State.modChan_keeps
    | with_reducible apply OutKeeps.ite
    | with_reducible apply OutKeeps.next

theorem execLinkEccCountRead_keeps {r : State} (ch : Fin 64) (n : Nat) (s : State) (h : Keeps r s) :
    OutKeeps r (execLinkEccCountRead ch n s) := by
  unfold execLinkEccCountRead
  repeat' first
    | with_reducible exact h
    | with_reducible assumption
    | with_reducible apply State.modChan_keeps
    | with_reducible apply State.record_keeps
    | with_reducible apply OutKeeps.ite
    | with_reducible apply OutKeeps.next

theorem execRhWindowStart_keeps {r : State} (s : State) (h : Keeps r s) :
    OutKeeps r (execRhWindowStart s) := by
  unfold execRhWindowStart
  (try dsimp only)
  repeat' first
    | with_reducible exact h
    | with_reducible assumption
    | with_reducible apply State.elapseTo_keeps
    | with_reducible apply OutKeeps.next
    | (with_reducible refine Keeps.foldl ?_ ?_)
    | intro _ _ _
    | intro _ _
    | fail_if_no_progress (with_reducible refine Keeps.lit ?_ rfl rfl rfl rfl rfl)

theorem execCreditRefill_keeps {r : State} (s : State) (h : Keeps r s) :
    OutKeeps r (execCreditRefill s) := by
  unfold execCreditRefill
  (try dsimp only)
  repeat' first
    | with_reducible exact h
    | with_reducible assumption
    | with_reducible apply State.elapse_keeps
    | with_reducible apply OutKeeps.ite
    | with_reducible apply OutKeeps.next
    | with_reducible apply Keeps.ite
    | (with_reducible refine Keeps.foldl ?_ ?_)
    | intro _ _ _
    | intro _ _
    | fail_if_no_progress (with_reducible refine Keeps.lit ?_ rfl rfl rfl rfl rfl)

theorem State.scrubLine_keeps {r : State} (s : State) (ch a : Nat) (da : Option Nat) (cond : EccCond) (h : Keeps r s) :
    Keeps r (State.scrubLine s ch a da cond) := by
  unfold State.scrubLine
  (try dsimp only)
  repeat' first
    | with_reducible exact h
    | with_reducible assumption
    | with_reducible apply State.strike_keeps
    | with_reducible apply State.reportUe_keeps
    | with_reducible apply State.modChan_keeps
    | with_reducible apply State.record_keeps
    | with_reducible apply Keeps.ite
    | with_reducible apply Keeps.ite1
    | with_reducible apply Keeps.ite2
    | intro _ _ _
    | intro _ _
    | fail_if_no_progress (with_reducible refine Keeps.lit ?_ rfl rfl rfl rfl rfl)
    | split

theorem State.patrol_keeps {r : State} (s : State) (ch a : Nat) (cond : EccCond) (h : Keeps r s) :
    Keeps r (State.patrol s ch a cond) := by
  unfold State.patrol
  repeat' first
    | with_reducible exact h
    | with_reducible assumption
    | with_reducible apply State.lineAccess_keeps
    | with_reducible apply State.scrubLine_keeps

theorem execDramPatrolScrub_keeps {r : State} (ch : Fin 64) (cond : EccCond) (s : State) (h : Keeps r s) :
    OutKeeps r (execDramPatrolScrub ch cond s) := by
  unfold execDramPatrolScrub
  repeat' first
    | with_reducible exact h
    | with_reducible assumption
    | with_reducible apply State.modChan_keeps
    | with_reducible apply State.patrol_keeps
    | with_reducible apply OutKeeps.ite
    | with_reducible apply OutKeeps.next

end Sys2Proof.Machine
end

