-- ==== Sys2Proof/Laws/KeepsSequences.lean ====
section
/-! SUPPORT. What each operation keeps (Sys2Proof/Laws/Keeps.lean): tiles, pages, steps, Spill Queues, planning. -/

namespace Sys2Proof.Machine

theorem State.readRanges_keeps {r0 : State} : ∀ (x0 : List (Nat × Nat)) (r : Requester) (sp : Nat) (s : State) (_ : Keeps r0 s), Keeps r0 (State.readRanges s r sp x0).1
  | [], r, sp, s, h => by
    unfold State.readRanges
    (try dsimp only)
    repeat' first
      | with_reducible exact h
  | (a, n) :: t, r, sp, s, h => by
    unfold State.readRanges
    (try dsimp only)
    repeat' first
      | with_reducible exact h
      | with_reducible assumption
      | with_reducible apply State.readRanges_keeps
      | with_reducible apply State.fetch_keeps
      | with_reducible apply Keeps.ite
      | with_reducible apply Keeps.ite1

theorem State.tileFail_keeps {r : State} (s : State) (sp : Fin 64) (f : TileFail) (h : Keeps r s) :
    Keeps r (State.tileFail s sp f) := by
  unfold State.tileFail
  (try dsimp only)
  repeat' first
    | with_reducible exact h
    | with_reducible assumption
    | with_reducible apply State.record_keeps
    | with_reducible apply State.failSpire_keeps
    | with_reducible apply State.decodeFault_keeps
    | with_reducible apply State.poisoned_keeps
    | intro _ _ _
    | intro _ _
    | fail_if_no_progress (with_reducible refine Keeps.lit ?_ rfl rfl rfl rfl rfl)
    | split

theorem State.tileWrite_keeps {r : State} (s : State) (sp : Fin 64) (j i : Nat) (o : TileOut) (retried : Bool) (h : Keeps r s) :
    Keeps r (State.tileWrite s sp j i o retried) := by
  unfold State.tileWrite
  repeat' first
    | with_reducible exact h
    | with_reducible assumption
    | with_reducible apply State.tileFail_keeps
    | with_reducible apply State.writeOp_keeps
    | with_reducible apply State.modTask_keeps
    | (with_reducible refine Keeps.foldl ?_ ?_)
    | intro _ _ _
    | intro _ _
    | fail_if_no_progress (with_reducible refine Keeps.lit ?_ rfl rfl rfl rfl rfl)
    | split

theorem State.tileRead_keeps {r : State} (s : State) (sp : Fin 64) (op : TileOp) (go : State → State) (h : Keeps r s) (hgo : ∀ t, Keeps r t → Keeps r (go t)) :
    Keeps r (State.tileRead s sp op go) := by
  unfold State.tileRead
  repeat' first
    | with_reducible exact h
    | with_reducible assumption
    | with_reducible apply hgo
    | with_reducible apply State.tileFail_keeps
    | with_reducible apply State.readRanges_keeps
    | intro _ _ _
    | intro _ _
    | fail_if_no_progress (with_reducible refine Keeps.lit ?_ rfl rfl rfl rfl rfl)
    | split
    | (with_reducible refine Keeps.fst (by assumption) ?_)

theorem State.tileDone_keeps {r : State} (s : State) (sp : Fin 64) (j i : Nat) (op : TileOp) (f : TileFaults) (retried : Bool) (h : Keeps r s) :
    Keeps r (State.tileDone s sp j i op f retried) := by
  unfold State.tileDone
  repeat' first
    | with_reducible exact h
    | with_reducible assumption
    | with_reducible apply State.tileFail_keeps
    | with_reducible apply State.tileWrite_keeps
    | intro _ _ _
    | intro _ _
    | fail_if_no_progress (with_reducible refine Keeps.lit ?_ rfl rfl rfl rfl rfl)
    | split

theorem execTileComplete_keeps {r : State} (sp : Fin 64) (op : TileOp) (faults : TileFaults) (dt : Nat) (s : State) (h : Keeps r s) :
    OutKeeps r (execTileComplete sp op faults dt s) := by
  unfold execTileComplete
  (try dsimp only)
  repeat' first
    | with_reducible exact h
    | with_reducible assumption
    | with_reducible apply State.elapse_keeps
    | with_reducible apply State.settle_keeps
    | with_reducible apply State.record_keeps
    | with_reducible apply State.quarantine_keeps
    | with_reducible apply State.tileRead_keeps
    | with_reducible apply State.modSpire_keeps
    | with_reducible apply State.tileDone_keeps
    | with_reducible apply OutKeeps.ite
    | with_reducible apply OutKeeps.next
    | with_reducible apply Keeps.ite
    | with_reducible apply Keeps.ite1
    | with_reducible apply Keeps.ite2
    | intro _ _ _
    | intro _ _
    | fail_if_no_progress (with_reducible refine Keeps.lit ?_ rfl rfl rfl rfl rfl)
    | split

theorem execTileRetryDone_keeps {r : State} (sp : Fin 64) (faults : TileFaults) (dt : Nat) (s : State) (h : Keeps r s) :
    OutKeeps r (execTileRetryDone sp faults dt s) := by
  unfold execTileRetryDone
  (try dsimp only)
  repeat' first
    | with_reducible exact h
    | with_reducible assumption
    | with_reducible apply State.elapse_keeps
    | with_reducible apply State.settle_keeps
    | with_reducible apply State.record_keeps
    | with_reducible apply State.quarantine_keeps
    | with_reducible apply State.modTask_keeps
    | with_reducible apply State.modSpire_keeps
    | with_reducible apply State.tileRead_keeps
    | with_reducible apply State.tileDone_keeps
    | with_reducible apply OutKeeps.ite
    | with_reducible apply OutKeeps.next
    | with_reducible apply Keeps.ite
    | with_reducible apply Keeps.ite1
    | with_reducible apply Keeps.ite2
    | intro _ _ _
    | intro _ _
    | fail_if_no_progress (with_reducible refine Keeps.lit ?_ rfl rfl rfl rfl rfl)
    | split

theorem State.taskReads_keeps {r : State} (s : State) (sp : Fin 64) (rs : List (Nat × Nat)) (go : State → State) (h : Keeps r s) (hgo : ∀ t, Keeps r t → Keeps r (go t)) :
    Keeps r (State.taskReads s sp rs go) := by
  unfold State.taskReads
  repeat' first
    | with_reducible exact h
    | with_reducible assumption
    | with_reducible apply hgo
    | with_reducible apply State.readRanges_keeps
    | with_reducible apply State.tileFail_keeps
    | with_reducible apply Keeps.ite
    | with_reducible apply Keeps.ite1
    | with_reducible apply Keeps.ite2
    | intro _ _ _
    | intro _ _
    | fail_if_no_progress (with_reducible refine Keeps.lit ?_ rfl rfl rfl rfl rfl)
    | split
    | (with_reducible refine Keeps.fst (by assumption) ?_)

theorem execDetReduction_keeps {r : State} (src : DetSource) (out n : Nat) (s : State) (h : Keeps r s) :
    OutKeeps r (execDetReduction src out n s) := by
  unfold execDetReduction
  repeat' first
    | with_reducible exact h
    | with_reducible assumption
    | with_reducible apply State.taskReads_keeps
    | with_reducible apply State.writeOp_keeps
    | with_reducible apply OutKeeps.next
    | intro _ _ _
    | intro _ _

theorem execArrivalOrderAdd_keeps {r : State} (sp : Fin 64) (da : Nat) (v : W32) (s : State) (h : Keeps r s) :
    OutKeeps r (execArrivalOrderAdd sp da v s) := by
  unfold execArrivalOrderAdd
  repeat' first
    | with_reducible exact h
    | with_reducible assumption
    | with_reducible apply State.taskReads_keeps
    | with_reducible apply State.writeOp_keeps
    | with_reducible apply OutKeeps.ite
    | with_reducible apply OutKeeps.next
    | with_reducible apply Keeps.ite
    | intro _ _ _
    | intro _ _

theorem execAtomicOp_keeps {r : State} (req : Requester) (op : AtomicOp) (da : Nat) (v : W32) (s : State) (h : Keeps r s) :
    OutKeeps r (execAtomicOp req op da v s) := by
  unfold execAtomicOp
  (try dsimp only)
  repeat' first
    | with_reducible exact h
    | with_reducible assumption
    | with_reducible apply State.decodeFault_keeps
    | with_reducible apply State.memFault_keeps
    | with_reducible apply State.store_keeps
    | with_reducible apply State.poisoned_keeps
    | with_reducible apply State.answer_keeps
    | with_reducible apply OutKeeps.ite
    | with_reducible apply OutKeeps.next

/-- What a fork's outcome keeps. -/
def OptKeeps (r : State) : Option (State × Nat) → Prop
  | some x => Keeps r x.1
  | none => True

theorem OptKeeps.some {r : State} {x : State × Nat} (h : Keeps r x.1) : OptKeeps r (some x) := h
theorem OptKeeps.none {r : State} : OptKeeps r none := True.intro

theorem Keeps.iteS {r : State} {a b : Passed} {c : Prop} [Decidable c] (h : Keeps r a.s) (k : Keeps r b.s) :
    Keeps r (if c then a else b).s := by split <;> assumption

theorem State.modSeq_keeps {r : State} (s : State) (i : Nat) (f : Seq → Seq) (h : Keeps r s) :
    Keeps r (State.modSeq s i f) := by
  unfold State.modSeq
  (try dsimp only)
  repeat' first
    | with_reducible exact h
    | with_reducible assumption
    | intro _ _ _
    | intro _ _
    | fail_if_no_progress (with_reducible refine Keeps.lit ?_ rfl rfl rfl rfl rfl)

theorem State.setPte_keeps {r : State} (s : State) (slot copy v e : Nat) (h : Keeps r s) :
    Keeps r (State.setPte s slot copy v e) := by
  unfold State.setPte
  repeat' first
    | with_reducible exact h
    | with_reducible assumption
    | with_reducible apply State.wr_keeps

theorem State.unretire_keeps {r : State} (s : State) (a n : Nat) (h : Keeps r s) :
    Keeps r (State.unretire s a n) := by
  unfold State.unretire
  (try dsimp only)
  repeat' first
    | with_reducible exact h
    | with_reducible assumption
    | intro _ _ _
    | intro _ _
    | fail_if_no_progress (with_reducible refine Keeps.lit ?_ rfl rfl rfl rfl rfl)

theorem State.modPage_keeps {r : State} (s : State) (ppn : Nat) (f : PageEnt → PageEnt) (h : Keeps r s) :
    Keeps r (State.modPage s ppn f) := by
  unfold State.modPage
  (try dsimp only)
  repeat' first
    | with_reducible exact h
    | with_reducible assumption
    | intro _ _ _
    | intro _ _
    | fail_if_no_progress (with_reducible refine Keeps.lit ?_ rfl rfl rfl rfl rfl)

theorem State.settleLimbo_keeps {r : State} (s : State) (h : Keeps r s) :
    Keeps r (State.settleLimbo s) := by
  unfold State.settleLimbo
  (try dsimp only)
  repeat' first
    | with_reducible exact h
    | with_reducible assumption
    | with_reducible apply State.modPage_keeps
    | with_reducible apply Keeps.ite
    | with_reducible apply Keeps.ite1
    | with_reducible apply Keeps.ite2
    | (with_reducible refine Keeps.foldl ?_ ?_)
    | intro _ _ _

theorem State.incPage_keeps {r : State} (s : State) (ppn : Nat) (h : Keeps r s) :
    Keeps r (State.incPage s ppn) := by
  unfold State.incPage
  repeat' first
    | with_reducible exact h
    | with_reducible assumption
    | with_reducible apply State.modPage_keeps

theorem State.decPage_keeps {r : State} (s : State) (ppn : Nat) (h : Keeps r s) :
    Keeps r (State.decPage s ppn) := by
  unfold State.decPage
  (try dsimp only)
  repeat' first
    | with_reducible exact h
    | with_reducible assumption
    | with_reducible apply State.modPage_keeps
    | with_reducible apply State.settleLimbo_keeps
    | with_reducible apply Keeps.ite

theorem State.allocPages_keeps {r : State} (s : State) (ps : List Nat) (h : Keeps r s) :
    Keeps r (State.allocPages s ps) := by
  unfold State.allocPages
  repeat' first
    | with_reducible exact h
    | with_reducible assumption
    | with_reducible apply State.modPage_keeps
    | (with_reducible refine Keeps.foldl ?_ ?_)
    | intro _ _ _

theorem State.copyBytes_keeps {r : State} (s : State) (src dst n : Nat) (h : Keeps r s) : Keeps r (State.copyBytes s src dst n) := by
  unfold State.copyBytes
  dsimp only
  have k := State.zero_keeps s dst n h
  have hm : ∀ (l : List (Nat × Byte)) (m : List Host.Cell), Memory.wf m →
      Memory.wf (l.foldl (fun m c => memSet m (c.1 - src + dst) c.2) m) := by
    intro l
    induction l with
    | nil => exact fun _ w => w
    | cons x t ih => exact fun _ w => ih _ (memSet_wf _ _ w)
  refine Keeps.foldl (k.bytes (hm _ _) rfl rfl rfl rfl) fun v c hv => Keeps.foldl hv fun u x hu => ?_
  exact State.setBad_keeps _ _ _ hu

theorem State.copyPage_keeps {r : State} (s : State) (o : Origin) (src dst : Nat) (h : Keeps r s) :
    Keeps r (State.copyPage s o src dst) := by
  unfold State.copyPage
  repeat' first
    | with_reducible exact h
    | with_reducible assumption
    | with_reducible apply State.fetch_keeps
    | with_reducible apply State.copyBytes_keeps
    | with_reducible apply State.enqueue_keeps

theorem State.resync_keeps {r : State} (s : State) (slot : Nat) (h : Keeps r s) :
    Keeps r (State.resync s slot) := by
  unfold State.resync
  (try dsimp only)
  repeat' first
    | with_reducible exact h
    | with_reducible assumption
    | with_reducible apply State.copyBytes_keeps

theorem State.startInval_keeps {r : State} (s : State) (slot : Nat) (after : After) (removed hostFree : List Nat) (h : Keeps r s) :
    Keeps r (State.startInval s slot after removed hostFree) := by
  unfold State.startInval
  repeat' first
    | with_reducible exact h
    | with_reducible assumption
    | with_reducible apply State.modSeq_keeps

theorem State.flip_keeps {r : State} (s : State) (slot : Nat) (after : After) (removed hostFree : List Nat) (h : Keeps r s) :
    Keeps r (State.flip s slot after removed hostFree) := by
  unfold State.flip
  repeat' first
    | with_reducible exact h
    | with_reducible assumption
    | with_reducible apply State.modSeq_keeps
    | with_reducible apply State.startInval_keeps

theorem State.startClose_keeps {r : State} (s : State) (slot : Nat) (h : Keeps r s) :
    Keeps r (State.startClose s slot) := by
  unfold State.startClose
  (try dsimp only)
  repeat' first
    | with_reducible exact h
    | with_reducible assumption
    | with_reducible apply State.modSeq_keeps
    | with_reducible apply State.startInval_keeps

theorem State.freeSlot_keeps {r : State} (s : State) (slot : Nat) (h : Keeps r s) :
    Keeps r (State.freeSlot s slot) := by
  unfold State.freeSlot
  (try dsimp only)
  repeat' first
    | with_reducible exact h
    | with_reducible assumption
    | with_reducible apply State.modSeq_keeps
    | with_reducible apply State.stale_keeps
    | with_reducible apply State.takeTokens_keeps
    | with_reducible apply State.closeStepLaunches_keeps
    | with_reducible apply State.finishAll_keeps
    | with_reducible apply State.complete_keeps
    | with_reducible apply Keeps.ite
    | with_reducible apply Keeps.ite1
    | with_reducible apply Keeps.ite2
    | (with_reducible refine Keeps.foldl ?_ ?_)
    | intro _ _ _
    | intro _ _
    | fail_if_no_progress (with_reducible refine Keeps.lit ?_ rfl rfl rfl rfl rfl)
    | split

theorem State.freeHost_keeps {r : State} (s : State) (p : Nat) (hs : List Nat) (h : Keeps r s) :
    Keeps r (State.freeHost s p hs) := by
  unfold State.freeHost
  repeat' first
    | with_reducible exact h
    | with_reducible assumption
    | with_reducible apply State.modPart_keeps

theorem State.applyLate_keeps {r : State} (s : State) (slot : Nat) (h : Keeps r s) :
    Keeps r (State.applyLate s slot) := by
  unfold State.applyLate
  (try dsimp only)
  repeat' first
    | with_reducible exact h
    | with_reducible assumption
    | with_reducible apply State.setPte_keeps
    | with_reducible apply State.modSeq_keeps
    | with_reducible apply State.modMbx_keeps
    | with_reducible apply Keeps.ite
    | (with_reducible refine Keeps.foldl ?_ ?_)
    | intro _ _ _

theorem State.followAck_keeps {r : State} : ∀ (x0 : After) (slot : Nat) (s : State) (_ : Keeps r s), Keeps r (State.followAck s slot x0)
  | .close, slot, s, h => by
    unfold State.followAck
    (try dsimp only)
    repeat' first
      | with_reducible exact h
      | with_reducible assumption
      | with_reducible apply State.freeSlot_keeps
  | .edits, slot, s, h => by
    unfold State.followAck
    (try dsimp only)
    repeat' first
      | with_reducible exact h
      | with_reducible assumption
      | with_reducible apply State.freeSlot_keeps
      | with_reducible apply State.finishAll_keeps
  | .unstall, slot, s, h => by
    unfold State.followAck
    (try dsimp only)
    repeat' first
      | with_reducible exact h
      | with_reducible assumption
      | with_reducible apply State.freeSlot_keeps
      | with_reducible apply State.finishAll_keeps
      | with_reducible apply State.modSeq_keeps
      | with_reducible apply State.post_keeps
  | .swapOut, slot, s, h => by
    unfold State.followAck
    (try dsimp only)
    repeat' first
      | with_reducible exact h
      | with_reducible assumption
      | with_reducible apply State.freeSlot_keeps
      | with_reducible apply State.finishAll_keeps
      | with_reducible apply State.modSeq_keeps
      | with_reducible apply State.post_keeps
      | with_reducible apply State.startClose_keeps
      | with_reducible apply Keeps.ite
  | .swapIn, slot, s, h => by
    unfold State.followAck
    (try dsimp only)
    repeat' first
      | with_reducible exact h
      | with_reducible assumption
      | with_reducible apply State.freeSlot_keeps
      | with_reducible apply State.finishAll_keeps
      | with_reducible apply State.modSeq_keeps
      | with_reducible apply State.post_keeps
      | with_reducible apply State.startClose_keeps
      | with_reducible apply Keeps.ite
  | .boundary, slot, s, h => by
    unfold State.followAck
    (try dsimp only)
    repeat' first
      | with_reducible exact h
  | .none, slot, s, h => by
    unfold State.followAck
    (try dsimp only)
    repeat' first
      | with_reducible exact h

theorem State.afterAck_keeps {r : State} (s : State) (slot : Nat) (h : Keeps r s) :
    Keeps r (State.afterAck s slot) := by
  unfold State.afterAck
  (try dsimp only)
  repeat' first
    | with_reducible exact h
    | with_reducible assumption
    | with_reducible apply State.resync_keeps
    | with_reducible apply State.modSeq_keeps
    | with_reducible apply State.decPage_keeps
    | with_reducible apply State.freeHost_keeps
    | with_reducible apply State.followAck_keeps
    | with_reducible apply State.startClose_keeps
    | with_reducible apply State.applyLate_keeps
    | with_reducible apply Keeps.ite
    | (with_reducible refine Keeps.foldl ?_ ?_)

theorem State.startSwapOut_keeps {r : State} (s : State) (slot : Nat) (h : Keeps r s) :
    Keeps r (State.startSwapOut s slot) := by
  unfold State.startSwapOut
  (try dsimp only)
  repeat' first
    | with_reducible exact h
    | with_reducible assumption
    | with_reducible apply State.modSeq_keeps
    | with_reducible apply State.post_keeps
    | with_reducible apply State.modPart_keeps
    | with_reducible apply Keeps.ite

theorem State.evict_keeps {r : State} : ∀ (x0 : Nat) (x1 : List Nat) (p : Nat) (goal : Nat) (s : State) (_ : Keeps r s), Keeps r (State.evict s p goal x0 x1)
  | _, [], p, goal, s, h => by
    unfold State.evict
    repeat' first
      | with_reducible exact h
  | gained, v :: t, p, goal, s, h => by
    unfold State.evict
    (try dsimp only)
    repeat' first
      | with_reducible exact h
      | with_reducible assumption
      | with_reducible apply State.evict_keeps
      | with_reducible apply State.startSwapOut_keeps
      | with_reducible apply Keeps.ite

theorem State.lowWater_keeps {r : State} (s : State) (p : Nat) (h : Keeps r s) :
    Keeps r (State.lowWater s p) := by
  unfold State.lowWater
  repeat' first
    | with_reducible exact h
    | with_reducible assumption
    | with_reducible apply State.evict_keeps
    | with_reducible apply Keeps.ite

theorem State.startSwapIn_keeps {r : State} (s : State) (slot : Nat) (h : Keeps r s) :
    Keeps r (State.startSwapIn s slot) := by
  unfold State.startSwapIn
  (try dsimp only)
  repeat' first
    | with_reducible exact h
    | with_reducible assumption
    | with_reducible apply State.modSeq_keeps
    | with_reducible apply State.allocPages_keeps
    | with_reducible apply State.evict_keeps
    | with_reducible apply Keeps.ite

theorem State.finishCopies_keeps {r : State} (s : State) (slot : Nat) (o : Origin) (host : Bool) (after : After) (removed hostFree : List Nat) (h : Keeps r s) :
    Keeps r (State.finishCopies s slot o host after removed hostFree) := by
  unfold State.finishCopies
  (try dsimp only)
  repeat' first
    | with_reducible exact h
    | with_reducible assumption
    | with_reducible apply State.copyPage_keeps
    | with_reducible apply State.setPte_keeps
    | with_reducible apply State.modSeq_keeps
    | with_reducible apply State.flip_keeps
    | (with_reducible refine Keeps.foldl ?_ ?_)
    | intro _ _ _

theorem State.takeAlloc_keeps {r : State} (s : State) (slot : Nat) (new : List Nat) (cow : List (Nat × Nat)) (ps : List Nat) (after : After) (h : Keeps r s) :
    Keeps r (State.takeAlloc s slot new cow ps after) := by
  unfold State.takeAlloc
  (try dsimp only)
  repeat' first
    | with_reducible exact h
    | with_reducible assumption
    | with_reducible apply State.allocPages_keeps
    | with_reducible apply State.modSeq_keeps
    | with_reducible apply State.setPte_keeps
    | with_reducible apply State.flip_keeps
    | with_reducible apply Keeps.ite
    | with_reducible apply Keeps.ite1
    | with_reducible apply Keeps.ite2
    | (with_reducible refine Keeps.foldl ?_ ?_)
    | intro _ _ _

theorem State.forkChild_keeps {r : State} (s : State) (slot : Nat) (h : Keeps r s) :
    OptKeeps r (State.forkChild s slot) := by
  unfold State.forkChild
  (try dsimp only)
  repeat' first
    | with_reducible exact h
    | with_reducible assumption
    | with_reducible apply State.incPage_keeps
    | with_reducible apply State.allocPages_keeps
    | with_reducible apply State.modSeq_keeps
    | with_reducible apply State.copyBytes_keeps
    | with_reducible apply State.copyPage_keeps
    | with_reducible apply State.setPte_keeps
    | with_reducible apply OptKeeps.some
    | with_reducible apply OptKeeps.none
    | with_reducible apply Keeps.ite
    | with_reducible apply Keeps.ite1
    | with_reducible apply Keeps.ite2
    | (with_reducible refine Keeps.foldl ?_ ?_)
    | intro _ _ _
    | intro _ _
    | fail_if_no_progress (with_reducible refine Keeps.lit ?_ rfl rfl rfl rfl rfl)
    | split

theorem State.doForks_keeps {r : State} (s : State) (slot : Nat) (h : Keeps r s) : Keeps r (State.doForks s slot) := by
  unfold State.doForks
  (try dsimp only)
  refine Keeps.foldl ?_ ?_
  · refine Keeps.foldl (State.modSeq_keeps _ _ _ h) ?_
    intro v _ hk
    have e := State.forkChild_keeps v slot hk
    split
    · rename_i hh; rw [hh] at e; exact e
    · exact hk
  · intro v _ hk
    have e := State.forkChild_keeps v slot hk
    split
    · split
      · rename_i hh; rw [hh] at e; exact State.complete_keeps _ _ _ _ _ e
      · exact State.complete_keeps _ _ _ _ _ hk
    · exact hk

theorem State.boundary_keeps {r : State} (s : State) (slot : Nat) (a : Option Nat) (h : Keeps r s) :
    Keeps r (State.boundary s slot a).s := by
  unfold State.boundary
  (try dsimp only)
  repeat' first
    | with_reducible exact h
    | with_reducible assumption
    | with_reducible apply State.startClose_keeps
    | with_reducible apply State.startSwapIn_keeps
    | with_reducible apply State.modSeq_keeps
    | with_reducible apply State.flip_keeps
    | with_reducible apply State.followAck_keeps
    | with_reducible apply State.takeAlloc_keeps
    | with_reducible apply State.doForks_keeps
    | with_reducible apply State.evict_keeps
    | with_reducible apply State.post_keeps
    | with_reducible apply Keeps.ite
    | with_reducible apply Keeps.ite1
    | with_reducible apply Keeps.ite2
    | with_reducible apply Keeps.iteS
    | intro _ _ _
    | intro _ _
    | fail_if_no_progress (with_reducible refine Keeps.lit ?_ rfl rfl rfl rfl rfl)
    | split

theorem State.freshMarks_keeps {r : State} (s : State) (ts : List TaskSt) (h : Keeps r s) : Keeps r (State.freshMarks s ts) := by
  have w : ∀ (l : List (Nat × Nat)) (t : Tab Nat), tabWf 0 t → tabWf 0 (l.foldl (fun t (c : Nat × Nat) => tput 0 t c.1 c.2) t) := by
    intro l
    induction l with
    | nil => exact fun _ w => w
    | cons x t ih => exact fun _ w => ih _ (tput_wf _ _ w)
  have w1 : ∀ (c : Nat × Nat) (l : List Nat) (t : Tab Nat), tabWf 0 t →
      tabWf 0 (l.foldl (fun t d => tput 0 t (shadowKey d (c.1 / 64) (c.1 % 64)) c.2) t) := by
    intro c l
    induction l with
    | nil => exact fun _ w => w
    | cons x t ih => exact fun _ w => ih _ (tput_wf _ _ w)
  have w2 : ∀ (l : List (Nat × Nat)) (t : Tab Nat), tabWf 0 t → tabWf 0 (l.foldl (fun t (c : Nat × Nat) =>
      (List.range 16).foldl (fun t d => tput 0 t (shadowKey d (c.1 / 64) (c.1 % 64)) c.2) t) t) := by
    intro l
    induction l with
    | nil => exact fun _ w => w
    | cons x t ih => exact fun _ w => ih _ (w1 _ _ _ w)
  exact h.toks (w _ _) (w2 _ _) (w _ _) rfl rfl rfl rfl

theorem State.startStep_keeps {r : State} (s : State) (b : Build) (h : Keeps r s) :
    Keeps r (State.startStep s b) := by
  unfold State.startStep
  (try dsimp only)
  repeat' first
    | with_reducible exact h
    | with_reducible assumption
    | with_reducible apply State.modSeq_keeps
    | with_reducible apply State.store_keeps
    | with_reducible apply State.record_keeps
    | with_reducible apply State.modJob_keeps
    | with_reducible apply State.freshMarks_keeps
    | with_reducible apply State.logLaunch_keeps
    | with_reducible apply State.fail_keeps
    | with_reducible apply Keeps.ite
    | (with_reducible refine Keeps.foldl ?_ ?_)
    | intro _ _ _
    | intro _ _
    | fail_if_no_progress (with_reducible refine Keeps.lit ?_ rfl rfl rfl rfl rfl)

theorem State.advance_keeps {r : State} : ∀ (x0 : Nat) (b : Build) (s : State) (_ : Keeps r s), Keeps r (State.advance s b x0).1
  | 0, b, s, h => by
    unfold State.advance
    (try dsimp only)
    repeat' first
      | with_reducible exact h
  | fuel + 1, b, s, h => by
    unfold State.advance
    (try dsimp only)
    repeat' first
      | with_reducible exact h
      | with_reducible assumption
      | with_reducible apply State.advance_keeps
      | with_reducible apply State.startStep_keeps
      | with_reducible apply State.boundary_keeps
      | with_reducible apply Keeps.ite
      | with_reducible apply Keeps.ite1
      | with_reducible apply Keeps.ite2
      | intro _ _ _
      | intro _ _
      | fail_if_no_progress (with_reducible refine Keeps.lit ?_ rfl rfl rfl rfl rfl)
      | split

theorem State.wakeSwapped_keeps {r : State} (s : State) (h : Keeps r s) :
    Keeps r (State.wakeSwapped s) := by
  unfold State.wakeSwapped
  repeat' first
    | with_reducible exact h
    | with_reducible assumption
    | with_reducible apply State.startSwapIn_keeps
    | with_reducible apply Keeps.ite
    | (with_reducible refine Keeps.foldl ?_ ?_)
    | intro _ _ _

theorem State.runBuilds_keeps {r : State} (s : State) (h : Keeps r s) :
    Keeps r (State.runBuilds s) := by
  unfold State.runBuilds
  (try dsimp only)
  repeat' first
    | with_reducible exact h
    | with_reducible assumption
    | with_reducible apply State.advance_keeps
    | with_reducible apply State.wakeSwapped_keeps
    | with_reducible apply Keeps.ite
    | with_reducible apply Keeps.ite1
    | with_reducible apply Keeps.ite2
    | (with_reducible refine Keeps.foldl ?_ ?_)
    | intro _ _ _
    | intro _ _
    | fail_if_no_progress (with_reducible refine Keeps.lit ?_ rfl rfl rfl rfl rfl)

theorem execStepBuild_keeps {r : State} (p : Fin 16) (image : Nat) (phase : Fin 4) (s : State) (h : Keeps r s) :
    OutKeeps r (execStepBuild p image phase s) := by
  unfold execStepBuild
  (try dsimp only)
  repeat' first
    | with_reducible exact h
    | with_reducible assumption
    | with_reducible apply State.runBuilds_keeps
    | with_reducible apply State.modPart_keeps
    | with_reducible apply State.lowWater_keeps
    | with_reducible apply OutKeeps.ite
    | with_reducible apply OutKeeps.next
    | with_reducible apply Keeps.ite
    | with_reducible apply Keeps.ite1
    | with_reducible apply Keeps.ite2
    | intro _ _ _
    | intro _ _
    | fail_if_no_progress (with_reducible refine Keeps.lit ?_ rfl rfl rfl rfl rfl)
    | split

theorem State.stepComplete_keeps {r : State} (s : State) (job : Nat) (h : Keeps r s) :
    Keeps r (State.stepComplete s job) := by
  unfold State.stepComplete
  (try dsimp only)
  repeat' first
    | with_reducible exact h
    | with_reducible assumption
    | with_reducible apply State.chargeStep_keeps
    | with_reducible apply State.modSeq_keeps
    | with_reducible apply State.takeTokens_keeps
    | with_reducible apply State.stale_keeps
    | with_reducible apply State.modJob_keeps
    | with_reducible apply State.sendEnd_keeps
    | with_reducible apply State.closeStepLaunches_keeps
    | with_reducible apply State.settleLimbo_keeps
    | with_reducible apply State.runBuilds_keeps
    | with_reducible apply Keeps.ite
    | (with_reducible refine Keeps.foldl ?_ ?_)
    | intro _ _ _

theorem execStepComplete_keeps {r : State} (job : Nat) (s : State) (h : Keeps r s) :
    OutKeeps r (execStepComplete job s) := by
  unfold execStepComplete
  repeat' first
    | with_reducible exact h
    | with_reducible assumption
    | with_reducible apply State.stepComplete_keeps
    | with_reducible apply OutKeeps.next

theorem State.dropTlb_keeps {r : State} (s : State) (unit slot : Nat) (h : Keeps r s) :
    Keeps r (State.dropTlb s unit slot) := by
  unfold State.dropTlb
  (try dsimp only)
  repeat' first
    | with_reducible exact h
    | with_reducible assumption
    | with_reducible apply Keeps.ite
    | with_reducible apply Keeps.ite1
    | with_reducible apply Keeps.ite2
    | (with_reducible refine Keeps.foldl ?_ ?_)
    | intro _ _ _
    | intro _ _
    | fail_if_no_progress (with_reducible refine Keeps.lit ?_ rfl rfl rfl rfl rfl)

theorem execTlbInvalidationAck_keeps {r : State} (unit : Fin 20) (slot : Fin 4096) (s : State) (h : Keeps r s) :
    OutKeeps r (execTlbInvalidationAck unit slot s) := by
  unfold execTlbInvalidationAck
  (try dsimp only)
  repeat' first
    | with_reducible exact h
    | with_reducible assumption
    | with_reducible apply State.dropTlb_keeps
    | with_reducible apply State.modSeq_keeps
    | with_reducible apply State.afterAck_keeps
    | with_reducible apply State.runBuilds_keeps
    | with_reducible apply OutKeeps.ite
    | with_reducible apply OutKeeps.next

theorem execCopyOnWriteDone_keeps {r : State} (slot : Fin 4096) (s : State) (h : Keeps r s) :
    OutKeeps r (execCopyOnWriteDone slot s) := by
  unfold execCopyOnWriteDone
  (try dsimp only)
  repeat' first
    | with_reducible exact h
    | with_reducible assumption
    | with_reducible apply State.finishCopies_keeps
    | with_reducible apply State.boundary_keeps
    | with_reducible apply OutKeeps.ite
    | with_reducible apply OutKeeps.next

theorem State.finishSwap_keeps {r : State} (s : State) (slot : Nat) (out : Bool) (h : Keeps r s) :
    Keeps r (State.finishSwap s slot out) := by
  unfold State.finishSwap
  (try dsimp only)
  repeat' first
    | with_reducible exact h
    | with_reducible assumption
    | with_reducible apply State.finishCopies_keeps
    | with_reducible apply State.grantDma_keeps
    | with_reducible apply Keeps.ite

theorem execSwapOutCopyDone_keeps {r : State} (slot : Fin 4096) (s : State) (h : Keeps r s) :
    OutKeeps r (execSwapOutCopyDone slot s) := by
  unfold execSwapOutCopyDone
  (try dsimp only)
  repeat' first
    | with_reducible exact h
    | with_reducible assumption
    | with_reducible apply State.finishSwap_keeps
    | with_reducible apply OutKeeps.ite
    | with_reducible apply OutKeeps.next

theorem execSwapInCopyDone_keeps {r : State} (slot : Fin 4096) (s : State) (h : Keeps r s) :
    OutKeeps r (execSwapInCopyDone slot s) := by
  unfold execSwapInCopyDone
  (try dsimp only)
  repeat' first
    | with_reducible exact h
    | with_reducible assumption
    | with_reducible apply State.finishSwap_keeps
    | with_reducible apply OutKeeps.ite
    | with_reducible apply OutKeeps.next

theorem State.reissueSteps_keeps {r : State} (s : State) (h : Keeps r s) :
    Keeps r (State.reissueSteps s) := by
  unfold State.reissueSteps
  (try dsimp only)
  repeat' first
    | with_reducible exact h
    | with_reducible assumption
    | with_reducible apply State.leaveSpire_keeps
    | with_reducible apply State.modJob_keeps
    | with_reducible apply State.freshMarks_keeps
    | with_reducible apply Keeps.ite
    | (with_reducible refine Keeps.foldl ?_ ?_)
    | intro _ _ _

theorem State.sqPush_keeps {r : State} (s : State) (q : QueueId) (w : W64) (h : Keeps r s) :
    Keeps r (State.sqPush s q w) := by
  unfold State.sqPush
  (try dsimp only)
  repeat' first
    | with_reducible exact h
    | with_reducible assumption
    | with_reducible apply State.pushGroup_keeps
    | with_reducible apply State.msix_keeps
    | with_reducible apply State.setQ_keeps
    | with_reducible apply Keeps.ite
    | with_reducible apply Keeps.ite1
    | with_reducible apply Keeps.ite2
    | intro _ _ _
    | intro _ _
    | fail_if_no_progress (with_reducible refine Keeps.lit ?_ rfl rfl rfl rfl rfl)
    | split

theorem execSqPush_keeps {r : State} (q : QueueId) (payload : BitVec 62) (poison : Bool) (s : State) (h : Keeps r s) :
    OutKeeps r (execSqPush q payload poison s) := by
  unfold execSqPush
  repeat' first
    | with_reducible exact h
    | with_reducible assumption
    | with_reducible apply State.sqPush_keeps
    | with_reducible apply OutKeeps.next

theorem execSqStalledPushAccept_keeps {r : State} (q : QueueId) (s : State) (h : Keeps r s) :
    OutKeeps r (execSqStalledPushAccept q s) := by
  unfold execSqStalledPushAccept
  (try dsimp only)
  repeat' first
    | with_reducible exact h
    | with_reducible assumption
    | with_reducible apply State.setQ_keeps
    | with_reducible apply OutKeeps.ite
    | with_reducible apply OutKeeps.next
    | with_reducible apply Keeps.ite
    | with_reducible apply Keeps.ite1
    | with_reducible apply Keeps.ite2
    | intro _ _ _
    | intro _ _
    | fail_if_no_progress (with_reducible refine Keeps.lit ?_ rfl rfl rfl rfl rfl)
    | split

theorem State.takeHead_keeps {r : State} (s : State) (q : QueueId) (w : W64) (bp : Bool) (h : Keeps r s) :
    Keeps r (State.takeHead s q w bp) := by
  unfold State.takeHead
  (try dsimp only)
  repeat' first
    | with_reducible exact h
    | with_reducible assumption
    | with_reducible apply State.setQ_keeps
    | with_reducible apply State.settle_keeps
    | with_reducible apply State.record_keeps
    | with_reducible apply Keeps.ite

theorem State.popHead_keeps {r : State} (s : State) (q : QueueId) (flip : W64) (h : Keeps r s) :
    Keeps r (State.popHead s q flip) := by
  unfold State.popHead
  (try dsimp only)
  repeat' first
    | with_reducible exact h
    | with_reducible assumption
    | with_reducible apply State.flip_keeps
    | with_reducible apply State.takeHead_keeps
    | with_reducible apply State.answer_keeps
    | intro _ _ _
    | intro _ _
    | fail_if_no_progress (with_reducible refine Keeps.lit ?_ rfl rfl rfl rfl rfl)
    | split

theorem State.popEmpty_keeps {r : State} (s : State) (q : QueueId) (h : Keeps r s) :
    Keeps r (State.popEmpty s q) := by
  unfold State.popEmpty
  (try dsimp only)
  repeat' first
    | with_reducible exact h
    | with_reducible assumption
    | with_reducible apply State.answer_keeps
    | intro _ _ _
    | intro _ _
    | fail_if_no_progress (with_reducible refine Keeps.lit ?_ rfl rfl rfl rfl rfl)
    | split

theorem execSqPop_keeps {r : State} (q : QueueId) (wide : Bool) (flip : W64) (s : State) (h : Keeps r s) :
    OutKeeps r (execSqPop q wide flip s) := by
  unfold execSqPop
  (try dsimp only)
  repeat' first
    | with_reducible exact h
    | with_reducible assumption
    | with_reducible apply State.answer_keeps
    | with_reducible apply State.settle_keeps
    | with_reducible apply State.setQ_keeps
    | with_reducible apply State.popHead_keeps
    | with_reducible apply State.flip_keeps
    | with_reducible apply State.popEmpty_keeps
    | with_reducible apply OutKeeps.ite
    | with_reducible apply OutKeeps.next

theorem State.serveWaiting_keeps {r : State} : ∀ (x0 : Nat) (q : QueueId) (s : State) (_ : Keeps r s), Keeps r (State.serveWaiting s q x0)
  | 0, q, s, h => by
    unfold State.serveWaiting
    repeat' first
      | with_reducible exact h
  | n + 1, q, s, h => by
    unfold State.serveWaiting
    (try dsimp only)
    repeat' first
      | with_reducible exact h
      | with_reducible assumption
      | with_reducible apply State.serveWaiting_keeps
      | with_reducible apply State.setQ_keeps
      | with_reducible apply State.popHead_keeps
      | with_reducible apply Keeps.ite

theorem execSqRefillDone_keeps {r : State} (q : QueueId) (poison : List Nat) (s : State) (h : Keeps r s) :
    OutKeeps r (execSqRefillDone q poison s) := by
  unfold execSqRefillDone
  (try dsimp only)
  repeat' first
    | with_reducible exact h
    | with_reducible assumption
    | with_reducible apply State.setQ_keeps
    | with_reducible apply State.settle_keeps
    | with_reducible apply State.serveWaiting_keeps
    | with_reducible apply OutKeeps.ite
    | with_reducible apply OutKeeps.next

theorem execSqDroppedRead_keeps {r : State} (q : QueueId) (s : State) (h : Keeps r s) :
    OutKeeps r (execSqDroppedRead q s) := by
  unfold execSqDroppedRead
  (try dsimp only)
  repeat' first
    | with_reducible exact h
    | with_reducible assumption
    | with_reducible apply State.setQ_keeps
    | with_reducible apply State.answer_keeps
    | with_reducible apply OutKeeps.next

theorem State.sqCtrl_keeps {r : State} (s : State) (q : QueueId) (v : W64) (h : Keeps r s) :
    Keeps r (State.sqCtrl s q v) := by
  unfold State.sqCtrl
  (try dsimp only)
  repeat' first
    | with_reducible exact h
    | with_reducible assumption
    | with_reducible apply State.setQ_keeps
    | with_reducible apply Keeps.ite

theorem execSqCtrlWrite_keeps {r : State} (q : QueueId) (v : W64) (s : State) (h : Keeps r s) :
    OutKeeps r (execSqCtrlWrite q v s) := by
  unfold execSqCtrlWrite
  repeat' first
    | with_reducible exact h
    | with_reducible assumption
    | with_reducible apply State.sqCtrl_keeps
    | with_reducible apply OutKeeps.next

theorem State.sqConfig_keeps {r : State} (s : State) (q : QueueId) (isSize : Bool) (v : W64) (h : Keeps r s) :
    Keeps r (State.sqConfig s q isSize v) := by
  unfold State.sqConfig
  (try dsimp only)
  repeat' first
    | with_reducible exact h
    | with_reducible assumption
    | with_reducible apply State.setQ_keeps
    | with_reducible apply Keeps.ite

theorem execSqConfigWrite_keeps {r : State} (q : QueueId) (isSize : Bool) (v : W64) (s : State) (h : Keeps r s) :
    OutKeeps r (execSqConfigWrite q isSize v s) := by
  unfold execSqConfigWrite
  repeat' first
    | with_reducible exact h
    | with_reducible assumption
    | with_reducible apply State.sqConfig_keeps
    | with_reducible apply OutKeeps.next

theorem State.sqStatus_keeps {r : State} (s : State) (q : QueueId) (v : W64) (h : Keeps r s) :
    Keeps r (State.sqStatus s q v) := by
  unfold State.sqStatus
  (try dsimp only)
  repeat' first
    | with_reducible exact h
    | with_reducible assumption
    | with_reducible apply State.setQ_keeps

theorem State.evqIrq_keeps {r : State} (s : State) (ep : Nat) (v : W64) (h : Keeps r s) :
    Keeps r (State.evqIrq s ep v) := by
  unfold State.evqIrq
  (try dsimp only)
  repeat' first
    | with_reducible exact h
    | with_reducible assumption
    | with_reducible apply Keeps.ite
    | intro _ _ _
    | intro _ _
    | fail_if_no_progress (with_reducible refine Keeps.lit ?_ rfl rfl rfl rfl rfl)

theorem execEvqIrqWrite_keeps {r : State} (ep : Fin 2) (v : W64) (s : State) (h : Keeps r s) :
    OutKeeps r (execEvqIrqWrite ep v s) := by
  unfold execEvqIrqWrite
  repeat' first
    | with_reducible exact h
    | with_reducible assumption
    | with_reducible apply State.evqIrq_keeps
    | with_reducible apply OutKeeps.next

theorem execEvqHoldoffExpiry_keeps {r : State} (s : State) (h : Keeps r s) :
    OutKeeps r (execEvqHoldoffExpiry s) := by
  unfold execEvqHoldoffExpiry
  repeat' first
    | with_reducible exact h
    | with_reducible assumption
    | with_reducible apply State.elapseTo_keeps
    | with_reducible apply State.fireIrq_keeps
    | with_reducible apply OutKeeps.ite
    | with_reducible apply OutKeeps.next
    | with_reducible apply Keeps.ite
    | with_reducible apply Keeps.ite1
    | with_reducible apply Keeps.ite2
    | intro _ _ _
    | intro _ _
    | fail_if_no_progress (with_reducible refine Keeps.lit ?_ rfl rfl rfl rfl rfl)
    | split

theorem State.modEng_keeps {r : State} (s : State) (e : Nat) (f : Engine → Engine) (h : Keeps r s) :
    Keeps r (State.modEng s e f) := by
  unfold State.modEng
  (try dsimp only)
  repeat' first
    | with_reducible exact h
    | with_reducible assumption
    | intro _ _ _
    | intro _ _
    | fail_if_no_progress (with_reducible refine Keeps.lit ?_ rfl rfl rfl rfl rfl)

theorem State.modSearch_keeps {r : State} (s : State) (e : Nat) (f : Search → Search) (h : Keeps r s) :
    Keeps r (State.modSearch s e f) := by
  unfold State.modSearch
  repeat' first
    | with_reducible exact h
    | with_reducible assumption
    | with_reducible apply State.modEng_keeps

theorem planRequestBody_keeps {r : State} (c : Ctx) (s : State) (h : Keeps r s) :
    LmpKeeps r (planRequestBody c s) := by
  unfold planRequestBody
  (try dsimp only)
  repeat' first
    | with_reducible exact h
    | with_reducible assumption
    | with_reducible apply State.modEng_keeps
    | with_reducible apply LmpKeeps.checked
    | with_reducible apply LmpKeeps.wait
    | with_reducible apply LmpKeeps.done
    | with_reducible apply LmpKeeps.ite
    | with_reducible apply Keeps.ite
    | with_reducible apply Keeps.ite1
    | with_reducible apply Keeps.ite2
    | intro _ _ _
    | intro _ _
    | fail_if_no_progress (with_reducible refine Keeps.lit ?_ rfl rfl rfl rfl rfl)
    | split

theorem execPlanRequest_keeps {r : State} (m : Fin 64) (s : State) (h : Keeps r s) :
    OutKeeps r (execPlanRequest m s) := by
  unfold execPlanRequest
  repeat' first
    | with_reducible exact h
    | with_reducible assumption
    | with_reducible apply State.lmp_keeps
    | with_reducible apply planRequestBody_keeps
    | with_reducible apply OutKeeps.next

theorem State.prunePriors_keeps {r : State} (s : State) (h : Keeps r s) :
    Keeps r (State.prunePriors s) := by
  unfold State.prunePriors
  (try dsimp only)
  repeat' first
    | with_reducible exact h
    | with_reducible assumption
    | with_reducible apply State.modEng_keeps
    | (with_reducible refine Keeps.foldl ?_ ?_)
    | intro _ _ _

theorem State.endPlanId_keeps {r : State} (s : State) (id : Nat) (h : Keeps r s) :
    Keeps r (State.endPlanId s id) := by
  unfold State.endPlanId
  (try dsimp only)
  repeat' first
    | with_reducible exact h
    | with_reducible assumption
    | intro _ _ _
    | intro _ _
    | fail_if_no_progress (with_reducible refine Keeps.lit ?_ rfl rfl rfl rfl rfl)

theorem State.dropBatches_keeps {r : State} (s : State) (e : Nat) (h : Keeps r s) :
    Keeps r (State.dropBatches s e) := by
  unfold State.dropBatches
  repeat' first
    | with_reducible exact h
    | with_reducible assumption
    | with_reducible apply State.fail_keeps
    | with_reducible apply State.modJob_keeps
    | (with_reducible refine Keeps.foldl ?_ ?_)
    | intro _ _ _
    | intro _ _
    | fail_if_no_progress (with_reducible refine Keeps.lit ?_ rfl rfl rfl rfl rfl)
    | split

theorem State.dropSearch_keeps {r : State} (s : State) (e id : Nat) (h : Keeps r s) :
    Keeps r (State.dropSearch s e id) := by
  unfold State.dropSearch
  repeat' first
    | with_reducible exact h
    | with_reducible assumption
    | with_reducible apply State.dropBatches_keeps
    | with_reducible apply State.modEng_keeps
    | with_reducible apply State.endPlanId_keeps
    | with_reducible apply State.prunePriors_keeps

theorem planCancelBody_keeps {r : State} (c : Ctx) (s : State) (h : Keeps r s) :
    LmpKeeps r (planCancelBody c s) := by
  unfold planCancelBody
  (try dsimp only)
  repeat' first
    | with_reducible exact h
    | with_reducible assumption
    | with_reducible apply State.dropSearch_keeps
    | with_reducible apply State.modEng_keeps
    | with_reducible apply State.endPlanId_keeps
    | with_reducible apply LmpKeeps.checked
    | with_reducible apply LmpKeeps.wait
    | with_reducible apply LmpKeeps.done
    | with_reducible apply LmpKeeps.ite
    | with_reducible apply Keeps.ite
    | with_reducible apply Keeps.ite1
    | with_reducible apply Keeps.ite2
    | intro _ _ _
    | intro _ _
    | fail_if_no_progress (with_reducible refine Keeps.lit ?_ rfl rfl rfl rfl rfl)
    | split

theorem execPlanCancel_keeps {r : State} (m : Fin 64) (s : State) (h : Keeps r s) :
    OutKeeps r (execPlanCancel m s) := by
  unfold execPlanCancel
  repeat' first
    | with_reducible exact h
    | with_reducible assumption
    | with_reducible apply State.lmp_keeps
    | with_reducible apply planCancelBody_keeps
    | with_reducible apply OutKeeps.next

theorem worldUpdateBody_keeps {r : State} (c : Ctx) (s : State) (h : Keeps r s) :
    LmpKeeps r (worldUpdateBody c s) := by
  unfold worldUpdateBody
  (try dsimp only)
  repeat' first
    | with_reducible exact h
    | with_reducible assumption
    | with_reducible apply State.modEng_keeps
    | with_reducible apply LmpKeeps.checked
    | with_reducible apply LmpKeeps.wait
    | with_reducible apply LmpKeeps.done
    | with_reducible apply LmpKeeps.ite
    | with_reducible apply Keeps.ite
    | with_reducible apply Keeps.ite1
    | with_reducible apply Keeps.ite2
    | (with_reducible refine Keeps.foldl ?_ ?_)
    | intro _ _ _
    | intro _ _
    | fail_if_no_progress (with_reducible refine Keeps.lit ?_ rfl rfl rfl rfl rfl)
    | split

theorem execWorldUpdate_keeps {r : State} (m : Fin 64) (s : State) (h : Keeps r s) :
    OutKeeps r (execWorldUpdate m s) := by
  unfold execWorldUpdate
  repeat' first
    | with_reducible exact h
    | with_reducible assumption
    | with_reducible apply State.lmp_keeps
    | with_reducible apply shared_keeps
    | with_reducible apply worldUpdateBody_keeps
    | with_reducible apply OutKeeps.next
    | intro _ _ _

theorem State.worldDone_keeps {r : State} (s : State) (h : Keeps r s) :
    Keeps r (State.worldDone s) := by
  unfold State.worldDone
  repeat' first
    | with_reducible exact h
    | with_reducible assumption
    | with_reducible apply State.complete_keeps
    | with_reducible apply Keeps.ite
    | with_reducible apply Keeps.ite1
    | with_reducible apply Keeps.ite2
    | (with_reducible refine Keeps.foldl ?_ ?_)
    | intro _ _ _
    | intro _ _
    | fail_if_no_progress (with_reducible refine Keeps.lit ?_ rfl rfl rfl rfl rfl)
    | split

theorem State.peDisagree_keeps {r : State} (s : State) (e : Nat) (h : Keeps r s) :
    Keeps r (State.peDisagree s e) := by
  unfold State.peDisagree
  (try dsimp only)
  repeat' first
    | with_reducible exact h
    | with_reducible assumption
    | with_reducible apply State.record_keeps
    | with_reducible apply State.modSearch_keeps
    | with_reducible apply State.degrade_keeps
    | with_reducible apply Keeps.ite
    | (with_reducible refine Keeps.foldl ?_ ?_)
    | intro _ _ _
    | intro _ _
    | fail_if_no_progress (with_reducible refine Keeps.lit ?_ rfl rfl rfl rfl rfl)

theorem execPlanSearchStart_keeps {r : State} (v : EngineEvent) (s : State) (h : Keeps r s) :
    OutKeeps r (execPlanSearchStart v s) := by
  unfold execPlanSearchStart
  (try dsimp only)
  repeat' first
    | with_reducible exact h
    | with_reducible assumption
    | with_reducible apply State.modEng_keeps
    | with_reducible apply State.peDisagree_keeps
    | with_reducible apply OutKeeps.ite
    | with_reducible apply OutKeeps.next
    | with_reducible apply Keeps.ite
    | with_reducible apply Keeps.ite1
    | with_reducible apply Keeps.ite2
    | intro _ _ _
    | intro _ _
    | fail_if_no_progress (with_reducible refine Keeps.lit ?_ rfl rfl rfl rfl rfl)
    | split

theorem State.endSearch_keeps {r : State} (s : State) (e cause : Nat) (h : Keeps r s) :
    Keeps r (State.endSearch s e cause) := by
  unfold State.endSearch
  (try dsimp only)
  repeat' first
    | with_reducible exact h
    | with_reducible assumption
    | with_reducible apply State.dropBatches_keeps
    | with_reducible apply State.modSearch_keeps
    | with_reducible apply State.prunePriors_keeps
    | intro _ _ _
    | intro _ _
    | fail_if_no_progress (with_reducible refine Keeps.lit ?_ rfl rfl rfl rfl rfl)
    | split

theorem execWorldUpdateApply_keeps {r : State} (e : Fin 2) (s : State) (h : Keeps r s) :
    OutKeeps r (execWorldUpdateApply e s) := by
  unfold execWorldUpdateApply
  (try dsimp only)
  repeat' first
    | with_reducible exact h
    | with_reducible assumption
    | with_reducible apply State.modEng_keeps
    | with_reducible apply State.modSearch_keeps
    | with_reducible apply State.endSearch_keeps
    | with_reducible apply State.worldDone_keeps
    | with_reducible apply OutKeeps.ite
    | with_reducible apply OutKeeps.next
    | with_reducible apply Keeps.ite
    | with_reducible apply Keeps.ite1
    | with_reducible apply Keeps.ite2
    | intro _ _ _
    | intro _ _
    | fail_if_no_progress (with_reducible refine Keeps.lit ?_ rfl rfl rfl rfl rfl)
    | split

theorem State.sendBatch_keeps {r : State} (s : State) (e : Nat) (c : Search) (b : Nat) (h : Keeps r s) :
    Keeps r (State.sendBatch s e c b) := by
  unfold State.sendBatch
  (try dsimp only)
  repeat' first
    | with_reducible exact h
    | with_reducible assumption
    | with_reducible apply State.wr_keeps
    | with_reducible apply State.modJob_keeps
    | with_reducible apply State.modEng_keeps
    | (with_reducible refine Keeps.foldl ?_ ?_)
    | intro _ _ _
    | intro _ _
    | fail_if_no_progress (with_reducible refine Keeps.lit ?_ rfl rfl rfl rfl rfl)

theorem execProposerBatchSend_keeps {r : State} (e : Fin 2) (s : State) (h : Keeps r s) :
    OutKeeps r (execProposerBatchSend e s) := by
  unfold execProposerBatchSend
  repeat' first
    | with_reducible exact h
    | with_reducible assumption
    | with_reducible apply State.sendBatch_keeps
    | with_reducible apply State.modEng_keeps
    | with_reducible apply State.endSearch_keeps
    | with_reducible apply OutKeeps.ite
    | with_reducible apply OutKeeps.next
    | with_reducible apply Keeps.ite
    | with_reducible apply Keeps.ite1
    | with_reducible apply Keeps.ite2
    | intro _ _ _
    | intro _ _
    | fail_if_no_progress (with_reducible refine Keeps.lit ?_ rfl rfl rfl rfl rfl)
    | split

theorem execProposerComplete_keeps {r : State} (e : Fin 2) (fault : Bool) (s : State) (h : Keeps r s) :
    OutKeeps r (execProposerComplete e fault s) := by
  unfold execProposerComplete
  (try dsimp only)
  repeat' first
    | with_reducible exact h
    | with_reducible assumption
    | with_reducible apply State.fail_keeps
    | with_reducible apply State.modJob_keeps
    | with_reducible apply State.modSearch_keeps
    | with_reducible apply State.endSearch_keeps
    | with_reducible apply OutKeeps.ite
    | with_reducible apply OutKeeps.next
    | with_reducible apply Keeps.ite
    | with_reducible apply Keeps.ite1
    | with_reducible apply Keeps.ite2
    | intro _ _ _
    | intro _ _
    | fail_if_no_progress (with_reducible refine Keeps.lit ?_ rfl rfl rfl rfl rfl)
    | split

theorem execCandidateCheckDone_keeps {r : State} (e : Fin 2) (otherDiffers : Bool) (s : State) (h : Keeps r s) :
    OutKeeps r (execCandidateCheckDone e otherDiffers s) := by
  unfold execCandidateCheckDone
  (try dsimp only)
  repeat' first
    | with_reducible exact h
    | with_reducible assumption
    | with_reducible apply State.draw_keeps
    | with_reducible apply State.peDisagree_keeps
    | with_reducible apply State.modSearch_keeps
    | with_reducible apply OutKeeps.ite
    | with_reducible apply OutKeeps.next
    | with_reducible apply Keeps.ite
    | with_reducible apply Keeps.ite1
    | with_reducible apply Keeps.ite2
    | intro _ _ _
    | intro _ _
    | fail_if_no_progress (with_reducible refine Keeps.lit ?_ rfl rfl rfl rfl rfl)
    | split

theorem execPlanDeadline_keeps {r : State} (e : Fin 2) (s : State) (h : Keeps r s) :
    OutKeeps r (execPlanDeadline e s) := by
  unfold execPlanDeadline
  (try dsimp only)
  repeat' first
    | with_reducible exact h
    | with_reducible assumption
    | with_reducible apply State.elapseTo_keeps
    | with_reducible apply State.endSearch_keeps
    | with_reducible apply OutKeeps.ite
    | with_reducible apply OutKeeps.next
    | with_reducible apply Keeps.ite
    | with_reducible apply Keeps.ite1
    | with_reducible apply Keeps.ite2
    | intro _ _ _
    | intro _ _
    | fail_if_no_progress (with_reducible refine Keeps.lit ?_ rfl rfl rfl rfl rfl)
    | split

theorem execPathRecheckDone_keeps {r : State} (v : EngineEvent) (s : State) (h : Keeps r s) :
    OutKeeps r (execPathRecheckDone v s) := by
  unfold execPathRecheckDone
  (try dsimp only)
  repeat' first
    | with_reducible exact h
    | with_reducible assumption
    | with_reducible apply State.peDisagree_keeps
    | with_reducible apply State.modSearch_keeps
    | with_reducible apply OutKeeps.ite
    | with_reducible apply OutKeeps.next
    | with_reducible apply Keeps.ite
    | with_reducible apply Keeps.ite1
    | with_reducible apply Keeps.ite2
    | intro _ _ _
    | intro _ _
    | fail_if_no_progress (with_reducible refine Keeps.lit ?_ rfl rfl rfl rfl rfl)
    | split

theorem execPublishRound_keeps {r : State} (v : EngineEvent) (s : State) (h : Keeps r s) :
    OutKeeps r (execPublishRound v s) := by
  unfold execPublishRound
  (try dsimp only)
  repeat' first
    | with_reducible exact h
    | with_reducible assumption
    | with_reducible apply State.peDisagree_keeps
    | with_reducible apply State.modSearch_keeps
    | with_reducible apply OutKeeps.ite
    | with_reducible apply OutKeeps.next
    | with_reducible apply Keeps.ite
    | with_reducible apply Keeps.ite1
    | with_reducible apply Keeps.ite2
    | intro _ _ _
    | intro _ _
    | fail_if_no_progress (with_reducible refine Keeps.lit ?_ rfl rfl rfl rfl rfl)
    | split

theorem State.writeResult_keeps {r : State} (s : State) (e : Nat) (c : Search) (status pre : Nat) (ps : List (List W64)) (h : Keeps r s) :
    Keeps r (State.writeResult s e c status pre ps) := by
  unfold State.writeResult
  (try dsimp only)
  repeat' first
    | with_reducible exact h
    | with_reducible assumption
    | with_reducible apply State.wr_keeps
    | with_reducible apply State.modSearch_keeps
    | with_reducible apply State.prunePriors_keeps

theorem execPublishLocked_keeps {r : State} (v : EngineEvent) (s : State) (h : Keeps r s) :
    OutKeeps r (execPublishLocked v s) := by
  unfold execPublishLocked
  (try dsimp only)
  repeat' first
    | with_reducible exact h
    | with_reducible assumption
    | with_reducible apply State.peDisagree_keeps
    | with_reducible apply State.modEng_keeps
    | with_reducible apply State.writeResult_keeps
    | with_reducible apply State.draw_keeps
    | with_reducible apply OutKeeps.ite
    | with_reducible apply OutKeeps.next
    | with_reducible apply Keeps.ite
    | with_reducible apply Keeps.ite1
    | with_reducible apply Keeps.ite2
    | intro _ _ _
    | intro _ _
    | fail_if_no_progress (with_reducible refine Keeps.lit ?_ rfl rfl rfl rfl rfl)
    | split

theorem State.passResults_keeps {r : State} : ∀ (x0 : Nat) (e : Fin 2) (s : State) (_ : Keeps r s), Keeps r (State.passResults s e x0)
  | 0, e, s, h => by
    unfold State.passResults
    repeat' first
      | with_reducible exact h
  | n + 1, e, s, h => by
    unfold State.passResults
    repeat' first
      | with_reducible exact h
      | with_reducible assumption
      | with_reducible apply State.passResults_keeps
      | with_reducible apply State.takeHead_keeps
      | with_reducible apply State.pushGroup_keeps
      | intro _ _ _
      | intro _ _
      | fail_if_no_progress (with_reducible refine Keeps.lit ?_ rfl rfl rfl rfl rfl)
      | split

theorem State.resultsDone_keeps {r : State} (s : State) (e : Fin 2) (h : Keeps r s) :
    Keeps r (State.resultsDone s e) := by
  unfold State.resultsDone
  repeat' first
    | with_reducible exact h
    | with_reducible assumption
    | with_reducible apply State.modEng_keeps
    | with_reducible apply State.endPlanId_keeps
    | with_reducible apply Keeps.ite
    | with_reducible apply Keeps.ite1
    | with_reducible apply Keeps.ite2
    | intro _ _ _
    | intro _ _
    | fail_if_no_progress (with_reducible refine Keeps.lit ?_ rfl rfl rfl rfl rfl)
    | split

theorem execResultPublished_keeps {r : State} (e : Fin 2) (s : State) (h : Keeps r s) :
    OutKeeps r (execResultPublished e s) := by
  unfold execResultPublished
  (try dsimp only)
  repeat' first
    | with_reducible exact h
    | with_reducible assumption
    | with_reducible apply State.setQ_keeps
    | with_reducible apply State.modSearch_keeps
    | with_reducible apply State.passResults_keeps
    | with_reducible apply State.resultsDone_keeps
    | with_reducible apply OutKeeps.ite
    | with_reducible apply OutKeeps.next
    | with_reducible apply Keeps.ite
    | with_reducible apply Keeps.ite1
    | with_reducible apply Keeps.ite2
    | intro _ _ _
    | intro _ _
    | fail_if_no_progress (with_reducible refine Keeps.lit ?_ rfl rfl rfl rfl rfl)
    | split

theorem State.engineQuarantine_keeps {r : State} (s : State) (e : Nat) (h : Keeps r s) :
    Keeps r (State.engineQuarantine s e) := by
  unfold State.engineQuarantine
  (try dsimp only)
  repeat' first
    | with_reducible exact h
    | with_reducible assumption
    | with_reducible apply State.record_keeps
    | with_reducible apply State.dropBatches_keeps
    | with_reducible apply State.post_keeps
    | with_reducible apply State.endPlanId_keeps
    | with_reducible apply State.modEng_keeps
    | with_reducible apply State.prunePriors_keeps
    | with_reducible apply State.worldDone_keeps
    | with_reducible apply Keeps.ite
    | with_reducible apply Keeps.ite1
    | with_reducible apply Keeps.ite2
    | (with_reducible refine Keeps.foldl ?_ ?_)
    | intro _ _ _
    | intro _ _
    | fail_if_no_progress (with_reducible refine Keeps.lit ?_ rfl rfl rfl rfl rfl)

theorem State.searchParity_keeps {r : State} (s : State) (e : Nat) (h : Keeps r s) :
    Keeps r (State.searchParity s e) := by
  unfold State.searchParity
  (try dsimp only)
  repeat' first
    | with_reducible exact h
    | with_reducible assumption
    | with_reducible apply State.record_keeps
    | with_reducible apply State.modSearch_keeps
    | with_reducible apply State.endSearch_keeps
    | intro _ _ _
    | intro _ _
    | fail_if_no_progress (with_reducible refine Keeps.lit ?_ rfl rfl rfl rfl rfl)
    | split

end Sys2Proof.Machine
end

