-- ==== Sys2Proof/Laws/KeepsCommands.lean ====
section
/-! SUPPORT. What each operation keeps (Sys2Proof/Laws/Keeps.lean): time, reactions, records, gathers, administration, images, launches, keys. -/

namespace Sys2Proof.Machine

theorem State.ctcStatusWrite_keeps {r : State} (s : State) (v : W64) (h : Keeps r s) :
    Keeps r (State.ctcStatusWrite s v) := by
  unfold State.ctcStatusWrite
  (try dsimp only)
  repeat' first
    | with_reducible exact h
    | with_reducible assumption
    | intro _ _ _
    | intro _ _
    | fail_if_no_progress (with_reducible refine Keeps.lit ?_ rfl rfl rfl rfl rfl)

theorem execCtcLowRead_keeps {r : State} (ep : Fin 2) (s : State) (h : Keeps r s) :
    OutKeeps r (execCtcLowRead ep s) := by
  unfold execCtcLowRead
  (try dsimp only)
  repeat' first
    | with_reducible exact h
    | with_reducible assumption
    | with_reducible apply State.answer_keeps
    | with_reducible apply OutKeeps.next
    | intro _ _ _
    | intro _ _
    | fail_if_no_progress (with_reducible refine Keeps.lit ?_ rfl rfl rfl rfl rfl)

theorem State.stepCtc_keeps {r : State} (s : State) (v : Nat) (h : Keeps r s) :
    Keeps r (State.stepCtc s v) := by
  unfold State.stepCtc
  (try dsimp only)
  repeat' first
    | with_reducible exact h
    | with_reducible assumption
    | intro _ _ _
    | intro _ _
    | fail_if_no_progress (with_reducible refine Keeps.lit ?_ rfl rfl rfl rfl rfl)

theorem State.steer_keeps {r : State} (s : State) (e : Int) (h : Keeps r s) :
    Keeps r (State.steer s e) := by
  unfold State.steer
  (try dsimp only)
  repeat' first
    | with_reducible exact h
    | with_reducible assumption
    | with_reducible apply State.draw_keeps
    | with_reducible apply Keeps.ite
    | with_reducible apply Keeps.ite1
    | with_reducible apply Keeps.ite2
    | intro _ _ _
    | intro _ _
    | fail_if_no_progress (with_reducible refine Keeps.lit ?_ rfl rfl rfl rfl rfl)

theorem execSyncInEdge_keeps {r : State} (dt : Nat) (s : State) (h : Keeps r s) :
    OutKeeps r (execSyncInEdge dt s) := by
  unfold execSyncInEdge
  (try dsimp only)
  repeat' first
    | with_reducible exact h
    | with_reducible assumption
    | with_reducible apply State.elapse_keeps
    | with_reducible apply State.steer_keeps
    | with_reducible apply OutKeeps.ite
    | with_reducible apply OutKeeps.next
    | with_reducible apply Keeps.ite
    | intro _ _ _
    | intro _ _
    | fail_if_no_progress (with_reducible refine Keeps.lit ?_ rfl rfl rfl rfl rfl)

theorem execSyncMissed_keeps {r : State} (s : State) (h : Keeps r s) :
    OutKeeps r (execSyncMissed s) := by
  unfold execSyncMissed
  (try dsimp only)
  repeat' first
    | with_reducible exact h
    | with_reducible assumption
    | with_reducible apply State.elapse_keeps
    | with_reducible apply OutKeeps.ite
    | with_reducible apply OutKeeps.next
    | with_reducible apply Keeps.ite
    | with_reducible apply Keeps.ite1
    | with_reducible apply Keeps.ite2
    | intro _ _ _
    | intro _ _
    | fail_if_no_progress (with_reducible refine Keeps.lit ?_ rfl rfl rfl rfl rfl)
    | split

theorem execHoldover_keeps {r : State} (s : State) (h : Keeps r s) :
    OutKeeps r (execHoldover s) := by
  unfold execHoldover
  (try dsimp only)
  repeat' first
    | with_reducible exact h
    | with_reducible assumption
    | with_reducible apply State.elapse_keeps
    | with_reducible apply OutKeeps.ite
    | with_reducible apply OutKeeps.next
    | with_reducible apply Keeps.ite
    | with_reducible apply Keeps.ite1
    | with_reducible apply Keeps.ite2
    | intro _ _ _
    | intro _ _
    | fail_if_no_progress (with_reducible refine Keeps.lit ?_ rfl rfl rfl rfl rfl)
    | split

theorem execTwinValidLoss_keeps {r : State} (s : State) (h : Keeps r s) :
    OutKeeps r (execTwinValidLoss s) := by
  unfold execTwinValidLoss
  (try dsimp only)
  repeat' first
    | with_reducible exact h
    | with_reducible assumption
    | with_reducible apply OutKeeps.ite
    | with_reducible apply OutKeeps.next
    | with_reducible apply Keeps.ite
    | intro _ _ _
    | intro _ _
    | fail_if_no_progress (with_reducible refine Keeps.lit ?_ rfl rfl rfl rfl rfl)

theorem timeSyncBody_keeps {r : State} (c : Ctx) (s : State) (h : Keeps r s) :
    LmpKeeps r (timeSyncBody c s) := by
  unfold timeSyncBody
  (try dsimp only)
  repeat' first
    | with_reducible exact h
    | with_reducible assumption
    | with_reducible apply State.stepCtc_keeps
    | with_reducible apply State.draw_keeps
    | with_reducible apply LmpKeeps.checked
    | with_reducible apply LmpKeeps.wait
    | with_reducible apply LmpKeeps.done
    | with_reducible apply LmpKeeps.ite
    | with_reducible apply Keeps.ite
    | with_reducible apply Keeps.ite1
    | with_reducible apply Keeps.ite2
    | intro _ _ _
    | intro _ _
    | fail_if_no_progress (with_reducible refine Keeps.lit ?_ rfl rfl rfl rfl rfl)
    | split

theorem execTimeSyncStep_keeps {r : State} (m : Fin 64) (s : State) (h : Keeps r s) :
    OutKeeps r (execTimeSyncStep m s) := by
  unfold execTimeSyncStep
  repeat' first
    | with_reducible exact h
    | with_reducible assumption
    | with_reducible apply State.lmp_keeps
    | with_reducible apply timeSyncBody_keeps
    | with_reducible apply OutKeeps.next

theorem execTimeSyncSlew_keeps {r : State} (m : Fin 64) (s : State) (h : Keeps r s) :
    OutKeeps r (execTimeSyncSlew m s) := by
  unfold execTimeSyncSlew
  repeat' first
    | with_reducible exact h
    | with_reducible assumption
    | with_reducible apply State.lmp_keeps
    | with_reducible apply timeSyncBody_keeps
    | with_reducible apply OutKeeps.next

theorem execSyncSet_keeps {r : State} (m : Fin 64) (s : State) (h : Keeps r s) :
    OutKeeps r (execSyncSet m s) := by
  unfold execSyncSet
  repeat' first
    | with_reducible exact h
    | with_reducible assumption
    | with_reducible apply State.lmp_keeps
    | with_reducible apply timeSyncBody_keeps
    | with_reducible apply OutKeeps.next

theorem State.loseCupola_keeps {r : State} (s : State) (side bit src : Nat) (h : Keeps r s) :
    Keeps r (State.loseCupola s side bit src) := by
  unfold State.loseCupola
  (try dsimp only)
  repeat' first
    | with_reducible exact h
    | with_reducible assumption
    | with_reducible apply State.record_keeps
    | with_reducible apply State.packageAll_keeps
    | with_reducible apply Keeps.ite
    | intro _ _ _
    | intro _ _
    | fail_if_no_progress (with_reducible refine Keeps.lit ?_ rfl rfl rfl rfl rfl)

theorem State.loseBuilder_keeps {r : State} (s : State) (side bit : Nat) (h : Keeps r s) :
    Keeps r (State.loseBuilder s side bit) := by
  unfold State.loseBuilder
  (try dsimp only)
  repeat' first
    | with_reducible exact h
    | with_reducible assumption
    | with_reducible apply State.record_keeps
    | with_reducible apply State.packageAll_keeps
    | with_reducible apply State.reissueSteps_keeps
    | with_reducible apply Keeps.ite
    | intro _ _ _
    | intro _ _
    | fail_if_no_progress (with_reducible refine Keeps.lit ?_ rfl rfl rfl rfl rfl)

theorem State.loseLantern_keeps {r : State} (s : State) (l bit detail : Nat) (h : Keeps r s) :
    Keeps r (State.loseLantern s l bit detail) := by
  unfold State.loseLantern
  repeat' first
    | with_reducible exact h
    | with_reducible assumption
    | with_reducible apply State.record_keeps
    | with_reducible apply State.lanternOut_keeps
    | with_reducible apply State.packageAll_keeps

theorem State.loseDome_keeps {r : State} (s : State) (d bit detail : Nat) (h : Keeps r s) :
    Keeps r (State.loseDome s d bit detail) := by
  unfold State.loseDome
  repeat' first
    | with_reducible exact h
    | with_reducible assumption
    | with_reducible apply State.record_keeps
    | with_reducible apply State.domeOutOfService_keeps

theorem State.losePort_keeps {r : State} (s : State) (port bit detail : Nat) (h : Keeps r s) :
    Keeps r (State.losePort s port bit detail) := by
  unfold State.losePort
  (try dsimp only)
  repeat' first
    | with_reducible exact h
    | with_reducible assumption
    | with_reducible apply State.record_keeps
    | intro _ _ _
    | intro _ _
    | fail_if_no_progress (with_reducible refine Keeps.lit ?_ rfl rfl rfl rfl rfl)

theorem State.openLevel_keeps {r : State} (s : State) (h : Keeps r s) :
    Keeps r (State.openLevel s).2 := by
  unfold State.openLevel
  (try dsimp only)
  repeat' first
    | with_reducible exact h
    | with_reducible assumption
    | with_reducible apply State.draw_keeps

theorem State.reactAt_keeps {r : State} (s : State) (level : Nat) (tower : Option Nat) (h : Keeps r s) :
    Keeps r (State.reactAt s level tower) := by
  unfold State.reactAt
  (try dsimp only)
  repeat' first
    | with_reducible exact h
    | with_reducible assumption
    | with_reducible apply State.packageAll_keeps
    | with_reducible apply State.towerQuarantine_keeps
    | with_reducible apply Keeps.ite
    | with_reducible apply Keeps.ite1
    | with_reducible apply Keeps.ite2
    | intro _ _ _
    | intro _ _
    | fail_if_no_progress (with_reducible refine Keeps.lit ?_ rfl rfl rfl rfl rfl)
    | split

theorem State.lockstep_keeps {r : State} (s : State) (src bit : Nat) (h : Keeps r s) :
    Keeps r (State.lockstep s src bit) := by
  unfold State.lockstep
  (try dsimp only)
  repeat' first
    | with_reducible exact h
    | with_reducible assumption
    | with_reducible apply State.modSpire_keeps
    | with_reducible apply State.loseDome_keeps
    | with_reducible apply State.record_keeps
    | with_reducible apply State.packageFrom_keeps
    | with_reducible apply State.loseCupola_keeps
    | with_reducible apply State.loseLantern_keeps
    | with_reducible apply State.engineQuarantine_keeps
    | with_reducible apply State.loseBuilder_keeps
    | with_reducible apply State.openLevel_keeps
    | with_reducible apply State.reactAt_keeps
    | with_reducible apply Keeps.ite

theorem execLockstepMismatch_keeps {r : State} (unit : DupUnit) (cfgParity : Bool) (s : State) (h : Keeps r s) :
    OutKeeps r (execLockstepMismatch unit cfgParity s) := by
  unfold execLockstepMismatch
  (try dsimp only)
  repeat' first
    | with_reducible exact h
    | with_reducible assumption
    | with_reducible apply State.record_keeps
    | with_reducible apply State.lockstep_keeps
    | with_reducible apply State.searchParity_keeps
    | with_reducible apply OutKeeps.ite
    | with_reducible apply OutKeeps.next
    | with_reducible apply Keeps.ite
    | with_reducible apply Keeps.ite1
    | with_reducible apply Keeps.ite2
    | intro _ _ _
    | intro _ _
    | fail_if_no_progress (with_reducible refine Keeps.lit ?_ rfl rfl rfl rfl rfl)
    | split

theorem execCupolaTakeover_keeps {r : State} (s : State) (h : Keeps r s) :
    OutKeeps r (execCupolaTakeover s) := by
  unfold execCupolaTakeover
  (try dsimp only)
  repeat' first
    | with_reducible exact h
    | with_reducible assumption
    | with_reducible apply State.record_keeps
    | with_reducible apply State.packageAll_keeps
    | with_reducible apply State.reissueSteps_keeps
    | with_reducible apply OutKeeps.ite
    | with_reducible apply OutKeeps.next
    | with_reducible apply Keeps.ite
    | intro _ _ _
    | intro _ _
    | fail_if_no_progress (with_reducible refine Keeps.lit ?_ rfl rfl rfl rfl rfl)

theorem execSupplyExcursion_keeps {r : State} (rail : Rail) (s : State) (h : Keeps r s) :
    OutKeeps r (execSupplyExcursion rail s) := by
  unfold execSupplyExcursion
  (try dsimp only)
  repeat' first
    | with_reducible exact h
    | with_reducible assumption
    | with_reducible apply State.record_keeps
    | with_reducible apply State.towerQuarantine_keeps
    | with_reducible apply State.quarantine_keeps
    | with_reducible apply State.packageFrom_keeps
    | with_reducible apply State.packageAll_keeps
    | with_reducible apply State.lanternOut_keeps
    | with_reducible apply State.openLevel_keeps
    | with_reducible apply State.reactAt_keeps
    | with_reducible apply OutKeeps.ite
    | with_reducible apply OutKeeps.next
    | with_reducible apply Keeps.ite
    | with_reducible apply Keeps.ite1
    | with_reducible apply Keeps.ite2
    | (with_reducible refine Keeps.foldl ?_ ?_)
    | intro _ _ _
    | intro _ _
    | fail_if_no_progress (with_reducible refine Keeps.lit ?_ rfl rfl rfl rfl rfl)
    | split

theorem execClockMonitorWindow_keeps {r : State} (isl : Island) (count : Nat) (s : State) (h : Keeps r s) :
    OutKeeps r (execClockMonitorWindow isl count s) := by
  unfold execClockMonitorWindow
  (try dsimp only)
  repeat' first
    | with_reducible exact h
    | with_reducible assumption
    | with_reducible apply State.record_keeps
    | with_reducible apply State.quarantine_keeps
    | with_reducible apply State.towerQuarantine_keeps
    | with_reducible apply State.packageFrom_keeps
    | with_reducible apply State.openLevel_keeps
    | with_reducible apply State.reactAt_keeps
    | with_reducible apply OutKeeps.ite
    | with_reducible apply OutKeeps.next
    | with_reducible apply Keeps.ite
    | with_reducible apply Keeps.ite1
    | with_reducible apply Keeps.ite2
    | intro _ _ _
    | intro _ _
    | fail_if_no_progress (with_reducible refine Keeps.lit ?_ rfl rfl rfl rfl rfl)
    | split

theorem execReferenceClockLoss_keeps {r : State} (s : State) (h : Keeps r s) :
    OutKeeps r (execReferenceClockLoss s) := by
  unfold execReferenceClockLoss
  repeat' first
    | with_reducible exact h
    | with_reducible assumption
    | with_reducible apply State.record_keeps
    | with_reducible apply State.packageAll_keeps
    | with_reducible apply OutKeeps.next

theorem State.heartbeat_keeps {r : State} (s : State) (l key : Nat) (ok : Bool) (h : Keeps r s) :
    Keeps r (State.heartbeat s l key ok) := by
  unfold State.heartbeat
  repeat' first
    | with_reducible exact h
    | with_reducible assumption
    | with_reducible apply State.modLantern_keeps
    | with_reducible apply Keeps.ite

theorem execTowerMonitorHeartbeat_keeps {r : State} (t : Fin 4) (l : Fin 2) (ok : Bool) (s : State) (h : Keeps r s) :
    OutKeeps r (execTowerMonitorHeartbeat t l ok s) := by
  unfold execTowerMonitorHeartbeat
  repeat' first
    | with_reducible exact h
    | with_reducible assumption
    | with_reducible apply State.heartbeat_keeps
    | with_reducible apply OutKeeps.next

theorem execCupolaHeartbeat_keeps {r : State} (side l : Fin 2) (ok : Bool) (s : State) (h : Keeps r s) :
    OutKeeps r (execCupolaHeartbeat side l ok s) := by
  unfold execCupolaHeartbeat
  repeat' first
    | with_reducible exact h
    | with_reducible assumption
    | with_reducible apply State.heartbeat_keeps
    | with_reducible apply OutKeeps.next

theorem execHbLost_keeps {r : State} (src : HbSource) (l : Fin 2) (s : State) (h : Keeps r s) :
    OutKeeps r (execHbLost src l s) := by
  unfold execHbLost
  (try dsimp only)
  repeat' first
    | with_reducible exact h
    | with_reducible assumption
    | with_reducible apply State.modLantern_keeps
    | with_reducible apply State.record_keeps
    | with_reducible apply State.packageDecision_keeps
    | with_reducible apply State.loseCupola_keeps
    | with_reducible apply OutKeeps.ite
    | with_reducible apply OutKeeps.next
    | with_reducible apply Keeps.ite
    | with_reducible apply Keeps.ite1
    | with_reducible apply Keeps.ite2
    | intro _ _ _
    | intro _ _
    | fail_if_no_progress (with_reducible refine Keeps.lit ?_ rfl rfl rfl rfl rfl)
    | split

theorem execCrossWatchSend_keeps {r : State} (l : Fin 2) (s : State) (h : Keeps r s) :
    OutKeeps r (execCrossWatchSend l s) := by
  unfold execCrossWatchSend
  repeat' first
    | with_reducible exact h
    | with_reducible assumption
    | with_reducible apply State.modLantern_keeps
    | with_reducible apply OutKeeps.ite
    | with_reducible apply OutKeeps.next

theorem execCrossWatchFrame_keeps {r : State} (l : Fin 2) (ok : Bool) (level : Fin 6) (s : State) (h : Keeps r s) :
    OutKeeps r (execCrossWatchFrame l ok level s) := by
  unfold execCrossWatchFrame
  (try dsimp only)
  repeat' first
    | with_reducible exact h
    | with_reducible assumption
    | with_reducible apply State.modLantern_keeps
    | with_reducible apply State.packageDecision_keeps
    | with_reducible apply OutKeeps.ite
    | with_reducible apply OutKeeps.next
    | with_reducible apply Keeps.ite

theorem execPeerSilent_keeps {r : State} (l : Fin 2) (s : State) (h : Keeps r s) :
    OutKeeps r (execPeerSilent l s) := by
  unfold execPeerSilent
  (try dsimp only)
  repeat' first
    | with_reducible exact h
    | with_reducible assumption
    | with_reducible apply State.modLantern_keeps
    | with_reducible apply State.record_keeps
    | with_reducible apply State.packageDecision_keeps
    | with_reducible apply OutKeeps.ite
    | with_reducible apply OutKeeps.next

theorem State.unitOut_keeps {r : State} (s : State) (src : Nat) (h : Keeps r s) :
    Keeps r (State.unitOut s src) := by
  unfold State.unitOut
  (try dsimp only)
  repeat' first
    | with_reducible exact h
    | with_reducible assumption
    | with_reducible apply State.quarantine_keeps
    | with_reducible apply State.domeOutOfService_keeps
    | with_reducible apply State.engineQuarantine_keeps
    | with_reducible apply State.reissueSteps_keeps
    | with_reducible apply Keeps.ite
    | intro _ _ _
    | intro _ _
    | fail_if_no_progress (with_reducible refine Keeps.lit ?_ rfl rfl rfl rfl rfl)

theorem execLanternDecision_keeps {r : State} (l : Fin 2) (rep : Report) (s : State) (h : Keeps r s) :
    OutKeeps r (execLanternDecision l rep s) := by
  unfold execLanternDecision
  (try dsimp only)
  repeat' first
    | with_reducible exact h
    | with_reducible assumption
    | with_reducible apply State.modLantern_keeps
    | with_reducible apply State.unitOut_keeps
    | with_reducible apply State.degrade_keeps
    | with_reducible apply State.towerQuarantine_keeps
    | with_reducible apply State.packageDecision_keeps
    | with_reducible apply OutKeeps.ite
    | with_reducible apply OutKeeps.next
    | with_reducible apply Keeps.ite
    | with_reducible apply Keeps.ite1
    | with_reducible apply Keeps.ite2
    | intro _ _ _
    | intro _ _
    | fail_if_no_progress (with_reducible refine Keeps.lit ?_ rfl rfl rfl rfl rfl)
    | split

theorem execTowerLinkCrcRetry_keeps {r : State} (e : Edge) (s : State) (h : Keeps r s) :
    OutKeeps r (execTowerLinkCrcRetry e s) := by
  unfold execTowerLinkCrcRetry
  repeat' first
    | with_reducible exact h
    | with_reducible assumption
    | with_reducible apply State.record_keeps
    | with_reducible apply OutKeeps.next

theorem execLaneFailure_keeps {r : State} (e : Edge) (mdl : Fin 4) (repaired : Bool) (s : State) (h : Keeps r s) :
    OutKeeps r (execLaneFailure e mdl repaired s) := by
  unfold execLaneFailure
  (try dsimp only)
  repeat' first
    | with_reducible exact h
    | with_reducible assumption
    | with_reducible apply State.record_keeps
    | with_reducible apply State.packageFrom_keeps
    | with_reducible apply OutKeeps.ite
    | with_reducible apply OutKeeps.next
    | with_reducible apply Keeps.ite
    | intro _ _ _
    | intro _ _
    | fail_if_no_progress (with_reducible refine Keeps.lit ?_ rfl rfl rfl rfl rfl)

theorem execTestWindow_keeps {r : State} (unit : TestUnit) (opens : Bool) (s : State) (h : Keeps r s) :
    OutKeeps r (execTestWindow unit opens s) := by
  unfold execTestWindow
  (try dsimp only)
  repeat' first
    | with_reducible exact h
    | with_reducible assumption
    | with_reducible apply State.settle_keeps
    | with_reducible apply State.modTask_keeps
    | with_reducible apply OutKeeps.ite
    | with_reducible apply OutKeeps.next
    | with_reducible apply Keeps.ite
    | with_reducible apply Keeps.ite1
    | with_reducible apply Keeps.ite2
    | intro _ _ _
    | intro _ _
    | fail_if_no_progress (with_reducible refine Keeps.lit ?_ rfl rfl rfl rfl rfl)
    | split

theorem State.disagree_keeps {r : State} (s : State) (j : Nat) (h : Keeps r s) :
    Keeps r (State.disagree s j) := by
  unfold State.disagree
  (try dsimp only)
  repeat' first
    | with_reducible exact h
    | with_reducible assumption
    | with_reducible apply State.modPart_keeps
    | with_reducible apply State.record_keeps
    | with_reducible apply State.modJob_keeps
    | with_reducible apply State.degrade_keeps
    | with_reducible apply Keeps.ite
    | (with_reducible refine Keeps.foldl ?_ ?_)
    | intro _ _ _

theorem State.compareDual_keeps {r : State} (s : State) (j : Nat) (h : Keeps r s) :
    Keeps r (State.compareDual s j) := by
  unfold State.compareDual
  (try dsimp only)
  repeat' first
    | with_reducible exact h
    | with_reducible assumption
    | with_reducible apply State.disagree_keeps
    | with_reducible apply State.modJob_keeps
    | with_reducible apply State.closeJob_keeps
    | with_reducible apply Keeps.ite
    | with_reducible apply Keeps.ite1
    | with_reducible apply Keeps.ite2
    | intro _ _ _
    | intro _ _
    | fail_if_no_progress (with_reducible refine Keeps.lit ?_ rfl rfl rfl rfl rfl)
    | split

theorem execDualSignature_keeps {r : State} (job : Nat) (shadow : Bool) (sigs : List Nat) (s : State) (h : Keeps r s) :
    OutKeeps r (execDualSignature job shadow sigs s) := by
  unfold execDualSignature
  (try dsimp only)
  repeat' first
    | with_reducible exact h
    | with_reducible assumption
    | with_reducible apply State.send_keeps
    | with_reducible apply State.modJob_keeps
    | with_reducible apply State.compareDual_keeps
    | with_reducible apply OutKeeps.ite
    | with_reducible apply OutKeeps.next
    | with_reducible apply Keeps.ite

theorem execDualArbitration_keeps {r : State} (p : Fin 16) (bad : List Nat) (s : State) (h : Keeps r s) :
    OutKeeps r (execDualArbitration p bad s) := by
  unfold execDualArbitration
  (try dsimp only)
  repeat' first
    | with_reducible exact h
    | with_reducible assumption
    | with_reducible apply State.modPart_keeps
    | with_reducible apply State.record_keeps
    | with_reducible apply State.towerQuarantine_keeps
    | with_reducible apply OutKeeps.ite
    | with_reducible apply OutKeeps.next
    | with_reducible apply Keeps.ite
    | (with_reducible refine Keeps.foldl ?_ ?_)
    | intro _ _ _

theorem State.selftestFail_keeps {r : State} (s : State) (src slot : Nat) (h : Keeps r s) :
    Keeps r (State.selftestFail s src slot) := by
  unfold State.selftestFail
  (try dsimp only)
  repeat' first
    | with_reducible exact h
    | with_reducible assumption
    | with_reducible apply State.record_keeps
    | with_reducible apply State.quarantine_keeps
    | with_reducible apply State.loseDome_keeps
    | with_reducible apply State.packageFrom_keeps
    | with_reducible apply State.unitOut_keeps
    | with_reducible apply State.loseLantern_keeps
    | with_reducible apply State.engineQuarantine_keeps
    | with_reducible apply State.losePort_keeps
    | with_reducible apply Keeps.ite

theorem execSelftestSlot_keeps {r : State} (fails : List Nat) (s : State) (h : Keeps r s) :
    OutKeeps r (execSelftestSlot fails s) := by
  unfold execSelftestSlot
  (try dsimp only)
  repeat' first
    | with_reducible exact h
    | with_reducible assumption
    | with_reducible apply State.elapse_keeps
    | with_reducible apply State.selftestFail_keeps
    | with_reducible apply OutKeeps.ite
    | with_reducible apply OutKeeps.next
    | with_reducible apply Keeps.ite
    | (with_reducible refine Keeps.foldl ?_ ?_)
    | intro _ _ _
    | intro _ _
    | fail_if_no_progress (with_reducible refine Keeps.lit ?_ rfl rfl rfl rfl rfl)

theorem State.smComplete_keeps {r : State} (s : State) (l status detail : Nat) (out : List Byte) (h : Keeps r s) :
    Keeps r (State.smComplete s l status detail out) := by
  unfold State.smComplete
  repeat' first
    | with_reducible exact h
    | with_reducible assumption
    | with_reducible apply State.modSm_keeps

theorem State.smLmp_keeps {r : State} (s : State) (l op : Nat) (body : Ctx → State → LmpRes) (h : Keeps r s)
    (hb : ∀ c t, Keeps r t → LmpKeeps r (body c t)) : Keeps r (State.smLmp s l op body) := by
  unfold State.smLmp
  (try dsimp only)
  split
  · exact h
  · split
    · exact State.smComplete_keeps _ _ _ _ _ h
    · have k := hb (s.smCtx l) s h
      split <;> rename_i e <;> rw [e] at k
      · exact State.smComplete_keeps _ _ _ _ _ k
      · exact k

theorem State.lmpAny_keeps {r : State} (s : State) (src : Sys2Proof.CmdSrc) (op : Nat) (body : Ctx → State → LmpRes) (h : Keeps r s)
    (hb : ∀ c t, Keeps r t → LmpKeeps r (body c t)) : Keeps r (State.lmpAny s src op body) := by
  cases src with
  | mbx m => exact State.lmp_keeps _ _ _ _ h hb
  | sm l => exact State.smLmp_keeps _ _ _ _ h hb

theorem errorsReadBody_keeps {r : State} (c : Ctx) (s : State) (h : Keeps r s) :
    LmpKeeps r (errorsReadBody c s) := by
  unfold errorsReadBody
  (try dsimp only)
  repeat' first
    | with_reducible exact h
    | with_reducible assumption
    | with_reducible apply LmpKeeps.checked
    | with_reducible apply LmpKeeps.wait
    | with_reducible apply LmpKeeps.done

theorem execErrorsRead_keeps {r : State} (src : CmdSrc) (s : State) (h : Keeps r s) :
    OutKeeps r (execErrorsRead src s) := by
  unfold execErrorsRead
  repeat' first
    | with_reducible exact h
    | with_reducible assumption
    | with_reducible apply State.lmpAny_keeps
    | with_reducible apply errorsReadBody_keeps
    | with_reducible apply OutKeeps.next

theorem errorsClearBody_keeps {r : State} (c : Ctx) (s : State) (h : Keeps r s) :
    LmpKeeps r (errorsClearBody c s) := by
  unfold errorsClearBody
  (try dsimp only)
  repeat' first
    | with_reducible exact h
    | with_reducible assumption
    | with_reducible apply State.putRec_keeps
    | with_reducible apply LmpKeeps.checked
    | with_reducible apply LmpKeeps.wait
    | with_reducible apply LmpKeeps.done
    | with_reducible apply LmpKeeps.ite
    | intro _ _ _
    | intro _ _
    | fail_if_no_progress (with_reducible refine Keeps.lit ?_ rfl rfl rfl rfl rfl)

theorem execErrorsClear_keeps {r : State} (src : CmdSrc) (s : State) (h : Keeps r s) :
    OutKeeps r (execErrorsClear src s) := by
  unfold execErrorsClear
  repeat' first
    | with_reducible exact h
    | with_reducible assumption
    | with_reducible apply State.lmpAny_keeps
    | with_reducible apply errorsClearBody_keeps
    | with_reducible apply OutKeeps.next

theorem selftestStatusBody_keeps {r : State} (x0 : Ctx) (s : State) (h : Keeps r s) :
    LmpKeeps r (selftestStatusBody x0 s) := by
  unfold selftestStatusBody
  (try dsimp only)
  repeat' first
    | with_reducible exact h
    | with_reducible assumption
    | with_reducible apply LmpKeeps.checked
    | with_reducible apply LmpKeeps.wait
    | with_reducible apply LmpKeeps.done
    | with_reducible apply LmpKeeps.ite
    | with_reducible apply Keeps.ite
    | with_reducible apply Keeps.ite1
    | with_reducible apply Keeps.ite2
    | (with_reducible refine Keeps.foldl ?_ ?_)
    | intro _ _ _
    | intro _ _
    | fail_if_no_progress (with_reducible refine Keeps.lit ?_ rfl rfl rfl rfl rfl)
    | split

theorem execSelftestStatus_keeps {r : State} (src : CmdSrc) (s : State) (h : Keeps r s) :
    OutKeeps r (execSelftestStatus src s) := by
  unfold execSelftestStatus
  repeat' first
    | with_reducible exact h
    | with_reducible assumption
    | with_reducible apply State.lmpAny_keeps
    | with_reducible apply selftestStatusBody_keeps
    | with_reducible apply OutKeeps.next

theorem State.touchMicro_keeps {r : State} (s : State) (dome slot vpn ppn : Nat) (h : Keeps r s) :
    Keeps r (State.touchMicro s dome slot vpn ppn) := by
  unfold State.touchMicro
  (try dsimp only)
  repeat' first
    | with_reducible exact h
    | with_reducible assumption
    | intro _ _ _
    | intro _ _
    | fail_if_no_progress (with_reducible refine Keeps.lit ?_ rfl rfl rfl rfl rfl)

theorem State.touchTlb_keeps {r : State} (s : State) (dome slot vpn ppn : Nat) (h : Keeps r s) :
    Keeps r (State.touchTlb s dome slot vpn ppn) := by
  unfold State.touchTlb
  (try dsimp only)
  repeat' first
    | with_reducible exact h
    | with_reducible assumption
    | intro _ _ _
    | intro _ _
    | fail_if_no_progress (with_reducible refine Keeps.lit ?_ rfl rfl rfl rfl rfl)

theorem State.discard_keeps {r : State} (s : State) (dome slot vpn : Nat) (h : Keeps r s) :
    Keeps r (State.discard s dome slot vpn) := by
  unfold State.discard
  (try dsimp only)
  repeat' first
    | with_reducible exact h
    | with_reducible assumption
    | intro _ _ _
    | intro _ _
    | fail_if_no_progress (with_reducible refine Keeps.lit ?_ rfl rfl rfl rfl rfl)

theorem State.readPte_keeps {r : State} (s : State) (sp slot vpn : Nat) (h : Keeps r s) :
    Keeps r (State.readPte s sp slot vpn).1 := by
  unfold State.readPte
  (try dsimp only)
  repeat' first
    | with_reducible exact h
    | with_reducible assumption
    | with_reducible apply State.fetch_keeps
    | with_reducible apply Keeps.ite
    | with_reducible apply Keeps.ite1

theorem State.translate_keeps {r : State} (s : State) (sp slot vpn : Nat) (h : Keeps r s) :
    Keeps r (State.translate s sp slot vpn).1 := by
  unfold State.translate
  (try dsimp only)
  repeat' first
    | with_reducible exact h
    | with_reducible assumption
    | with_reducible apply State.readPte_keeps
    | with_reducible apply State.touchMicro_keeps
    | with_reducible apply State.touchTlb_keeps
    | with_reducible apply Keeps.ite
    | with_reducible apply Keeps.ite1
    | with_reducible apply Keeps.ite2
    | intro _ _ _
    | intro _ _
    | fail_if_no_progress (with_reducible refine Keeps.lit ?_ rfl rfl rfl rfl rfl)
    | split
    | (with_reducible refine Keeps.fst (by assumption) ?_)

theorem State.pageFault_keeps {r : State} (s : State) (dome slot : Nat) (t : TaskId) (sp : Nat) (h : Keeps r s) :
    Keeps r (State.pageFault s dome slot t sp) := by
  unfold State.pageFault
  (try dsimp only)
  repeat' first
    | with_reducible exact h
    | with_reducible assumption
    | with_reducible apply State.record_keeps
    | with_reducible apply State.failRun_keeps

theorem State.transFault_keeps {r : State} : ∀ (x0 : Trans) (dome : Nat) (slot : Nat) (t : TaskId) (sp : Nat) (s : State) (_ : Keeps r s), Keeps r (State.transFault s dome slot t sp x0)
  | .bad a, dome, slot, t, sp, s, h => by
    unfold State.transFault
    (try dsimp only)
    repeat' first
      | with_reducible exact h
      | with_reducible assumption
      | with_reducible apply State.memFault_keeps
  | _, dome, slot, t, sp, s, h => by
    unfold State.transFault
    repeat' first
      | with_reducible exact h
      | with_reducible assumption
      | with_reducible apply State.memFault_keeps
      | with_reducible apply State.pageFault_keeps
      | with_reducible apply Keeps.ite
      | intro _ _ _
      | intro _ _
      | split

theorem State.setGathers_keeps {r : State} (s : State) (d : Nat) (g : List Gather) (h : Keeps r s) :
    Keeps r (State.setGathers s d g) := by
  unfold State.setGathers
  (try dsimp only)
  repeat' first
    | with_reducible exact h
    | with_reducible assumption
    | intro _ _ _
    | intro _ _
    | fail_if_no_progress (with_reducible refine Keeps.lit ?_ rfl rfl rfl rfl rfl)

theorem execGatherRequest_keeps {r : State} (sp : Fin 64) (desc : List W64) (wf : Fmt) (tensor : Nat) (s : State) (h : Keeps r s) :
    OutKeeps r (execGatherRequest sp desc wf tensor s) := by
  unfold execGatherRequest
  (try dsimp only)
  repeat' first
    | with_reducible exact h
    | with_reducible assumption
    | with_reducible apply State.setGathers_keeps
    | with_reducible apply State.stale_keeps
    | with_reducible apply State.record_keeps
    | with_reducible apply State.failTask_keeps
    | with_reducible apply OutKeeps.ite
    | with_reducible apply OutKeeps.next
    | with_reducible apply Keeps.ite
    | with_reducible apply Keeps.ite1
    | with_reducible apply Keeps.ite2
    | intro _ _ _
    | intro _ _
    | fail_if_no_progress (with_reducible refine Keeps.lit ?_ rfl rfl rfl rfl rfl)
    | split

theorem State.latentRows_keeps {r : State} : ∀ (x0 : Option (Nat × Nat)) (x1 : Nat) (x2 : Nat) (sp : Nat) (d : GatherDesc) (s : State) (_ : Keeps r s), Keeps r (State.latentRows s sp d x0 x1 x2).1
  | _, _, 0, sp, d, s, h => by
    unfold State.latentRows
    (try dsimp only)
    repeat' first
      | with_reducible exact h
  | last, p, n + 1, sp, d, s, h => by
    unfold State.latentRows
    (try dsimp only)
    repeat' first
      | with_reducible exact h
      | with_reducible assumption
      | with_reducible apply State.latentRows_keeps
      | with_reducible apply State.translate_keeps
      | with_reducible apply Keeps.ite
      | with_reducible apply Keeps.ite1
      | with_reducible apply Keeps.ite2
      | intro _ _ _
      | intro _ _
      | fail_if_no_progress (with_reducible refine Keeps.lit ?_ rfl rfl rfl rfl rfl)
      | split
      | (with_reducible refine Keeps.fst (by assumption) ?_)

theorem State.gatherReads_keeps {r : State} : ∀ (x0 : List (Nat × Nat)) (sp : Nat) (s : State) (_ : Keeps r s), Keeps r (State.gatherReads s sp x0).1
  | [], sp, s, h => by
    unfold State.gatherReads
    (try dsimp only)
    repeat' first
      | with_reducible exact h
  | (a, n) :: t, sp, s, h => by
    unfold State.gatherReads
    (try dsimp only)
    repeat' first
      | with_reducible exact h
      | with_reducible assumption
      | with_reducible apply State.gatherReads_keeps
      | with_reducible apply State.fetch_keeps
      | with_reducible apply Keeps.ite
      | with_reducible apply Keeps.ite1

theorem State.gatherWrite_keeps {r : State} (s : State) (dome j i : Nat) (g : Gather) (rows : List (List Byte)) (h : Keeps r s) :
    Keeps r (State.gatherWrite s dome j i g rows) := by
  unfold State.gatherWrite
  (try dsimp only)
  repeat' first
    | with_reducible exact h
    | with_reducible assumption
    | with_reducible apply State.store_keeps
    | with_reducible apply State.put_keeps
    | with_reducible apply State.quarantine_keeps
    | with_reducible apply State.modTask_keeps
    | with_reducible apply Keeps.ite
    | (with_reducible refine Keeps.foldl ?_ ?_)
    | intro _ _ _

theorem State.gatherOut_keeps {r : State} (s : State) (d : Nat) (h : Keeps r s) :
    Keeps r (State.gatherOut s d) := by
  unfold State.gatherOut
  (try dsimp only)
  repeat' first
    | with_reducible exact h
    | with_reducible assumption
    | with_reducible apply State.record_keeps
    | intro _ _ _
    | intro _ _
    | fail_if_no_progress (with_reducible refine Keeps.lit ?_ rfl rfl rfl rfl rfl)

theorem State.gatherChecks_keeps {r : State} (s : State) (dome j i : Nat) (d : GatherDesc) (mismatch : Nat) (h : Keeps r s) :
    Keeps r (State.gatherChecks s dome j i d mismatch) := by
  unfold State.gatherChecks
  (try dsimp only)
  repeat' first
    | with_reducible exact h
    | with_reducible assumption
    | with_reducible apply State.record_keeps
    | with_reducible apply State.modTask_keeps
    | with_reducible apply State.gatherOut_keeps
    | with_reducible apply Keeps.ite
    | with_reducible apply Keeps.ite1
    | with_reducible apply Keeps.ite2
    | intro _ _ _
    | intro _ _
    | fail_if_no_progress (with_reducible refine Keeps.lit ?_ rfl rfl rfl rfl rfl)

theorem State.dropGather_keeps {r : State} (s : State) (dome n : Nat) (h : Keeps r s) :
    Keeps r (State.dropGather s dome n) := by
  unfold State.dropGather
  repeat' first
    | with_reducible exact h
    | with_reducible assumption
    | with_reducible apply State.setGathers_keeps
    | with_reducible apply State.grantDma_keeps

theorem State.pruneGathers_keeps {r : State} (s : State) (dome : Nat) (h : Keeps r s) :
    Keeps r (State.pruneGathers s dome) := by
  unfold State.pruneGathers
  repeat' first
    | with_reducible exact h
    | with_reducible assumption
    | with_reducible apply State.setGathers_keeps

theorem execGatherTileWritten_keeps {r : State} (dome : Fin 16) (mismatch : Nat) (s : State) (h : Keeps r s) :
    OutKeeps r (execGatherTileWritten dome mismatch s) := by
  unfold execGatherTileWritten
  (try dsimp only)
  repeat' first
    | with_reducible exact h
    | with_reducible assumption
    | with_reducible apply State.pruneGathers_keeps
    | with_reducible apply State.dropGather_keeps
    | with_reducible apply State.stale_keeps
    | with_reducible apply State.latentRows_keeps
    | with_reducible apply State.transFault_keeps
    | with_reducible apply State.store_keeps
    | with_reducible apply State.gatherReads_keeps
    | with_reducible apply State.memFault_keeps
    | with_reducible apply State.gatherChecks_keeps
    | with_reducible apply State.gatherWrite_keeps
    | with_reducible apply State.setGathers_keeps
    | with_reducible apply OutKeeps.ite
    | with_reducible apply OutKeeps.next
    | with_reducible apply Keeps.ite
    | with_reducible apply Keeps.ite1
    | with_reducible apply Keeps.ite2
    | intro _ _ _
    | intro _ _
    | fail_if_no_progress (with_reducible refine Keeps.lit ?_ rfl rfl rfl rfl rfl)
    | split
    | (with_reducible refine Keeps.fst (by assumption) ?_)

theorem execGatherTileRelease_keeps {r : State} (sp : Fin 64) (s : State) (h : Keeps r s) :
    OutKeeps r (execGatherTileRelease sp s) := by
  unfold execGatherTileRelease
  (try dsimp only)
  repeat' first
    | with_reducible exact h
    | with_reducible assumption
    | with_reducible apply State.dropGather_keeps
    | with_reducible apply State.setGathers_keeps
    | with_reducible apply OutKeeps.ite
    | with_reducible apply OutKeeps.next
    | with_reducible apply Keeps.ite
    | with_reducible apply Keeps.ite1
    | with_reducible apply Keeps.ite2
    | intro _ _ _
    | intro _ _
    | fail_if_no_progress (with_reducible refine Keeps.lit ?_ rfl rfl rfl rfl rfl)
    | split

theorem execAppendWrite_keeps {r : State} (sp : Fin 64) (handle layer pos : Nat) (data : List Byte) (s : State) (h : Keeps r s) :
    OutKeeps r (execAppendWrite sp handle layer pos data s) := by
  unfold execAppendWrite
  (try dsimp only)
  repeat' first
    | with_reducible exact h
    | with_reducible assumption
    | with_reducible apply State.translate_keeps
    | with_reducible apply State.store_keeps
    | with_reducible apply State.memFault_keeps
    | with_reducible apply State.modSeq_keeps
    | with_reducible apply State.transFault_keeps
    | with_reducible apply State.stale_keeps
    | with_reducible apply State.record_keeps
    | with_reducible apply State.failTask_keeps
    | with_reducible apply OutKeeps.ite
    | with_reducible apply OutKeeps.next
    | with_reducible apply Keeps.ite
    | with_reducible apply Keeps.ite1
    | with_reducible apply Keeps.ite2
    | intro _ _ _
    | intro _ _
    | fail_if_no_progress (with_reducible refine Keeps.lit ?_ rfl rfl rfl rfl rfl)
    | split
    | (with_reducible refine Keeps.fst (by assumption) ?_)

theorem execAppendCounterAdvance_keeps {r : State} (slot : Fin 4096) (pos : Nat) (s : State) (h : Keeps r s) :
    OutKeeps r (execAppendCounterAdvance slot pos s) := by
  unfold execAppendCounterAdvance
  (try dsimp only)
  repeat' first
    | with_reducible exact h
    | with_reducible assumption
    | with_reducible apply State.modSeq_keeps
    | with_reducible apply OutKeeps.ite
    | with_reducible apply OutKeeps.next

theorem execPageWalkDone_keeps {r : State} (dome : Fin 16) (slot : Fin 4096) (vpn : Nat) (parity : Bool) (s : State) (h : Keeps r s) :
    OutKeeps r (execPageWalkDone dome slot vpn parity s) := by
  unfold execPageWalkDone
  (try dsimp only)
  repeat' first
    | with_reducible exact h
    | with_reducible assumption
    | with_reducible apply State.discard_keeps
    | with_reducible apply State.record_keeps
    | with_reducible apply State.translate_keeps
    | with_reducible apply State.dropGather_keeps
    | with_reducible apply State.transFault_keeps
    | with_reducible apply OutKeeps.ite
    | with_reducible apply OutKeeps.next
    | with_reducible apply Keeps.ite
    | with_reducible apply Keeps.ite1
    | with_reducible apply Keeps.ite2
    | intro _ _ _
    | intro _ _
    | fail_if_no_progress (with_reducible refine Keeps.lit ?_ rfl rfl rfl rfl rfl)
    | split
    | (with_reducible refine Keeps.fst (by assumption) ?_)

theorem seqOpenBody_keeps {r : State} (c : Ctx) (s : State) (h : Keeps r s) :
    LmpKeeps r (seqOpenBody c s) := by
  unfold seqOpenBody
  (try dsimp only)
  repeat' first
    | with_reducible exact h
    | with_reducible assumption
    | with_reducible apply State.modSeq_keeps
    | with_reducible apply State.zero_keeps
    | with_reducible apply LmpKeeps.checked
    | with_reducible apply LmpKeeps.wait
    | with_reducible apply LmpKeeps.done
    | with_reducible apply LmpKeeps.ite
    | with_reducible apply Keeps.ite
    | with_reducible apply Keeps.ite1
    | with_reducible apply Keeps.ite2
    | intro _ _ _
    | intro _ _
    | fail_if_no_progress (with_reducible refine Keeps.lit ?_ rfl rfl rfl rfl rfl)
    | split

theorem execSeqOpen_keeps {r : State} (m : Fin 64) (s : State) (h : Keeps r s) :
    OutKeeps r (execSeqOpen m s) := by
  unfold execSeqOpen
  repeat' first
    | with_reducible exact h
    | with_reducible assumption
    | with_reducible apply State.lmp_keeps
    | with_reducible apply shared_keeps
    | with_reducible apply seqOpenBody_keeps
    | with_reducible apply OutKeeps.next
    | intro _ _ _

theorem seqCloseBody_keeps {r : State} (c : Ctx) (s : State) (h : Keeps r s) :
    LmpKeeps r (seqCloseBody c s) := by
  unfold seqCloseBody
  (try dsimp only)
  repeat' first
    | with_reducible exact h
    | with_reducible assumption
    | with_reducible apply State.modSeq_keeps
    | with_reducible apply State.startClose_keeps
    | with_reducible apply LmpKeeps.checked
    | with_reducible apply LmpKeeps.wait
    | with_reducible apply LmpKeeps.done
    | with_reducible apply LmpKeeps.ite
    | with_reducible apply Keeps.ite

theorem execSeqClose_keeps {r : State} (m : Fin 64) (s : State) (h : Keeps r s) :
    OutKeeps r (execSeqClose m s) := by
  unfold execSeqClose
  repeat' first
    | with_reducible exact h
    | with_reducible assumption
    | with_reducible apply State.lmp_keeps
    | with_reducible apply shared_keeps
    | with_reducible apply seqCloseBody_keeps
    | with_reducible apply OutKeeps.next
    | intro _ _ _

theorem seqForkBody_keeps {r : State} (c : Ctx) (s : State) (h : Keeps r s) :
    LmpKeeps r (seqForkBody c s) := by
  unfold seqForkBody
  repeat' first
    | with_reducible exact h
    | with_reducible assumption
    | with_reducible apply LmpKeeps.checked
    | with_reducible apply LmpKeeps.wait

theorem execSeqFork_keeps {r : State} (m : Fin 64) (s : State) (h : Keeps r s) :
    OutKeeps r (execSeqFork m s) := by
  unfold execSeqFork
  repeat' first
    | with_reducible exact h
    | with_reducible assumption
    | with_reducible apply State.lmp_keeps
    | with_reducible apply shared_keeps
    | with_reducible apply seqForkBody_keeps
    | with_reducible apply OutKeeps.next
    | intro _ _ _

theorem State.editEntries_keeps {r : State} : ∀ (x0 : Nat) (x1 : List (Nat × Nat)) (slot : Nat) (s : State) (_ : Keeps r s), Keeps r (State.editEntries s slot x0 x1).1
  | _, [], slot, s, h => by
    unfold State.editEntries
    (try dsimp only)
    repeat' first
      | with_reducible exact h
  | i, (v, e) :: t, slot, s, h => by
    unfold State.editEntries
    (try dsimp only)
    repeat' first
      | with_reducible exact h
      | with_reducible assumption
      | with_reducible apply State.editEntries_keeps
      | with_reducible apply LmpRes.counted_keeps
      | with_reducible apply State.incPage_keeps
      | with_reducible apply State.decPage_keeps
      | with_reducible apply State.modSeq_keeps
      | with_reducible apply State.setPte_keeps
      | with_reducible apply Keeps.ite
      | with_reducible apply Keeps.ite1

theorem pageTableEditBody_keeps {r : State} (c : Ctx) (s : State) (h : Keeps r s) :
    LmpKeeps r (pageTableEditBody c s) := by
  unfold pageTableEditBody
  (try dsimp only)
  repeat' first
    | with_reducible exact h
    | with_reducible assumption
    | with_reducible apply State.editEntries_keeps
    | with_reducible apply State.modSeq_keeps
    | with_reducible apply LmpKeeps.checked
    | with_reducible apply LmpKeeps.wait
    | with_reducible apply LmpKeeps.done
    | with_reducible apply LmpKeeps.ite
    | with_reducible apply Keeps.ite
    | with_reducible apply Keeps.ite1
    | with_reducible apply Keeps.ite2
    | intro _ _ _
    | intro _ _
    | fail_if_no_progress (with_reducible refine Keeps.lit ?_ rfl rfl rfl rfl rfl)
    | split
    | (with_reducible refine Keeps.fst (by assumption) ?_)

theorem execPageTableEdit_keeps {r : State} (m : Fin 64) (s : State) (h : Keeps r s) :
    OutKeeps r (execPageTableEdit m s) := by
  unfold execPageTableEdit
  repeat' first
    | with_reducible exact h
    | with_reducible assumption
    | with_reducible apply State.lmp_keeps
    | with_reducible apply shared_keeps
    | with_reducible apply pageTableEditBody_keeps
    | with_reducible apply OutKeeps.next
    | intro _ _ _

theorem seqSwapPolicyBody_keeps {r : State} (c : Ctx) (s : State) (h : Keeps r s) :
    LmpKeeps r (seqSwapPolicyBody c s) := by
  unfold seqSwapPolicyBody
  (try dsimp only)
  repeat' first
    | with_reducible exact h
    | with_reducible assumption
    | with_reducible apply State.modSeq_keeps
    | with_reducible apply LmpKeeps.checked
    | with_reducible apply LmpKeeps.wait
    | with_reducible apply LmpKeeps.done

theorem execSeqSwapPolicy_keeps {r : State} (m : Fin 64) (s : State) (h : Keeps r s) :
    OutKeeps r (execSeqSwapPolicy m s) := by
  unfold execSeqSwapPolicy
  repeat' first
    | with_reducible exact h
    | with_reducible assumption
    | with_reducible apply State.lmp_keeps
    | with_reducible apply shared_keeps
    | with_reducible apply seqSwapPolicyBody_keeps
    | with_reducible apply OutKeeps.next
    | intro _ _ _

theorem seqWatermarksBody_keeps {r : State} (c : Ctx) (s : State) (h : Keeps r s) :
    LmpKeeps r (seqWatermarksBody c s) := by
  unfold seqWatermarksBody
  (try dsimp only)
  repeat' first
    | with_reducible exact h
    | with_reducible assumption
    | with_reducible apply State.modPart_keeps
    | with_reducible apply LmpKeeps.checked
    | with_reducible apply LmpKeeps.wait
    | with_reducible apply LmpKeeps.done

theorem execSeqSwapWatermarks_keeps {r : State} (m : Fin 64) (s : State) (h : Keeps r s) :
    OutKeeps r (execSeqSwapWatermarks m s) := by
  unfold execSeqSwapWatermarks
  repeat' first
    | with_reducible exact h
    | with_reducible assumption
    | with_reducible apply State.lmp_keeps
    | with_reducible apply shared_keeps
    | with_reducible apply seqWatermarksBody_keeps
    | with_reducible apply OutKeeps.next
    | intro _ _ _

theorem helloBody_keeps {r : State} (c : Ctx) (s : State) (h : Keeps r s) :
    LmpKeeps r (helloBody c s) := by
  unfold helloBody
  (try dsimp only)
  repeat' first
    | with_reducible exact h
    | with_reducible assumption
    | with_reducible apply State.modMbx_keeps
    | with_reducible apply LmpKeeps.checked
    | with_reducible apply LmpKeeps.wait
    | with_reducible apply LmpKeeps.done

theorem execHello_keeps {r : State} (m : Fin 64) (s : State) (h : Keeps r s) :
    OutKeeps r (execHello m s) := by
  unfold execHello
  repeat' first
    | with_reducible exact h
    | with_reducible assumption
    | with_reducible apply State.lmp_keeps
    | with_reducible apply helloBody_keeps
    | with_reducible apply OutKeeps.next

theorem capsGetBody_keeps {r : State} (c : Ctx) (s : State) (h : Keeps r s) :
    LmpKeeps r (capsGetBody c s) := by
  unfold capsGetBody
  (try dsimp only)
  repeat' first
    | with_reducible exact h
    | with_reducible assumption
    | with_reducible apply LmpKeeps.checked
    | with_reducible apply LmpKeeps.wait
    | with_reducible apply LmpKeeps.done

theorem execCapsGet_keeps {r : State} (m : Fin 64) (s : State) (h : Keeps r s) :
    OutKeeps r (execCapsGet m s) := by
  unfold execCapsGet
  repeat' first
    | with_reducible exact h
    | with_reducible assumption
    | with_reducible apply State.lmp_keeps
    | with_reducible apply capsGetBody_keeps
    | with_reducible apply OutKeeps.next

theorem State.askRoleBack_keeps {r : State} (s : State) (h : Keeps r s) :
    Keeps r (State.askRoleBack s) := by
  unfold State.askRoleBack
  (try dsimp only)
  repeat' first
    | with_reducible exact h
    | with_reducible assumption
    | intro _ _ _
    | intro _ _
    | fail_if_no_progress (with_reducible refine Keeps.lit ?_ rfl rfl rfl rfl rfl)

theorem State.dropClaims_keeps {r : State} (s : State) (f : Claim → Bool) (h : Keeps r s) :
    Keeps r (State.dropClaims s f) := by
  unfold State.dropClaims
  (try dsimp only)
  repeat' first
    | with_reducible exact h
    | with_reducible assumption
    | with_reducible apply State.askRoleBack_keeps
    | with_reducible apply Keeps.ite
    | intro _ _ _
    | intro _ _
    | fail_if_no_progress (with_reducible refine Keeps.lit ?_ rfl rfl rfl rfl rfl)

theorem State.unbindIf_keeps {r : State} (s : State) (f : Binding → Bool) (h : Keeps r s) :
    Keeps r (State.unbindIf s f) := by
  unfold State.unbindIf
  (try dsimp only)
  repeat' first
    | with_reducible exact h
    | with_reducible assumption
    | intro _ _ _
    | intro _ _
    | fail_if_no_progress (with_reducible refine Keeps.lit ?_ rfl rfl rfl rfl rfl)

theorem State.assign_keeps {r : State} (s : State) (m part weight : Nat) (h : Keeps r s) :
    Keeps r (State.assign s m part weight) := by
  unfold State.assign
  (try dsimp only)
  repeat' first
    | with_reducible exact h
    | with_reducible assumption
    | with_reducible apply State.dropClaims_keeps
    | with_reducible apply State.unbindIf_keeps
    | with_reducible apply State.modMbx_keeps

theorem mbxAssignBody_keeps {r : State} (c : Ctx) (s : State) (h : Keeps r s) :
    LmpKeeps r (mbxAssignBody c s) := by
  unfold mbxAssignBody
  (try dsimp only)
  repeat' first
    | with_reducible exact h
    | with_reducible assumption
    | with_reducible apply State.assign_keeps
    | with_reducible apply LmpKeeps.checked
    | with_reducible apply LmpKeeps.wait
    | with_reducible apply LmpKeeps.done

theorem execMbxAssign_keeps {r : State} (m : Fin 64) (s : State) (h : Keeps r s) :
    OutKeeps r (execMbxAssign m s) := by
  unfold execMbxAssign
  repeat' first
    | with_reducible exact h
    | with_reducible assumption
    | with_reducible apply State.lmp_keeps
    | with_reducible apply mbxAssignBody_keeps
    | with_reducible apply OutKeeps.next

theorem State.layout_keeps {r : State} (s : State) (h : Keeps r s) :
    Keeps r (State.layout s) := by
  unfold State.layout
  (try dsimp only)
  repeat' first
    | with_reducible exact h
    | with_reducible assumption
    | with_reducible apply Keeps.ite
    | (with_reducible refine Keeps.foldl ?_ ?_)
    | intro _ _ _
    | intro _ _
    | fail_if_no_progress (with_reducible refine Keeps.lit ?_ rfl rfl rfl rfl rfl)

theorem partitionCreateBody_keeps {r : State} (c : Ctx) (s : State) (h : Keeps r s) :
    LmpKeeps r (partitionCreateBody c s) := by
  unfold partitionCreateBody
  (try dsimp only)
  repeat' first
    | with_reducible exact h
    | with_reducible assumption
    | with_reducible apply State.layout_keeps
    | with_reducible apply State.modPart_keeps
    | with_reducible apply State.modSpire_keeps
    | with_reducible apply LmpKeeps.checked
    | with_reducible apply LmpKeeps.wait
    | with_reducible apply LmpKeeps.done
    | with_reducible apply LmpKeeps.ite
    | with_reducible apply Keeps.ite
    | with_reducible apply Keeps.ite1
    | with_reducible apply Keeps.ite2
    | (with_reducible refine Keeps.foldl ?_ ?_)
    | intro _ _ _
    | intro _ _
    | fail_if_no_progress (with_reducible refine Keeps.lit ?_ rfl rfl rfl rfl rfl)
    | split

theorem execPartitionCreate_keeps {r : State} (m : Fin 64) (s : State) (h : Keeps r s) :
    OutKeeps r (execPartitionCreate m s) := by
  unfold execPartitionCreate
  repeat' first
    | with_reducible exact h
    | with_reducible assumption
    | with_reducible apply State.lmp_keeps
    | with_reducible apply shared_keeps
    | with_reducible apply partitionCreateBody_keeps
    | with_reducible apply OutKeeps.next
    | intro _ _ _

theorem State.cancelPlans_keeps {r : State} (s : State) (p : Nat) (h : Keeps r s) :
    Keeps r (State.cancelPlans s p) := by
  unfold State.cancelPlans
  (try dsimp only)
  repeat' first
    | with_reducible exact h
    | with_reducible assumption
    | with_reducible apply State.endPlanId_keeps
    | with_reducible apply State.modEng_keeps
    | with_reducible apply State.dropSearch_keeps
    | with_reducible apply Keeps.ite
    | with_reducible apply Keeps.ite1
    | with_reducible apply Keeps.ite2
    | (with_reducible refine Keeps.foldl ?_ ?_)
    | intro _ _ _
    | intro _ _
    | fail_if_no_progress (with_reducible refine Keeps.lit ?_ rfl rfl rfl rfl rfl)
    | split

theorem State.closeSeqs_keeps {r : State} (s : State) (p : Nat) (h : Keeps r s) :
    Keeps r (State.closeSeqs s p) := by
  unfold State.closeSeqs
  (try dsimp only)
  repeat' first
    | with_reducible exact h
    | with_reducible assumption
    | with_reducible apply State.stepComplete_keeps
    | with_reducible apply State.modSeq_keeps
    | with_reducible apply State.startClose_keeps
    | with_reducible apply Keeps.ite
    | (with_reducible refine Keeps.foldl ?_ ?_)
    | intro _ _ _
    | intro _ _
    | fail_if_no_progress (with_reducible refine Keeps.lit ?_ rfl rfl rfl rfl rfl)

theorem State.failWaits_keeps {r : State} (s : State) (p : Nat) (h : Keeps r s) :
    Keeps r (State.failWaits s p) := by
  unfold State.failWaits
  repeat' first
    | with_reducible exact h
    | with_reducible assumption
    | with_reducible apply State.complete_keeps
    | with_reducible apply Keeps.ite
    | (with_reducible refine Keeps.foldl ?_ ?_)
    | intro _ _ _

theorem State.beginEnd_keeps {r : State} (s : State) (p mode : Nat) (h : Keeps r s) :
    Keeps r (State.beginEnd s p mode) := by
  unfold State.beginEnd
  (try dsimp only)
  repeat' first
    | with_reducible exact h
    | with_reducible assumption
    | with_reducible apply State.modPart_keeps
    | with_reducible apply State.modEp_keeps
    | with_reducible apply State.abort_keeps
    | with_reducible apply State.cancelPlans_keeps
    | with_reducible apply State.failWaits_keeps
    | with_reducible apply State.closeSeqs_keeps
    | with_reducible apply Keeps.ite
    | (with_reducible refine Keeps.foldl ?_ ?_)
    | intro _ _ _

theorem partitionEndBody_keeps {r : State} (c : Ctx) (s : State) (h : Keeps r s) :
    LmpKeeps r (partitionEndBody c s) := by
  unfold partitionEndBody
  (try dsimp only)
  repeat' first
    | with_reducible exact h
    | with_reducible assumption
    | with_reducible apply State.zero_keeps
    | with_reducible apply State.beginEnd_keeps
    | with_reducible apply LmpKeeps.checked
    | with_reducible apply LmpKeeps.wait

theorem execPartitionDestroy_keeps {r : State} (m : Fin 64) (s : State) (h : Keeps r s) :
    OutKeeps r (execPartitionDestroy m s) := by
  unfold execPartitionDestroy
  repeat' first
    | with_reducible exact h
    | with_reducible assumption
    | with_reducible apply State.lmp_keeps
    | with_reducible apply shared_keeps
    | with_reducible apply partitionEndBody_keeps
    | with_reducible apply OutKeeps.next
    | intro _ _ _

theorem execPartitionReset_keeps {r : State} (m : Fin 64) (s : State) (h : Keeps r s) :
    OutKeeps r (execPartitionReset m s) := by
  unfold execPartitionReset
  repeat' first
    | with_reducible exact h
    | with_reducible assumption
    | with_reducible apply State.lmp_keeps
    | with_reducible apply shared_keeps
    | with_reducible apply partitionEndBody_keeps
    | with_reducible apply OutKeeps.next
    | intro _ _ _

theorem State.zeroPartition_keeps {r : State} (s : State) (p : Nat) (h : Keeps r s) :
    Keeps r (State.zeroPartition s p) := by
  unfold State.zeroPartition
  (try dsimp only)
  repeat' first
    | with_reducible exact h
    | with_reducible assumption
    | with_reducible apply State.zero_keeps
    | with_reducible apply State.unretire_keeps
    | with_reducible apply Keeps.ite
    | (with_reducible refine Keeps.foldl ?_ ?_)
    | intro _ _ _

theorem State.release_keeps {r : State} (s : State) (p : Nat) (h : Keeps r s) :
    Keeps r (State.release s p) := by
  unfold State.release
  (try dsimp only)
  repeat' first
    | with_reducible exact h
    | with_reducible assumption
    | with_reducible apply State.assign_keeps
    | with_reducible apply State.dropClaims_keeps
    | with_reducible apply State.unbindIf_keeps
    | with_reducible apply State.modPart_keeps
    | with_reducible apply Keeps.ite
    | (with_reducible refine Keeps.foldl ?_ ?_)
    | intro _ _ _

theorem execPartitionZeroingDone_keeps {r : State} (p : Fin 16) (s : State) (h : Keeps r s) :
    OutKeeps r (execPartitionZeroingDone p s) := by
  unfold execPartitionZeroingDone
  (try dsimp only)
  repeat' first
    | with_reducible exact h
    | with_reducible assumption
    | with_reducible apply State.zeroPartition_keeps
    | with_reducible apply State.modPart_keeps
    | with_reducible apply State.release_keeps
    | with_reducible apply State.finishAll_keeps
    | with_reducible apply State.zero_keeps
    | with_reducible apply OutKeeps.ite
    | with_reducible apply OutKeeps.next
    | with_reducible apply Keeps.ite

theorem partitionSetShareBody_keeps {r : State} (c : Ctx) (s : State) (h : Keeps r s) :
    LmpKeeps r (partitionSetShareBody c s) := by
  unfold partitionSetShareBody
  (try dsimp only)
  repeat' first
    | with_reducible exact h
    | with_reducible assumption
    | with_reducible apply State.modPart_keeps
    | with_reducible apply LmpKeeps.checked
    | with_reducible apply LmpKeeps.wait
    | with_reducible apply LmpKeeps.done

theorem execPartitionSetShare_keeps {r : State} (m : Fin 64) (s : State) (h : Keeps r s) :
    OutKeeps r (execPartitionSetShare m s) := by
  unfold execPartitionSetShare
  repeat' first
    | with_reducible exact h
    | with_reducible assumption
    | with_reducible apply State.lmp_keeps
    | with_reducible apply shared_keeps
    | with_reducible apply partitionSetShareBody_keeps
    | with_reducible apply OutKeeps.next
    | intro _ _ _

theorem resourceClaimBody_keeps {r : State} (c : Ctx) (s : State) (h : Keeps r s) :
    LmpKeeps r (resourceClaimBody c s) := by
  unfold resourceClaimBody
  (try dsimp only)
  repeat' first
    | with_reducible exact h
    | with_reducible assumption
    | with_reducible apply State.layout_keeps
    | with_reducible apply State.bump_keeps
    | with_reducible apply LmpKeeps.checked
    | with_reducible apply LmpKeeps.wait
    | with_reducible apply LmpKeeps.done
    | with_reducible apply LmpKeeps.ite
    | with_reducible apply Keeps.ite
    | with_reducible apply Keeps.ite1
    | with_reducible apply Keeps.ite2
    | intro _ _ _
    | intro _ _
    | fail_if_no_progress (with_reducible refine Keeps.lit ?_ rfl rfl rfl rfl rfl)

theorem execResourceClaim_keeps {r : State} (m : Fin 64) (s : State) (h : Keeps r s) :
    OutKeeps r (execResourceClaim m s) := by
  unfold execResourceClaim
  repeat' first
    | with_reducible exact h
    | with_reducible assumption
    | with_reducible apply State.lmp_keeps
    | with_reducible apply resourceClaimBody_keeps
    | with_reducible apply OutKeeps.next

theorem resourceReleaseBody_keeps {r : State} (c : Ctx) (s : State) (h : Keeps r s) :
    LmpKeeps r (resourceReleaseBody c s) := by
  unfold resourceReleaseBody
  (try dsimp only)
  repeat' first
    | with_reducible exact h
    | with_reducible assumption
    | with_reducible apply State.layout_keeps
    | with_reducible apply State.dropClaims_keeps
    | with_reducible apply State.bump_keeps
    | with_reducible apply LmpKeeps.checked
    | with_reducible apply LmpKeeps.wait
    | with_reducible apply LmpKeeps.done

theorem execResourceRelease_keeps {r : State} (m : Fin 64) (s : State) (h : Keeps r s) :
    OutKeeps r (execResourceRelease m s) := by
  unfold execResourceRelease
  repeat' first
    | with_reducible exact h
    | with_reducible assumption
    | with_reducible apply State.lmp_keeps
    | with_reducible apply resourceReleaseBody_keeps
    | with_reducible apply OutKeeps.next

theorem accountingReadBody_keeps {r : State} (c : Ctx) (s : State) (h : Keeps r s) :
    LmpKeeps r (accountingReadBody c s) := by
  unfold accountingReadBody
  (try dsimp only)
  repeat' first
    | with_reducible exact h
    | with_reducible assumption
    | with_reducible apply State.modPart_keeps
    | with_reducible apply LmpKeeps.checked
    | with_reducible apply LmpKeeps.wait
    | with_reducible apply LmpKeeps.done
    | with_reducible apply LmpKeeps.ite
    | with_reducible apply Keeps.ite
    | with_reducible apply Keeps.ite1
    | with_reducible apply Keeps.ite2
    | intro _ _ _
    | intro _ _
    | fail_if_no_progress (with_reducible refine Keeps.lit ?_ rfl rfl rfl rfl rfl)
    | split

theorem execAccountingRead_keeps {r : State} (m : Fin 64) (s : State) (h : Keeps r s) :
    OutKeeps r (execAccountingRead m s) := by
  unfold execAccountingRead
  repeat' first
    | with_reducible exact h
    | with_reducible assumption
    | with_reducible apply State.lmp_keeps
    | with_reducible apply accountingReadBody_keeps
    | with_reducible apply OutKeeps.next

theorem imageLoadBody_keeps {r : State} (f : ImageFacts) (c : Ctx) (s : State) (h : Keeps r s) :
    LmpKeeps r (imageLoadBody f c s) := by
  unfold imageLoadBody
  (try dsimp only)
  repeat' first
    | with_reducible exact h
    | with_reducible assumption
    | with_reducible apply State.draw_keeps
    | with_reducible apply State.writeCells_keeps
    | with_reducible apply State.modPart_keeps
    | with_reducible apply LmpKeeps.checked
    | with_reducible apply LmpKeeps.wait
    | with_reducible apply LmpKeeps.done
    | with_reducible apply LmpKeeps.ite

theorem execImageLoad_keeps {r : State} (m : Fin 64) (img : ImageFacts) (s : State) (h : Keeps r s) :
    OutKeeps r (execImageLoad m img s) := by
  unfold execImageLoad
  repeat' first
    | with_reducible exact h
    | with_reducible assumption
    | with_reducible apply State.lmp_keeps
    | with_reducible apply shared_keeps
    | with_reducible apply imageLoadBody_keeps
    | with_reducible apply OutKeeps.next
    | intro _ _ _

theorem imageUnloadBody_keeps {r : State} (c : Ctx) (s : State) (h : Keeps r s) :
    LmpKeeps r (imageUnloadBody c s) := by
  unfold imageUnloadBody
  (try dsimp only)
  repeat' first
    | with_reducible exact h
    | with_reducible assumption
    | with_reducible apply State.modPart_keeps
    | with_reducible apply LmpKeeps.checked
    | with_reducible apply LmpKeeps.wait
    | with_reducible apply LmpKeeps.done

theorem execImageUnload_keeps {r : State} (m : Fin 64) (s : State) (h : Keeps r s) :
    OutKeeps r (execImageUnload m s) := by
  unfold execImageUnload
  repeat' first
    | with_reducible exact h
    | with_reducible assumption
    | with_reducible apply State.lmp_keeps
    | with_reducible apply shared_keeps
    | with_reducible apply imageUnloadBody_keeps
    | with_reducible apply OutKeeps.next
    | intro _ _ _

theorem State.accept_keeps {r : State} (s : State) (c : Ctx) (at_ : Option Nat) (step : Option Nat) (h : Keeps r s) :
    Keeps r (State.accept s c at_ step).1 := by
  unfold State.accept
  (try dsimp only)
  repeat' first
    | with_reducible exact h
    | with_reducible assumption
    | with_reducible apply State.freshMarks_keeps
    | with_reducible apply State.modJob_keeps
    | with_reducible apply State.startSwapIn_keeps
    | with_reducible apply Keeps.ite
    | with_reducible apply Keeps.ite1
    | with_reducible apply Keeps.ite2
    | (with_reducible refine Keeps.foldl ?_ ?_)
    | intro _ _ _
    | intro _ _
    | fail_if_no_progress (with_reducible refine Keeps.lit ?_ rfl rfl rfl rfl rfl)

theorem State.takeStep_keeps {r : State} (s : State) (c : Ctx) (h : Keeps r s) :
    Keeps r (State.takeStep s c).1 := by
  unfold State.takeStep
  repeat' first
    | with_reducible exact h
    | with_reducible assumption
    | with_reducible apply State.modPart_keeps
    | with_reducible apply Keeps.ite
    | with_reducible apply Keeps.ite1

theorem launchBody_keeps {r : State} (at_ : Bool) (c : Ctx) (s : State) (h : Keeps r s) :
    LmpKeeps r (launchBody at_ c s) := by
  unfold launchBody
  (try dsimp only)
  repeat' first
    | with_reducible exact h
    | with_reducible assumption
    | with_reducible apply State.takeStep_keeps
    | with_reducible apply State.send_keeps
    | with_reducible apply State.accept_keeps
    | with_reducible apply State.logLaunch_keeps
    | with_reducible apply LmpKeeps.checked
    | with_reducible apply LmpKeeps.wait
    | with_reducible apply LmpKeeps.done
    | with_reducible apply LmpKeeps.ite

theorem execLaunch_keeps {r : State} (m : Fin 64) (s : State) (h : Keeps r s) :
    OutKeeps r (execLaunch m s) := by
  unfold execLaunch
  repeat' first
    | with_reducible exact h
    | with_reducible assumption
    | with_reducible apply State.lmp_keeps
    | with_reducible apply launchBody_keeps
    | with_reducible apply OutKeeps.next

theorem execLaunchAt_keeps {r : State} (m : Fin 64) (s : State) (h : Keeps r s) :
    OutKeeps r (execLaunchAt m s) := by
  unfold execLaunchAt
  repeat' first
    | with_reducible exact h
    | with_reducible assumption
    | with_reducible apply State.lmp_keeps
    | with_reducible apply launchBody_keeps
    | with_reducible apply OutKeeps.next

theorem taskAbortBody_keeps {r : State} (c : Ctx) (s : State) (h : Keeps r s) :
    LmpKeeps r (taskAbortBody c s) := by
  unfold taskAbortBody
  (try dsimp only)
  repeat' first
    | with_reducible exact h
    | with_reducible assumption
    | with_reducible apply State.abort_keeps
    | with_reducible apply LmpKeeps.checked
    | with_reducible apply LmpKeeps.wait
    | with_reducible apply LmpKeeps.done
    | with_reducible apply LmpKeeps.ite
    | intro _ _ _
    | intro _ _
    | fail_if_no_progress (with_reducible refine Keeps.lit ?_ rfl rfl rfl rfl rfl)
    | split

theorem execTaskAbort_keeps {r : State} (m : Fin 64) (s : State) (h : Keeps r s) :
    OutKeeps r (execTaskAbort m s) := by
  unfold execTaskAbort
  repeat' first
    | with_reducible exact h
    | with_reducible assumption
    | with_reducible apply State.lmp_keeps
    | with_reducible apply taskAbortBody_keeps
    | with_reducible apply OutKeeps.next

theorem State.warmDue_keeps {r : State} (s : State) (cause : Nat) (h : Keeps r s) :
    Keeps r (State.warmDue s cause) := by
  unfold State.warmDue
  (try dsimp only)
  repeat' first
    | with_reducible exact h
    | with_reducible assumption
    | intro _ _ _
    | intro _ _
    | fail_if_no_progress (with_reducible refine Keeps.lit ?_ rfl rfl rfl rfl rfl)

theorem State.applyItem_keeps {r : State} (s : State) (i : CfgItem) (h : Keeps r s) :
    Keeps r (State.applyItem s i) := by
  unfold State.applyItem
  (try dsimp only)
  repeat' first
    | with_reducible exact h
    | with_reducible assumption
    | with_reducible apply State.modPart_keeps
    | with_reducible apply State.warmDue_keeps
    | with_reducible apply Keeps.ite
    | with_reducible apply Keeps.ite1
    | with_reducible apply Keeps.ite2
    | intro _ _ _
    | intro _ _
    | fail_if_no_progress (with_reducible refine Keeps.lit ?_ rfl rfl rfl rfl rfl)
    | split

theorem State.wipeTower_keeps {r : State} (s : State) (t : Nat) (h : Keeps r s) :
    Keeps r (State.wipeTower s t) := by
  unfold State.wipeTower
  (try dsimp only)
  repeat' first
    | with_reducible exact h
    | with_reducible assumption
    | with_reducible apply State.zero_keeps
    | with_reducible apply State.unretire_keeps
    | (with_reducible refine Keeps.foldl ?_ ?_)
    | intro _ _ _

theorem safetyConfigBody_keeps {r : State} (c : Ctx) (s : State) (h : Keeps r s) :
    LmpKeeps r (safetyConfigBody c s) := by
  unfold safetyConfigBody
  (try dsimp only)
  repeat' first
    | with_reducible exact h
    | with_reducible assumption
    | with_reducible apply State.wipeTower_keeps
    | with_reducible apply State.applyItem_keeps
    | with_reducible apply LmpKeeps.checked
    | with_reducible apply LmpKeeps.wait
    | with_reducible apply LmpKeeps.done
    | with_reducible apply LmpKeeps.ite
    | with_reducible apply Keeps.ite
    | (with_reducible refine Keeps.foldl ?_ ?_)

theorem State.safetyRow_keeps {r : State} (s : State) (m : Fin 64) (keys : Nat → Bool) (h : Keeps r s) :
    Keeps r (State.safetyRow s m keys) := by
  unfold State.safetyRow
  repeat' first
    | with_reducible exact h
    | with_reducible assumption
    | with_reducible apply State.lmp_keeps
    | with_reducible apply shared_keeps
    | with_reducible apply safetyConfigBody_keeps
    | with_reducible apply Keeps.ite
    | intro _ _ _
    | intro _ _
    | split

theorem execDetMode_keeps {r : State} (m : Fin 64) (s : State) (h : Keeps r s) :
    OutKeeps r (execDetMode m s) := by
  unfold execDetMode
  repeat' first
    | with_reducible exact h
    | with_reducible assumption
    | with_reducible apply State.safetyRow_keeps
    | with_reducible apply OutKeeps.next

theorem execMajorFrameUs_keeps {r : State} (m : Fin 64) (s : State) (h : Keeps r s) :
    OutKeeps r (execMajorFrameUs m s) := by
  unfold execMajorFrameUs
  repeat' first
    | with_reducible exact h
    | with_reducible assumption
    | with_reducible apply State.safetyRow_keeps
    | with_reducible apply OutKeeps.next

theorem execRhT1_keeps {r : State} (m : Fin 64) (s : State) (h : Keeps r s) :
    OutKeeps r (execRhT1 m s) := by
  unfold execRhT1
  repeat' first
    | with_reducible exact h
    | with_reducible assumption
    | with_reducible apply State.safetyRow_keeps
    | with_reducible apply OutKeeps.next

theorem execRhT2_keeps {r : State} (m : Fin 64) (s : State) (h : Keeps r s) :
    OutKeeps r (execRhT2 m s) := by
  unfold execRhT2
  repeat' first
    | with_reducible exact h
    | with_reducible assumption
    | with_reducible apply State.safetyRow_keeps
    | with_reducible apply OutKeeps.next

theorem execDual_keeps {r : State} (m : Fin 64) (s : State) (h : Keeps r s) :
    OutKeeps r (execDual m s) := by
  unfold execDual
  repeat' first
    | with_reducible exact h
    | with_reducible assumption
    | with_reducible apply State.safetyRow_keeps
    | with_reducible apply OutKeeps.next

theorem execSelftestRotation_keeps {r : State} (m : Fin 64) (s : State) (h : Keeps r s) :
    OutKeeps r (execSelftestRotation m s) := by
  unfold execSelftestRotation
  repeat' first
    | with_reducible exact h
    | with_reducible assumption
    | with_reducible apply State.safetyRow_keeps
    | with_reducible apply OutKeeps.next

theorem execTowerReset_keeps {r : State} (m : Fin 64) (s : State) (h : Keeps r s) :
    OutKeeps r (execTowerReset m s) := by
  unfold execTowerReset
  repeat' first
    | with_reducible exact h
    | with_reducible assumption
    | with_reducible apply State.safetyRow_keeps
    | with_reducible apply OutKeeps.next

theorem execWarmReset_keeps {r : State} (m : Fin 64) (s : State) (h : Keeps r s) :
    OutKeeps r (execWarmReset m s) := by
  unfold execWarmReset
  repeat' first
    | with_reducible exact h
    | with_reducible assumption
    | with_reducible apply State.safetyRow_keeps
    | with_reducible apply OutKeeps.next

theorem configRootBody_keeps {r : State} (c : Ctx) (s : State) (h : Keeps r s) :
    LmpKeeps r (configRootBody c s) := by
  unfold configRootBody
  (try dsimp only)
  repeat' first
    | with_reducible exact h
    | with_reducible assumption
    | with_reducible apply LmpKeeps.checked
    | with_reducible apply LmpKeeps.wait
    | with_reducible apply LmpKeeps.done
    | with_reducible apply LmpKeeps.ite

theorem execConfigRootGet_keeps {r : State} (src : CmdSrc) (s : State) (h : Keeps r s) :
    OutKeeps r (execConfigRootGet src s) := by
  unfold execConfigRootGet
  repeat' first
    | with_reducible exact h
    | with_reducible assumption
    | with_reducible apply State.lmpAny_keeps
    | with_reducible apply configRootBody_keeps
    | with_reducible apply OutKeeps.next

theorem execConfigAudit_keeps {r : State} (l : Fin 2) (leafOk rootOk : Bool) (s : State) (h : Keeps r s) :
    OutKeeps r (execConfigAudit l leafOk rootOk s) := by
  unfold execConfigAudit
  (try dsimp only)
  repeat' first
    | with_reducible exact h
    | with_reducible assumption
    | with_reducible apply State.record_keeps
    | with_reducible apply State.lockstep_keeps
    | with_reducible apply State.loseCupola_keeps
    | with_reducible apply OutKeeps.ite
    | with_reducible apply OutKeeps.next
    | with_reducible apply Keeps.ite
    | intro _ _ _
    | intro _ _
    | fail_if_no_progress (with_reducible refine Keeps.lit ?_ rfl rfl rfl rfl rfl)

theorem State.clearReady_keeps {r : State} (s : State) (p : Nat) (h : Keeps r s) :
    Keeps r (State.clearReady s p) := by
  unfold State.clearReady
  repeat' first
    | with_reducible exact h
    | with_reducible assumption
    | with_reducible apply State.modTwp_keeps

theorem State.postTwin_keeps {r : State} (s : State) (code payload : Nat) (h : Keeps r s) :
    Keeps r (State.postTwin s code payload) := by
  unfold State.postTwin
  repeat' first
    | with_reducible exact h
    | with_reducible assumption
    | with_reducible apply State.post_keeps

theorem State.rootMismatch_keeps {r : State} (s : State) (port sec u : Nat) (h : Keeps r s) :
    Keeps r (State.rootMismatch s port sec u) := by
  unfold State.rootMismatch
  (try dsimp only)
  repeat' first
    | with_reducible exact h
    | with_reducible assumption
    | with_reducible apply State.draw_keeps
    | with_reducible apply State.record_keeps
    | with_reducible apply State.postTwin_keeps
    | with_reducible apply State.faultRec_keeps
    | with_reducible apply State.modTwp_keeps
    | with_reducible apply Keeps.ite
    | with_reducible apply Keeps.ite1
    | with_reducible apply Keeps.ite2
    | (with_reducible refine Keeps.foldl ?_ ?_)
    | intro _ _ _

theorem execTwinRootCompare_keeps {r : State} (port : Fin 2) (frame : Nat) (roots diff : List Nat) (s : State) (h : Keeps r s) :
    OutKeeps r (execTwinRootCompare port frame roots diff s) := by
  unfold execTwinRootCompare
  (try dsimp only)
  repeat' first
    | with_reducible exact h
    | with_reducible assumption
    | with_reducible apply State.modTwp_keeps
    | with_reducible apply State.rootMismatch_keeps
    | with_reducible apply OutKeeps.ite
    | with_reducible apply OutKeeps.next
    | with_reducible apply Keeps.ite
    | with_reducible apply Keeps.ite1
    | with_reducible apply Keeps.ite2
    | (with_reducible refine Keeps.foldl ?_ ?_)
    | intro _ _ _
    | intro _ _
    | fail_if_no_progress (with_reducible refine Keeps.lit ?_ rfl rfl rfl rfl rfl)
    | split

theorem State.presentRoot_keeps {r : State} (s : State) (key : List Byte) (h : Keeps r s) :
    Keeps r (State.presentRoot s key) := by
  unfold State.presentRoot
  (try dsimp only)
  repeat' first
    | with_reducible exact h
    | with_reducible assumption
    | with_reducible apply Keeps.ite
    | intro _ _ _
    | intro _ _
    | fail_if_no_progress (with_reducible refine Keeps.lit ?_ rfl rfl rfl rfl rfl)

theorem State.drawBytes_keeps {r : State} : ∀ (x0 : Nat) (s : State) (_ : Keeps r s), Keeps r (State.drawBytes s x0).2
  | 0, s, h => by
    unfold State.drawBytes
    (try dsimp only)
    repeat' first
      | with_reducible exact h
  | n + 1, s, h => by
    unfold State.drawBytes
    (try dsimp only)
    repeat' first
      | with_reducible exact h
      | with_reducible assumption
      | with_reducible apply State.drawBytes_keeps
      | with_reducible apply State.draw_keeps

theorem State.measurements_keeps {r : State} (s : State) (l : Nat) (h : Keeps r s) : Keeps r (State.measurements s l).2.2 := by
  unfold State.measurements
  dsimp only
  repeat' first
    | with_reducible exact h
    | with_reducible apply State.drawBytes_keeps
    | split

theorem State.attestReport_keeps {r : State} (s : State) (nonce : List Byte) (l : Nat) (h : Keeps r s) :
    Keeps r (State.attestReport s nonce l).2 := by
  unfold State.attestReport
  (try dsimp only)
  repeat' first
    | with_reducible exact h
    | with_reducible assumption
    | with_reducible apply State.measurements_keeps

theorem attestBody_keeps {r : State} (c : Ctx) (s : State) (h : Keeps r s) :
    LmpKeeps r (attestBody c s) := by
  unfold attestBody
  (try dsimp only)
  repeat' first
    | with_reducible exact h
    | with_reducible assumption
    | with_reducible apply State.attestReport_keeps
    | with_reducible apply LmpKeeps.checked
    | with_reducible apply LmpKeeps.wait
    | with_reducible apply LmpKeeps.done
    | with_reducible apply LmpKeeps.ite
    | with_reducible apply Keeps.ite
    | with_reducible apply Keeps.ite1
    | with_reducible apply Keeps.ite2
    | intro _ _ _
    | intro _ _
    | fail_if_no_progress (with_reducible refine Keeps.lit ?_ rfl rfl rfl rfl rfl)
    | split

theorem execAttest_keeps {r : State} (src : CmdSrc) (s : State) (h : Keeps r s) :
    OutKeeps r (execAttest src s) := by
  unfold execAttest
  repeat' first
    | with_reducible exact h
    | with_reducible assumption
    | with_reducible apply State.lmpAny_keeps
    | with_reducible apply attestBody_keeps
    | with_reducible apply OutKeeps.next

theorem lifecycleBody_keeps {r : State} (c : Ctx) (s : State) (h : Keeps r s) :
    LmpKeeps r (lifecycleBody c s) := by
  unfold lifecycleBody
  (try dsimp only)
  repeat' first
    | with_reducible exact h
    | with_reducible assumption
    | with_reducible apply State.warmDue_keeps
    | with_reducible apply LmpKeeps.checked
    | with_reducible apply LmpKeeps.wait
    | with_reducible apply LmpKeeps.done
    | with_reducible apply LmpKeeps.ite
    | intro _ _ _
    | intro _ _
    | fail_if_no_progress (with_reducible refine Keeps.lit ?_ rfl rfl rfl rfl rfl)

theorem execLifecycleAdvance_keeps {r : State} (m : Fin 64) (s : State) (h : Keeps r s) :
    OutKeeps r (execLifecycleAdvance m s) := by
  unfold execLifecycleAdvance
  repeat' first
    | with_reducible exact h
    | with_reducible assumption
    | with_reducible apply State.lmp_keeps
    | with_reducible apply lifecycleBody_keeps
    | with_reducible apply OutKeeps.next

end Sys2Proof.Machine
end

