-- ==== Sys2Proof/Laws/KeepsPorts.lean ====
section
/-! SUPPORT. What each operation keeps (Sys2Proof/Laws/Keeps.lean): BAR0, I3C, the twin. -/

namespace Sys2Proof.Machine

theorem State.bootErr_keeps {r : State} (s : State) (slot code : Nat) (h : Keeps r s) :
    Keeps r (State.bootErr s slot code) := by
  unfold State.bootErr
  (try dsimp only)
  repeat' first
    | with_reducible exact h
    | with_reducible assumption
    | with_reducible apply Keeps.ite
    | intro _ _ _
    | intro _ _
    | fail_if_no_progress (with_reducible refine Keeps.lit ?_ rfl rfl rfl rfl rfl)

theorem State.recoveryWait_keeps {r : State} (s : State) (h : Keeps r s) :
    Keeps r (State.recoveryWait s) := by
  unfold State.recoveryWait
  (try dsimp only)
  repeat' first
    | with_reducible exact h
    | with_reducible assumption
    | intro _ _ _
    | intro _ _
    | fail_if_no_progress (with_reducible refine Keeps.lit ?_ rfl rfl rfl rfl rfl)

theorem State.trySlot_keeps {r : State} (s : State) (h : Keeps r s) :
    Keeps r (State.trySlot s) := by
  unfold State.trySlot
  (try dsimp only)
  repeat' first
    | with_reducible exact h
    | with_reducible assumption
    | with_reducible apply State.recoveryWait_keeps
    | intro _ _ _
    | intro _ _
    | fail_if_no_progress (with_reducible refine Keeps.lit ?_ rfl rfl rfl rfl rfl)
    | split

theorem State.bootGo_keeps {r : State} (s : State) (ep : Nat) (h : Keeps r s) :
    Keeps r (State.bootGo s ep) := by
  unfold State.bootGo
  (try dsimp only)
  repeat' first
    | with_reducible exact h
    | with_reducible assumption
    | with_reducible apply State.trySlot_keeps
    | with_reducible apply Keeps.ite
    | intro _ _ _
    | intro _ _
    | fail_if_no_progress (with_reducible refine Keeps.lit ?_ rfl rfl rfl rfl rfl)

theorem execBootGo_keeps {r : State} (ep : Fin 2) (s : State) (h : Keeps r s) :
    OutKeeps r (execBootGo ep s) := by
  unfold execBootGo
  repeat' first
    | with_reducible exact h
    | with_reducible assumption
    | with_reducible apply State.bootGo_keeps
    | with_reducible apply OutKeeps.next

theorem State.ignoreMbx_keeps {r : State} (s : State) (m : Nat) (h : Keeps r s) :
    Keeps r (State.ignoreMbx s m) := by
  unfold State.ignoreMbx
  repeat' first
    | with_reducible exact h
    | with_reducible assumption
    | with_reducible apply State.modMbx_keeps
    | with_reducible apply State.record_keeps
    | with_reducible apply Keeps.ite

theorem State.mbxState_keeps {r : State} (s : State) (m next : Nat) (h : Keeps r s) :
    Keeps r (State.mbxState s m next) := by
  unfold State.mbxState
  repeat' first
    | with_reducible exact h
    | with_reducible assumption
    | with_reducible apply State.modMbx_keeps
    | with_reducible apply State.ignoreMbx_keeps
    | with_reducible apply Keeps.ite

theorem State.mbxGo_keeps {r : State} (s : State) (m ep : Nat) (h : Keeps r s) :
    Keeps r (State.mbxGo s m ep) := by
  unfold State.mbxGo
  repeat' first
    | with_reducible exact h
    | with_reducible assumption
    | with_reducible apply State.modMbx_keeps
    | with_reducible apply State.rejectHeaders_keeps
    | with_reducible apply State.ignoreMbx_keeps
    | with_reducible apply Keeps.ite

theorem execMbxStateFilling_keeps {r : State} (m : Fin 64) (xep : Fin 2) (s : State) (h : Keeps r s) :
    OutKeeps r (execMbxStateFilling m xep s) := by
  unfold execMbxStateFilling
  repeat' first
    | with_reducible exact h
    | with_reducible assumption
    | with_reducible apply State.mbxState_keeps
    | with_reducible apply OutKeeps.next

theorem execMbxStateFree_keeps {r : State} (m : Fin 64) (xep : Fin 2) (s : State) (h : Keeps r s) :
    OutKeeps r (execMbxStateFree m xep s) := by
  unfold execMbxStateFree
  repeat' first
    | with_reducible exact h
    | with_reducible assumption
    | with_reducible apply State.mbxState_keeps
    | with_reducible apply OutKeeps.next

theorem execMbxGo_keeps {r : State} (m : Fin 64) (ep : Fin 2) (s : State) (h : Keeps r s) :
    OutKeeps r (execMbxGo m ep s) := by
  unfold execMbxGo
  repeat' first
    | with_reducible exact h
    | with_reducible assumption
    | with_reducible apply State.mbxGo_keeps
    | with_reducible apply OutKeeps.next

theorem State.mbxWrite_keeps {r : State} (s : State) (m ep off : Nat) (wide : Bool) (v : W64) (h : Keeps r s) :
    Keeps r (State.mbxWrite s m ep off wide v) := by
  unfold State.mbxWrite
  (try dsimp only)
  repeat' first
    | with_reducible exact h
    | with_reducible assumption
    | with_reducible apply State.modMbx_keeps
    | with_reducible apply State.ignoreMbx_keeps
    | with_reducible apply State.mbxState_keeps
    | with_reducible apply State.mbxGo_keeps
    | with_reducible apply Keeps.ite

theorem State.winCtrl_keeps {r : State} (s : State) (ep w : Nat) (v : W64) (h : Keeps r s) :
    Keeps r (State.winCtrl s ep w v) := by
  unfold State.winCtrl
  (try dsimp only)
  repeat' first
    | with_reducible exact h
    | with_reducible assumption
    | with_reducible apply State.modEp_keeps

theorem execWinCtrlWrite_keeps {r : State} (ep : Fin 2) (w : Fin 16) (v : W64) (s : State) (h : Keeps r s) :
    OutKeeps r (execWinCtrlWrite ep w v s) := by
  unfold execWinCtrlWrite
  repeat' first
    | with_reducible exact h
    | with_reducible assumption
    | with_reducible apply State.winCtrl_keeps
    | with_reducible apply OutKeeps.next

theorem State.winWrite_keeps {r : State} (s : State) (ep off : Nat) (wide : Bool) (v : W64) (h : Keeps r s) :
    Keeps r (State.winWrite s ep off wide v) := by
  unfold State.winWrite
  (try dsimp only)
  repeat' first
    | with_reducible exact h
    | with_reducible assumption
    | with_reducible apply State.modEp_keeps
    | with_reducible apply State.winCtrl_keeps
    | with_reducible apply Keeps.ite

theorem State.bootWrite_keeps {r : State} (s : State) (ep off : Nat) (wide : Bool) (v : W64) (h : Keeps r s) :
    Keeps r (State.bootWrite s ep off wide v) := by
  unfold State.bootWrite
  (try dsimp only)
  repeat' first
    | with_reducible exact h
    | with_reducible assumption
    | with_reducible apply State.bootGo_keeps
    | with_reducible apply State.presentRoot_keeps
    | with_reducible apply Keeps.ite
    | intro _ _ _
    | intro _ _
    | fail_if_no_progress (with_reducible refine Keeps.lit ?_ rfl rfl rfl rfl rfl)

theorem State.sqWrite_keeps {r : State} (s : State) (q : QueueId) (off : Nat) (wide : Bool) (v : W64) (h : Keeps r s) :
    Keeps r (State.sqWrite s q off wide v) := by
  unfold State.sqWrite
  (try dsimp only)
  repeat' first
    | with_reducible exact h
    | with_reducible assumption
    | with_reducible apply State.sqCtrl_keeps
    | with_reducible apply State.sqConfig_keeps
    | with_reducible apply State.sqStatus_keeps
    | with_reducible apply State.sqPush_keeps
    | with_reducible apply Keeps.ite

theorem State.bar0Write_keeps {r : State} (s : State) (ep off : Nat) (wide : Bool) (v : W64) (h : Keeps r s) :
    Keeps r (State.bar0Write s ep off wide v) := by
  unfold State.bar0Write
  repeat' first
    | with_reducible exact h
    | with_reducible assumption
    | with_reducible apply State.bootWrite_keeps
    | with_reducible apply State.sqWrite_keeps
    | with_reducible apply State.evqIrq_keeps
    | with_reducible apply State.ctcStatusWrite_keeps
    | with_reducible apply State.mbxWrite_keeps
    | with_reducible apply State.winWrite_keeps
    | with_reducible apply Keeps.ite

theorem State.seqWrite_keeps {r : State} (s : State) (slot word : Nat) (v : W64) (h : Keeps r s) :
    Keeps r (State.seqWrite s slot word v) := by
  unfold State.seqWrite
  repeat' first
    | with_reducible exact h
    | with_reducible assumption
    | with_reducible apply State.modSeq_keeps
    | intro _ _ _
    | intro _ _
    | fail_if_no_progress (with_reducible refine Keeps.lit ?_ rfl rfl rfl rfl rfl)
    | split

theorem execRegisterWrite_keeps {r : State} (tgt : RegTarget) (v : W64) (s : State) (h : Keeps r s) :
    OutKeeps r (execRegisterWrite tgt v s) := by
  unfold execRegisterWrite
  repeat' first
    | with_reducible exact h
    | with_reducible assumption
    | with_reducible apply State.bar0Write_keeps
    | with_reducible apply State.modEp_keeps
    | with_reducible apply State.msix_keeps
    | with_reducible apply State.sqWrite_keeps
    | with_reducible apply State.seqWrite_keeps
    | with_reducible apply OutKeeps.ite
    | with_reducible apply OutKeeps.next
    | with_reducible apply Keeps.ite
    | with_reducible apply Keeps.ite1
    | with_reducible apply Keeps.ite2
    | intro _ _ _
    | intro _ _
    | fail_if_no_progress (with_reducible refine Keeps.lit ?_ rfl rfl rfl rfl rfl)
    | split

theorem State.smReadByte_keeps {r : State} (s : State) (l : Nat) (h : Keeps r s) :
    Keeps r (State.smReadByte s l).2 := by
  unfold State.smReadByte
  (try dsimp only)
  repeat' first
    | with_reducible exact h
    | with_reducible assumption
    | with_reducible apply State.modSm_keeps
    | with_reducible apply Keeps.ite

theorem State.readBytes_keeps {r : State} (one : State → Sys2Proof.Byte × State) (ho : ∀ s, Keeps r s → Keeps r (one s).2) :
    ∀ (n : Nat) (s : State) (_ : Keeps r s), Keeps r (State.readBytes one n s).2
  | 0, _, h => h
  | n + 1, s, h => readBytes_keeps one ho n _ (ho s h)

theorem State.smGo_keeps {r : State} (s : State) (l : Nat) (h : Keeps r s) :
    Keeps r (State.smGo s l) := by
  unfold State.smGo
  (try dsimp only)
  repeat' first
    | with_reducible exact h
    | with_reducible assumption
    | with_reducible apply State.modSm_keeps
    | with_reducible apply State.smComplete_keeps
    | with_reducible apply Keeps.ite

theorem State.smWriteByte_keeps {r : State} (s : State) (l : Nat) (b : Byte) (h : Keeps r s) :
    Keeps r (State.smWriteByte s l b) := by
  unfold State.smWriteByte
  (try dsimp only)
  repeat' first
    | with_reducible exact h
    | with_reducible assumption
    | with_reducible apply State.modSm_keeps
    | with_reducible apply State.smGo_keeps
    | with_reducible apply Keeps.ite

theorem State.rcvReadByte_keeps {r : State} (s : State) (l : Nat) (h : Keeps r s) :
    Keeps r (State.rcvReadByte s l).2 := by
  unfold State.rcvReadByte
  (try dsimp only)
  repeat' first
    | with_reducible exact h
    | with_reducible assumption
    | intro _ _ _
    | intro _ _
    | fail_if_no_progress (with_reducible refine Keeps.lit ?_ rfl rfl rfl rfl rfl)

theorem State.rcvData_keeps {r : State} (s : State) (l : Nat) (b : Byte) (h : Keeps r s) :
    Keeps r (State.rcvData s l b) := by
  unfold State.rcvData
  (try dsimp only)
  repeat' first
    | with_reducible exact h
    | with_reducible assumption
    | with_reducible apply Keeps.ite
    | intro _ _ _
    | intro _ _
    | fail_if_no_progress (with_reducible refine Keeps.lit ?_ rfl rfl rfl rfl rfl)

theorem State.rcvGo_keeps {r : State} (s : State) (l : Nat) (h : Keeps r s) :
    Keeps r (State.rcvGo s l) := by
  unfold State.rcvGo
  (try dsimp only)
  repeat' first
    | with_reducible exact h
    | with_reducible assumption
    | with_reducible apply Keeps.ite
    | intro _ _ _
    | intro _ _
    | fail_if_no_progress (with_reducible refine Keeps.lit ?_ rfl rfl rfl rfl rfl)

theorem State.rcvWriteAt_keeps {r : State} (s : State) (l off : Nat) (b : Byte) (h : Keeps r s) :
    Keeps r (State.rcvWriteAt s l off b) := by
  unfold State.rcvWriteAt
  (try dsimp only)
  repeat' first
    | with_reducible exact h
    | with_reducible assumption
    | with_reducible apply State.rcvData_keeps
    | with_reducible apply State.rcvGo_keeps
    | with_reducible apply State.presentRoot_keeps
    | with_reducible apply Keeps.ite
    | intro _ _ _
    | intro _ _
    | fail_if_no_progress (with_reducible refine Keeps.lit ?_ rfl rfl rfl rfl rfl)

theorem State.rcvWriteByte_keeps {r : State} (s : State) (l : Nat) (b : Byte) (h : Keeps r s) :
    Keeps r (State.rcvWriteByte s l b) := by
  unfold State.rcvWriteByte
  (try dsimp only)
  repeat' first
    | with_reducible exact h
    | with_reducible assumption
    | with_reducible apply State.rcvWriteAt_keeps
    | with_reducible apply Keeps.ite
    | intro _ _ _
    | intro _ _
    | fail_if_no_progress (with_reducible refine Keeps.lit ?_ rfl rfl rfl rfl rfl)

theorem execI3cPrivateWrite_keeps {r : State} (l : Fin 2) (recovery : Bool) (data : List Byte) (s : State) (h : Keeps r s) :
    OutKeeps r (execI3cPrivateWrite l recovery data s) := by
  unfold execI3cPrivateWrite
  (try dsimp only)
  repeat' first
    | with_reducible exact h
    | with_reducible assumption
    | with_reducible apply State.rcvWriteByte_keeps
    | with_reducible apply State.smWriteByte_keeps
    | with_reducible apply State.modSm_keeps
    | with_reducible apply OutKeeps.ite
    | with_reducible apply OutKeeps.next
    | with_reducible apply Keeps.ite
    | with_reducible apply Keeps.ite1
    | with_reducible apply Keeps.ite2
    | (with_reducible refine Keeps.foldl ?_ ?_)
    | intro _ _ _
    | intro _ _
    | fail_if_no_progress (with_reducible refine Keeps.lit ?_ rfl rfl rfl rfl rfl)
    | split

theorem execI3cPrivateRead_keeps {r : State} (l : Fin 2) (recovery : Bool) (n : Nat) (s : State) (h : Keeps r s) :
    OutKeeps r (execI3cPrivateRead l recovery n s) := by
  have k : Keeps r (State.readBytes (fun s => if recovery then s.rcvReadByte l.val else s.smReadByte l.val) n s).2 := by
    apply State.readBytes_keeps
    · intro t ht
      split
      · exact State.rcvReadByte_keeps _ _ ht
      · exact State.smReadByte_keeps _ _ ht
    · exact h
  exact State.answer_keeps _ _ _ k

theorem execRcvData_keeps {r : State} (l : Fin 2) (b : Byte) (s : State) (h : Keeps r s) :
    OutKeeps r (execRcvData l b s) := by
  unfold execRcvData
  repeat' first
    | with_reducible exact h
    | with_reducible assumption
    | with_reducible apply State.rcvData_keeps
    | with_reducible apply OutKeeps.next

theorem execRcvGo_keeps {r : State} (l : Fin 2) (s : State) (h : Keeps r s) :
    OutKeeps r (execRcvGo l s) := by
  unfold execRcvGo
  repeat' first
    | with_reducible exact h
    | with_reducible assumption
    | with_reducible apply State.rcvGo_keeps
    | with_reducible apply OutKeeps.next

theorem execI3cCcc_keeps {r : State} (l : Fin 2) (code : Ccc) (s : State) (h : Keeps r s) :
    OutKeeps r (execI3cCcc l code s) := by
  unfold execI3cCcc
  (try dsimp only)
  repeat' first
    | with_reducible exact h
    | with_reducible assumption
    | with_reducible apply State.answer_keeps
    | with_reducible apply State.modSm_keeps
    | with_reducible apply OutKeeps.ite
    | with_reducible apply OutKeeps.next
    | with_reducible apply Keeps.ite
    | with_reducible apply Keeps.ite1
    | with_reducible apply Keeps.ite2
    | intro _ _ _
    | intro _ _
    | fail_if_no_progress (with_reducible refine Keeps.lit ?_ rfl rfl rfl rfl rfl)
    | split

theorem execHotJoin_keeps {r : State} (side : Fin 2) (s : State) (h : Keeps r s) :
    OutKeeps r (execHotJoin side s) := by
  unfold execHotJoin
  (try dsimp only)
  repeat' first
    | with_reducible exact h
    | with_reducible assumption
    | with_reducible apply State.draw_keeps
    | with_reducible apply OutKeeps.ite
    | with_reducible apply OutKeeps.next
    | with_reducible apply Keeps.ite
    | with_reducible apply Keeps.ite1
    | with_reducible apply Keeps.ite2
    | intro _ _ _
    | intro _ _
    | fail_if_no_progress (with_reducible refine Keeps.lit ?_ rfl rfl rfl rfl rfl)
    | split

theorem State.modTport_keeps {r : State} (s : State) (i : Nat) (f : TwinPort → TwinPort) (h : Keeps r s) :
    Keeps r (State.modTport s i f) := by
  unfold State.modTport
  (try dsimp only)
  repeat' first
    | with_reducible exact h
    | with_reducible assumption
    | intro _ _ _
    | intro _ _
    | fail_if_no_progress (with_reducible refine Keeps.lit ?_ rfl rfl rfl rfl rfl)

theorem State.portDown_keeps {r : State} (s : State) (i : Nat) (h : Keeps r s) : Keeps r (State.portDown s i) := by
  unfold State.portDown
  exact Keeps.ite (State.modTport_keeps _ _ _ h) (State.modTport_keeps _ _ _ (State.modTport_keeps _ _ _ h))

theorem State.twinFault_keeps {r : State} (s : State) (port : Nat) (h : Keeps r s) :
    Keeps r (State.twinFault s port) := by
  unfold State.twinFault
  repeat' first
    | with_reducible exact h
    | with_reducible assumption
    | with_reducible apply State.record_keeps

theorem execTwinIdleFlit_keeps {r : State} (port : Fin 2) (s : State) (h : Keeps r s) :
    OutKeeps r (execTwinIdleFlit port s) := by
  unfold execTwinIdleFlit
  repeat' first
    | with_reducible exact h
    | with_reducible assumption
    | with_reducible apply State.modTport_keeps
    | with_reducible apply OutKeeps.ite
    | with_reducible apply OutKeeps.next
    | with_reducible apply Keeps.ite

theorem State.losePartner_keeps {r : State} (s : State) (h : Keeps r s) :
    Keeps r (State.losePartner s) := by
  unfold State.losePartner
  (try dsimp only)
  repeat' first
    | with_reducible exact h
    | with_reducible assumption
    | with_reducible apply State.complete_keeps
    | (with_reducible refine Keeps.foldl ?_ ?_)
    | intro _ _ _
    | intro _ _
    | fail_if_no_progress (with_reducible refine Keeps.lit ?_ rfl rfl rfl rfl rfl)
    | split

theorem execTwinPortDown_keeps {r : State} (port : Fin 2) (split : Bool) (s : State) (h : Keeps r s) :
    OutKeeps r (execTwinPortDown port split s) := by
  unfold execTwinPortDown
  (try dsimp only)
  repeat' first
    | with_reducible exact h
    | with_reducible assumption
    | with_reducible apply State.elapse_keeps
    | with_reducible apply State.portDown_keeps
    | with_reducible apply State.twinFault_keeps
    | with_reducible apply State.postTwin_keeps
    | with_reducible apply State.faultRec_keeps
    | with_reducible apply OutKeeps.ite
    | with_reducible apply OutKeeps.next
    | with_reducible apply Keeps.ite
    | intro _ _ _
    | intro _ _
    | fail_if_no_progress (with_reducible refine Keeps.lit ?_ rfl rfl rfl rfl rfl)

theorem twinPairBody_keeps {r : State} (nonce : List Byte) (c : Ctx) (s : State) (h : Keeps r s) :
    LmpKeeps r (twinPairBody nonce c s) := by
  unfold twinPairBody
  (try dsimp only)
  repeat' first
    | with_reducible exact h
    | with_reducible assumption
    | with_reducible apply State.record_keeps
    | with_reducible apply State.presentRoot_keeps
    | with_reducible apply State.send_keeps
    | with_reducible apply LmpKeeps.checked
    | with_reducible apply LmpKeeps.wait
    | with_reducible apply LmpKeeps.done
    | with_reducible apply LmpKeeps.ite
    | with_reducible apply Keeps.ite
    | with_reducible apply Keeps.ite1
    | with_reducible apply Keeps.ite2
    | intro _ _ _
    | intro _ _
    | fail_if_no_progress (with_reducible refine Keeps.lit ?_ rfl rfl rfl rfl rfl)

theorem execTwinPair_keeps {r : State} (m : Fin 64) (nonce : List Byte) (s : State) (h : Keeps r s) :
    OutKeeps r (execTwinPair m nonce s) := by
  unfold execTwinPair
  repeat' first
    | with_reducible exact h
    | with_reducible assumption
    | with_reducible apply State.lmp_keeps
    | with_reducible apply twinPairBody_keeps
    | with_reducible apply OutKeeps.next

theorem State.standbyCause_keeps {r : State} (s : State) (p : Nat) (h : Keeps r s) :
    Keeps r (State.standbyCause s p) := by
  unfold State.standbyCause
  (try dsimp only)
  repeat' first
    | with_reducible exact h
    | with_reducible assumption
    | with_reducible apply State.suspend_keeps
    | with_reducible apply State.modPart_keeps
    | with_reducible apply Keeps.ite

theorem State.startCopies_keeps {r : State} (s : State) (h : Keeps r s) :
    Keeps r (State.startCopies s) := by
  unfold State.startCopies
  repeat' first
    | with_reducible exact h
    | with_reducible assumption
    | with_reducible apply State.sendCopy_keeps
    | with_reducible apply Keeps.ite
    | (with_reducible refine Keeps.foldl ?_ ?_)
    | intro _ _ _

theorem State.enterPair_keeps {r0 : State} (s : State) (r : List Byte) (version : Nat) (h : Keeps r0 s) :
    Keeps r0 (State.enterPair s r version) := by
  unfold State.enterPair
  (try dsimp only)
  repeat' first
    | with_reducible exact h
    | with_reducible assumption
    | with_reducible apply shared_keeps
    | with_reducible apply State.modPart_keeps
    | with_reducible apply State.standbyCause_keeps
    | with_reducible apply State.startCopies_keeps
    | with_reducible apply State.finishAll_keeps
    | with_reducible apply Keeps.ite
    | (with_reducible refine Keeps.foldl ?_ ?_)
    | intro _ _ _
    | intro _ _
    | fail_if_no_progress (with_reducible refine Keeps.lit ?_ rfl rfl rfl rfl rfl)

theorem State.alignCtc_keeps {r : State} (s : State) (ps : Int) (h : Keeps r s) :
    Keeps r (State.alignCtc s ps) := by
  unfold State.alignCtc
  (try dsimp only)
  repeat' first
    | with_reducible exact h
    | with_reducible assumption
    | with_reducible apply State.stepCtc_keeps
    | with_reducible apply State.finishAll_keeps
    | with_reducible apply State.steer_keeps
    | with_reducible apply State.standbyCause_keeps
    | with_reducible apply Keeps.ite
    | (with_reducible refine Keeps.foldl ?_ ?_)
    | intro _ _ _
    | intro _ _
    | fail_if_no_progress (with_reducible refine Keeps.lit ?_ rfl rfl rfl rfl rfl)

theorem execTwinTimeExchange_keeps {r : State} (offsetPs : Int) (missing : Bool) (s : State) (h : Keeps r s) :
    OutKeeps r (execTwinTimeExchange offsetPs missing s) := by
  unfold execTwinTimeExchange
  (try dsimp only)
  repeat' first
    | with_reducible exact h
    | with_reducible assumption
    | with_reducible apply State.alignCtc_keeps
    | with_reducible apply State.steer_keeps
    | with_reducible apply OutKeeps.ite
    | with_reducible apply OutKeeps.next
    | with_reducible apply Keeps.ite
    | intro _ _ _
    | intro _ _
    | fail_if_no_progress (with_reducible refine Keeps.lit ?_ rfl rfl rfl rfl rfl)

theorem State.pairFails_keeps {r : State} (s : State) (status : Nat) (h : Keeps r s) :
    Keeps r (State.pairFails s status) := by
  unfold State.pairFails
  repeat' first
    | with_reducible exact h
    | with_reducible assumption
    | with_reducible apply State.twinFault_keeps
    | with_reducible apply State.finishAll_keeps

theorem State.pairAuth_keeps {r : State} (s : State) (nonce sig : List Byte) (vmin vmax : Nat) (h : Keeps r s) :
    Keeps r (State.pairAuth s nonce sig vmin vmax) := by
  unfold State.pairAuth
  (try dsimp only)
  repeat' first
    | with_reducible exact h
    | with_reducible assumption
    | with_reducible apply State.record_keeps
    | with_reducible apply State.send_keeps
    | with_reducible apply State.pairFails_keeps
    | with_reducible apply State.enterPair_keeps
    | with_reducible apply Keeps.ite
    | with_reducible apply Keeps.ite1
    | with_reducible apply Keeps.ite2
    | intro _ _ _
    | intro _ _
    | fail_if_no_progress (with_reducible refine Keeps.lit ?_ rfl rfl rfl rfl rfl)
    | split

theorem execPairingAuth_keeps {r : State} (nonce sig : List Byte) (vmin vmax : Nat) (s : State) (h : Keeps r s) :
    OutKeeps r (execPairingAuth nonce sig vmin vmax s) := by
  unfold execPairingAuth
  repeat' first
    | with_reducible exact h
    | with_reducible assumption
    | with_reducible apply State.pairAuth_keeps
    | with_reducible apply OutKeeps.next

theorem execTwinPairTimeout_keeps {r : State} (s : State) (h : Keeps r s) :
    OutKeeps r (execTwinPairTimeout s) := by
  unfold execTwinPairTimeout
  repeat' first
    | with_reducible exact h
    | with_reducible assumption
    | with_reducible apply State.elapse_keeps
    | with_reducible apply State.finishAll_keeps
    | with_reducible apply OutKeeps.ite
    | with_reducible apply OutKeeps.next

theorem State.applyRole_keeps {r : State} (s : State) (mode : Nat) (mirror home : BitVec 16) (h : Keeps r s) :
    Keeps r (State.applyRole s mode mirror home) := by
  unfold State.applyRole
  (try dsimp only)
  repeat' first
    | with_reducible exact h
    | with_reducible assumption
    | with_reducible apply State.standbyCause_keeps
    | with_reducible apply State.startCopies_keeps
    | (with_reducible refine Keeps.foldl ?_ ?_)
    | intro _ _ _
    | intro _ _
    | fail_if_no_progress (with_reducible refine Keeps.lit ?_ rfl rfl rfl rfl rfl)

theorem twinRoleBody_keeps {r : State} (diff : List Nat) (det : Bool) (c : Ctx) (s : State) (h : Keeps r s) :
    LmpKeeps r (twinRoleBody diff det c s) := by
  unfold twinRoleBody
  (try dsimp only)
  repeat' first
    | with_reducible exact h
    | with_reducible assumption
    | with_reducible apply State.applyRole_keeps
    | with_reducible apply LmpKeeps.checked
    | with_reducible apply LmpKeeps.wait
    | with_reducible apply LmpKeeps.done

theorem execTwinRole_keeps {r : State} (m : Fin 64) (diff : List Nat) (det : Bool) (s : State) (h : Keeps r s) :
    OutKeeps r (execTwinRole m diff det s) := by
  unfold execTwinRole
  repeat' first
    | with_reducible exact h
    | with_reducible assumption
    | with_reducible apply State.lmp_keeps
    | with_reducible apply shared_keeps
    | with_reducible apply twinRoleBody_keeps
    | with_reducible apply OutKeeps.next
    | intro _ _ _

theorem standDownBody_keeps {r : State} (c : Ctx) (s : State) (h : Keeps r s) :
    LmpKeeps r (standDownBody c s) := by
  unfold standDownBody
  (try dsimp only)
  repeat' first
    | with_reducible exact h
    | with_reducible assumption
    | with_reducible apply State.suspend_keeps
    | with_reducible apply LmpKeeps.checked
    | with_reducible apply LmpKeeps.wait
    | with_reducible apply LmpKeeps.done
    | with_reducible apply LmpKeeps.ite
    | with_reducible apply Keeps.ite
    | (with_reducible refine Keeps.foldl ?_ ?_)
    | intro _ _ _
    | intro _ _
    | fail_if_no_progress (with_reducible refine Keeps.lit ?_ rfl rfl rfl rfl rfl)

theorem execStandDown_keeps {r : State} (m : Fin 64) (s : State) (h : Keeps r s) :
    OutKeeps r (execStandDown m s) := by
  unfold execStandDown
  repeat' first
    | with_reducible exact h
    | with_reducible assumption
    | with_reducible apply State.lmp_keeps
    | with_reducible apply standDownBody_keeps
    | with_reducible apply OutKeeps.next

theorem twinHandoverBody_keeps {r : State} (c : Ctx) (s : State) (h : Keeps r s) :
    LmpKeeps r (twinHandoverBody c s) := by
  unfold twinHandoverBody
  (try dsimp only)
  repeat' first
    | with_reducible exact h
    | with_reducible assumption
    | with_reducible apply State.send_keeps
    | with_reducible apply LmpKeeps.checked
    | with_reducible apply LmpKeeps.wait
    | with_reducible apply LmpKeeps.done
    | with_reducible apply LmpKeeps.ite
    | intro _ _ _
    | intro _ _
    | fail_if_no_progress (with_reducible refine Keeps.lit ?_ rfl rfl rfl rfl rfl)

theorem execTwinHandover_keeps {r : State} (m : Fin 64) (s : State) (h : Keeps r s) :
    OutKeeps r (execTwinHandover m s) := by
  unfold execTwinHandover
  repeat' first
    | with_reducible exact h
    | with_reducible assumption
    | with_reducible apply State.lmp_keeps
    | with_reducible apply twinHandoverBody_keeps
    | with_reducible apply OutKeeps.next

theorem State.handFrame_keeps {r : State} (s : State) (h : Keeps r s) :
    Keeps r (State.handFrame s) := by
  unfold State.handFrame
  (try dsimp only)
  repeat' first
    | with_reducible exact h
    | with_reducible assumption
    | with_reducible apply State.standbyCause_keeps
    | with_reducible apply State.postTwin_keeps
    | with_reducible apply State.finishAll_keeps
    | with_reducible apply Keeps.ite
    | with_reducible apply Keeps.ite1
    | with_reducible apply Keeps.ite2
    | (with_reducible refine Keeps.foldl ?_ ?_)
    | intro _ _ _
    | intro _ _
    | fail_if_no_progress (with_reducible refine Keeps.lit ?_ rfl rfl rfl rfl rfl)
    | split

theorem sharedBody_keeps {r : State} (op : Nat) (f : Sys2Proof.ImageFacts) (a2 : Ctx) (a3 : State) (h : Keeps r a3) : LmpKeeps r (sharedBody op f a2 a3) := by
  unfold sharedBody
  repeat' first
    | with_reducible exact h
    | with_reducible assumption
    | with_reducible apply LmpKeeps.checked
    | with_reducible apply LmpKeeps.done
    | with_reducible apply LmpKeeps.wait
    | with_reducible apply LmpKeeps.ite
    | with_reducible apply partitionCreateBody_keeps
    | with_reducible apply partitionEndBody_keeps
    | with_reducible apply partitionSetShareBody_keeps
    | with_reducible apply imageLoadBody_keeps
    | with_reducible apply imageUnloadBody_keeps
    | with_reducible apply seqOpenBody_keeps
    | with_reducible apply seqCloseBody_keeps
    | with_reducible apply seqForkBody_keeps
    | with_reducible apply pageTableEditBody_keeps
    | with_reducible apply seqWatermarksBody_keeps
    | with_reducible apply seqSwapPolicyBody_keeps
    | with_reducible apply worldUpdateBody_keeps
    | with_reducible apply safetyConfigBody_keeps
    | with_reducible apply twinRoleBody_keeps
    | with_reducible apply Keeps.ite
    | (with_reducible refine Keeps.foldl ?_ ?_)
    | intro _ _ _
    | fail_if_no_progress (with_reducible refine Keeps.lit ?_ rfl rfl rfl rfl rfl)
    | split

theorem State.applyShared_keeps {r : State} (s : State) (c : SharedCmd) (f : Sys2Proof.ImageFacts) (h : Keeps r s) :
    Keeps r (State.applyShared s c f) := by
  unfold State.applyShared
  have k : LmpKeeps r ((sharedBody c.op f { m := c.mbx.getD 0, part := c.part, pl := c.payload, forwarded := true } s).counted c.op) :=
    LmpRes.counted_keeps _ _ (sharedBody_keeps _ _ _ _ h)
  (try dsimp only)
  split
  · rename_i e _; exact State.complete_keeps _ _ _ _ _ (Keeps.of_done e k)
  · rename_i e _
    split
    · exact State.bump_keeps _ (Keeps.of_done e k)
    · exact Keeps.of_done e k
  · rename_i e _; exact State.modMbx_keeps _ _ _ (Keeps.of_wait e k)
  · rename_i e _; exact State.modSeq_keeps _ _ _ (Keeps.of_wait e k)
  · rename_i e _; exact Keeps.of_wait e k

theorem State.applyAll_keeps {r : State} : ∀ (x0 : List SharedCmd) (x1 : List ImageFacts) (s : State) (_ : Keeps r s), Keeps r (State.applyAll s x0 x1)
  | [], _, s, h => by
    unfold State.applyAll
    repeat' first
      | with_reducible exact h
  | c :: t, fs, s, h => by
    unfold State.applyAll
    repeat' first
      | with_reducible exact h
      | with_reducible assumption
      | with_reducible apply State.applyAll_keeps
      | with_reducible apply State.applyShared_keeps
      | with_reducible apply Keeps.ite

theorem execSharedConfigApply_keeps {r : State} (imgs : List ImageFacts) (s : State) (h : Keeps r s) :
    OutKeeps r (execSharedConfigApply imgs s) := by
  unfold execSharedConfigApply
  (try dsimp only)
  repeat' first
    | with_reducible exact h
    | with_reducible assumption
    | with_reducible apply shared_keeps
    | with_reducible apply State.applyAll_keeps
    | with_reducible apply OutKeeps.next
    | intro _ _ _
    | intro _ _
    | fail_if_no_progress (with_reducible refine Keeps.lit ?_ rfl rfl rfl rfl rfl)

theorem State.logDone_keeps {r : State} (s : State) (f : Nat → Nat → Bool) (h : Keeps r s) :
    Keeps r (State.logDone s f) := by
  unfold State.logDone
  repeat' first
    | with_reducible exact h
    | with_reducible assumption
    | with_reducible apply State.complete_keeps
    | with_reducible apply Keeps.ite
    | with_reducible apply Keeps.ite1
    | with_reducible apply Keeps.ite2
    | (with_reducible refine Keeps.foldl ?_ ?_)
    | intro _ _ _
    | intro _ _
    | fail_if_no_progress (with_reducible refine Keeps.lit ?_ rfl rfl rfl rfl rfl)
    | split

theorem execLaunchLogAck_keeps {r : State} (p : Fin 16) (step : Nat) (s : State) (h : Keeps r s) :
    OutKeeps r (execLaunchLogAck p step s) := by
  unfold execLaunchLogAck
  repeat' first
    | with_reducible exact h
    | with_reducible assumption
    | with_reducible apply State.logDone_keeps
    | with_reducible apply OutKeeps.next

theorem execLaunchLogTimeout_keeps {r : State} (p : Fin 16) (s : State) (h : Keeps r s) :
    OutKeeps r (execLaunchLogTimeout p s) := by
  unfold execLaunchLogTimeout
  (try dsimp only)
  repeat' first
    | with_reducible exact h
    | with_reducible assumption
    | with_reducible apply State.logDone_keeps
    | with_reducible apply State.clearReady_keeps
    | with_reducible apply State.postTwin_keeps
    | with_reducible apply OutKeeps.ite
    | with_reducible apply OutKeeps.next

theorem State.forwardedAt_keeps {r : State} (s : State) (m p step : Nat) (pl : List Byte) (h : Keeps r s) :
    Keeps r (State.forwardedAt s m p step pl) := by
  unfold State.forwardedAt
  (try dsimp only)
  repeat' first
    | with_reducible exact h
    | with_reducible assumption
    | with_reducible apply State.send_keeps
    | with_reducible apply State.accept_keeps
    | intro _ _ _
    | intro _ _
    | fail_if_no_progress (with_reducible refine Keeps.lit ?_ rfl rfl rfl rfl rfl)
    | split

theorem execTwinLaunchAtForward_keeps {r : State} (m : Fin 64) (p : Fin 16) (step : Nat) (payload : List Byte) (late : Bool) (s : State) (h : Keeps r s) :
    OutKeeps r (execTwinLaunchAtForward m p step payload late s) := by
  unfold execTwinLaunchAtForward
  repeat' first
    | with_reducible exact h
    | with_reducible assumption
    | with_reducible apply State.forwardedAt_keeps
    | with_reducible apply OutKeeps.ite
    | with_reducible apply OutKeeps.next

theorem State.launchAnswered_keeps {r : State} (s : State) (p step status detail : Nat) (h : Keeps r s) :
    Keeps r (State.launchAnswered s p step status detail) := by
  unfold State.launchAnswered
  (try dsimp only)
  repeat' first
    | with_reducible exact h
    | with_reducible assumption
    | with_reducible apply State.accept_keeps
    | with_reducible apply State.complete_keeps
    | with_reducible apply Keeps.ite
    | with_reducible apply Keeps.ite1
    | with_reducible apply Keeps.ite2
    | (with_reducible refine Keeps.foldl ?_ ?_)
    | intro _ _ _

theorem execTwinLaunchAtTimeout_keeps {r : State} (m : Fin 64) (s : State) (h : Keeps r s) :
    OutKeeps r (execTwinLaunchAtTimeout m s) := by
  unfold execTwinLaunchAtTimeout
  repeat' first
    | with_reducible exact h
    | with_reducible assumption
    | with_reducible apply State.complete_keeps
    | with_reducible apply OutKeeps.next
    | intro _ _ _
    | intro _ _
    | fail_if_no_progress (with_reducible refine Keeps.lit ?_ rfl rfl rfl rfl rfl)
    | split

theorem State.logEntry_keeps {r : State} (s : State) (p m op step : Nat) (pl : List Byte) (h : Keeps r s) :
    Keeps r (State.logEntry s p m op step pl) := by
  unfold State.logEntry
  (try dsimp only)
  repeat' first
    | with_reducible exact h
    | with_reducible assumption
    | with_reducible apply State.modTwp_keeps
    | with_reducible apply State.send_keeps
    | with_reducible apply State.accept_keeps
    | with_reducible apply State.holdFrame_keeps
    | with_reducible apply Keeps.ite

theorem State.mark_keeps {r : State} (s : State) (p step : Nat) (h : Keeps r s) :
    Keeps r (State.mark s p step) := by
  unfold State.mark
  repeat' first
    | with_reducible exact h
    | with_reducible assumption
    | with_reducible apply State.modTwp_keeps

theorem execPublishedMark_keeps {r : State} (p : Fin 16) (step : Nat) (s : State) (h : Keeps r s) :
    OutKeeps r (execPublishedMark p step s) := by
  unfold execPublishedMark
  repeat' first
    | with_reducible exact h
    | with_reducible assumption
    | with_reducible apply State.mark_keeps
    | with_reducible apply OutKeeps.next

theorem State.mirrorAcked_keeps {r : State} (s : State) (p cut : Nat) (h : Keeps r s) :
    Keeps r (State.mirrorAcked s p cut) := by
  unfold State.mirrorAcked
  (try dsimp only)
  repeat' first
    | with_reducible exact h
    | with_reducible assumption
    | with_reducible apply State.modTwp_keeps

theorem execMirrorAck_keeps {r : State} (p : Fin 16) (cut : Nat) (s : State) (h : Keeps r s) :
    OutKeeps r (execMirrorAck p cut s) := by
  unfold execMirrorAck
  repeat' first
    | with_reducible exact h
    | with_reducible assumption
    | with_reducible apply State.mirrorAcked_keeps
    | with_reducible apply OutKeeps.ite
    | with_reducible apply OutKeeps.next

theorem State.applyDeltas_keeps {r : State} : ∀ (x0 : List Nat) (p : Nat) (s : State) (_ : Keeps r s), Keeps r (State.applyDeltas s p x0).1
  | [], p, s, h => by
    unfold State.applyDeltas
    (try dsimp only)
    repeat' first
      | with_reducible exact h
  | k :: t, p, s, h => by
    unfold State.applyDeltas
    (try dsimp only)
    repeat' first
      | with_reducible exact h
      | with_reducible assumption
      | with_reducible apply State.applyDeltas_keeps
      | with_reducible apply State.applyDelta_keeps
      | with_reducible apply State.modTwp_keeps
      | intro _ _ _
      | intro _ _
      | fail_if_no_progress (with_reducible refine Keeps.lit ?_ rfl rfl rfl rfl rfl)
      | split

theorem State.cutFrame_keeps {r : State} (s : State) (p : Nat) (h : Keeps r s) :
    Keeps r (State.cutFrame s p) := by
  unfold State.cutFrame
  (try dsimp only)
  repeat' first
    | with_reducible exact h
    | with_reducible assumption
    | with_reducible apply State.applyDeltas_keeps
    | with_reducible apply State.modTwp_keeps
    | with_reducible apply State.release_keeps
    | with_reducible apply State.send_keeps
    | with_reducible apply Keeps.ite

theorem State.lagFrame_keeps {r : State} (s : State) (p : Nat) (h : Keeps r s) :
    Keeps r (State.lagFrame s p) := by
  unfold State.lagFrame
  (try dsimp only)
  repeat' first
    | with_reducible exact h
    | with_reducible assumption
    | with_reducible apply State.modTwp_keeps
    | with_reducible apply State.postTwin_keeps
    | with_reducible apply State.clearReady_keeps
    | with_reducible apply Keeps.ite
    | with_reducible apply Keeps.ite1
    | with_reducible apply Keeps.ite2
    | intro _ _ _
    | intro _ _
    | fail_if_no_progress (with_reducible refine Keeps.lit ?_ rfl rfl rfl rfl rfl)
    | split

theorem State.rerun_keeps {r : State} (s : State) (p : Nat) (fresh : Bool) (e : LogEntry) (h : Keeps r s) :
    Keeps r (State.rerun s p fresh e) := by
  unfold State.rerun
  (try dsimp only)
  repeat' first
    | with_reducible exact h
    | with_reducible assumption
    | with_reducible apply State.modTwp_keeps
    | with_reducible apply State.modJob_keeps
    | with_reducible apply State.accept_keeps
    | with_reducible apply State.holdFrame_keeps
    | with_reducible apply State.startStep_keeps
    | with_reducible apply Keeps.ite

theorem State.takeOver_keeps {r : State} (s : State) (p : Nat) (handed : Bool) (h : Keeps r s) :
    Keeps r (State.takeOver s p handed) := by
  unfold State.takeOver
  (try dsimp only)
  repeat' first
    | with_reducible exact h
    | with_reducible assumption
    | with_reducible apply State.applyDeltas_keeps
    | with_reducible apply State.modPart_keeps
    | with_reducible apply State.modTwp_keeps
    | with_reducible apply State.rerun_keeps
    | with_reducible apply State.postTwin_keeps
    | with_reducible apply Keeps.ite
    | with_reducible apply Keeps.ite1
    | with_reducible apply Keeps.ite2
    | (with_reducible refine Keeps.foldl ?_ ?_)
    | intro _ _ _
    | intro _ _
    | fail_if_no_progress (with_reducible refine Keeps.lit ?_ rfl rfl rfl rfl rfl)

theorem execTakeover_keeps {r : State} (mask : BitVec 16) (s : State) (h : Keeps r s) :
    OutKeeps r (execTakeover mask s) := by
  unfold execTakeover
  (try dsimp only)
  repeat' first
    | with_reducible exact h
    | with_reducible assumption
    | with_reducible apply State.elapse_keeps
    | with_reducible apply State.takeOver_keeps
    | with_reducible apply State.losePartner_keeps
    | with_reducible apply OutKeeps.ite
    | with_reducible apply OutKeeps.next
    | with_reducible apply Keeps.ite
    | (with_reducible refine Keeps.foldl ?_ ?_)
    | intro _ _ _
    | intro _ _
    | fail_if_no_progress (with_reducible refine Keeps.lit ?_ rfl rfl rfl rfl rfl)

theorem execTakeoverRerunDone_keeps {r : State} (job : Nat) (s : State) (h : Keeps r s) :
    OutKeeps r (execTakeoverRerunDone job s) := by
  unfold execTakeoverRerunDone
  (try dsimp only)
  repeat' first
    | with_reducible exact h
    | with_reducible assumption
    | with_reducible apply State.rerun_keeps
    | with_reducible apply State.modTwp_keeps
    | with_reducible apply State.modJob_keeps
    | with_reducible apply State.closeJob_keeps
    | with_reducible apply OutKeeps.ite
    | with_reducible apply OutKeeps.next
    | with_reducible apply Keeps.ite
    | with_reducible apply Keeps.ite1
    | with_reducible apply Keeps.ite2
    | intro _ _ _
    | intro _ _
    | fail_if_no_progress (with_reducible refine Keeps.lit ?_ rfl rfl rfl rfl rfl)
    | split

theorem State.partnerSigs_keeps {r : State} (s : State) (j : Nat) (sigs : Option (List Nat)) (h : Keeps r s) :
    Keeps r (State.partnerSigs s j sigs) := by
  unfold State.partnerSigs
  (try dsimp only)
  repeat' first
    | with_reducible exact h
    | with_reducible assumption
    | with_reducible apply State.modJob_keeps
    | with_reducible apply State.compareDual_keeps
    | with_reducible apply Keeps.ite
    | with_reducible apply Keeps.ite1
    | with_reducible apply Keeps.ite2
    | intro _ _ _
    | intro _ _
    | fail_if_no_progress (with_reducible refine Keeps.lit ?_ rfl rfl rfl rfl rfl)
    | split

theorem execDualCompareSignatures_keeps {r : State} (job : Nat) (sigs : Option (List Nat)) (s : State) (h : Keeps r s) :
    OutKeeps r (execDualCompareSignatures job sigs s) := by
  unfold execDualCompareSignatures
  repeat' first
    | with_reducible exact h
    | with_reducible assumption
    | with_reducible apply State.partnerSigs_keeps
    | with_reducible apply OutKeeps.next

theorem State.deliver_keeps {r : State} (s : State) (x : TwinMsg) (h : Keeps r s) :
    Keeps r (State.deliver s x) := by
  unfold State.deliver
  (try dsimp only)
  repeat' first
    | with_reducible exact h
    | with_reducible assumption
    | with_reducible apply State.takeNonce_keeps
    | with_reducible apply State.packageDecision_keeps
    | with_reducible apply shared_keeps
    | with_reducible apply State.send_keeps
    | with_reducible apply State.forwardedAt_keeps
    | with_reducible apply State.launchAnswered_keeps
    | with_reducible apply State.logEntry_keeps
    | with_reducible apply State.logDone_keeps
    | with_reducible apply State.mark_keeps
    | with_reducible apply State.mirrorAcked_keeps
    | with_reducible apply State.modTwp_keeps
    | with_reducible apply State.applyDelta_keeps
    | with_reducible apply State.partnerSigs_keeps
    | with_reducible apply Keeps.ite
    | with_reducible apply Keeps.ite1
    | with_reducible apply Keeps.ite2
    | intro _ _ _
    | intro _ _
    | fail_if_no_progress (with_reducible refine Keeps.lit ?_ rfl rfl rfl rfl rfl)
    | split

theorem State.drainControl_keeps {r : State} : ∀ (x0 : Nat) (s : State) (_ : Keeps r s), Keeps r (State.drainControl s x0)
  | 0, s, h => by
    unfold State.drainControl
    repeat' first
      | with_reducible exact h
  | n + 1, s, h => by
    unfold State.drainControl
    (try dsimp only)
    repeat' first
      | with_reducible exact h
      | with_reducible assumption
      | with_reducible apply State.drainControl_keeps
      | with_reducible apply State.deliver_keeps
      | intro _ _ _
      | intro _ _
      | fail_if_no_progress (with_reducible refine Keeps.lit ?_ rfl rfl rfl rfl rfl)
      | split

theorem execTwinFlitReceive_keeps {r : State} (port : Fin 2) (f : Flit) (s : State) (h : Keeps r s) :
    OutKeeps r (execTwinFlitReceive port f s) := by
  unfold execTwinFlitReceive
  (try dsimp only)
  repeat' first
    | with_reducible exact h
    | with_reducible assumption
    | with_reducible apply State.modTport_keeps
    | with_reducible apply State.drainControl_keeps
    | with_reducible apply State.deliver_keeps
    | with_reducible apply OutKeeps.ite
    | with_reducible apply OutKeeps.next
    | with_reducible apply Keeps.ite
    | with_reducible apply Keeps.ite1
    | with_reducible apply Keeps.ite2
    | intro _ _ _
    | intro _ _
    | fail_if_no_progress (with_reducible refine Keeps.lit ?_ rfl rfl rfl rfl rfl)

theorem State.twinFrame_keeps {r : State} (s : State) (h : Keeps r s) :
    Keeps r (State.twinFrame s) := by
  unfold State.twinFrame
  (try dsimp only)
  repeat' first
    | with_reducible exact h
    | with_reducible assumption
    | with_reducible apply State.cutFrame_keeps
    | with_reducible apply State.lagFrame_keeps
    | with_reducible apply State.handFrame_keeps
    | with_reducible apply State.send_keeps
    | with_reducible apply Keeps.ite
    | (with_reducible refine Keeps.foldl ?_ ?_)
    | intro _ _ _

end Sys2Proof.Machine
end

