-- ==== Sys2Proof/Laws/KeepsVehicle.lean ====
section
/-! SUPPORT. What each operation keeps (Sys2Proof/Laws/Keeps.lean): cameras, links, boot, displays, sorters, heat. -/

namespace Sys2Proof.Machine

theorem State.modStream_keeps {r : State} (s : State) (k : Nat) (f : Stream → Stream) (h : Keeps r s) :
    Keeps r (State.modStream s k f) := by
  unfold State.modStream
  (try dsimp only)
  repeat' first
    | with_reducible exact h
    | with_reducible assumption
    | intro _ _ _
    | intro _ _
    | fail_if_no_progress (with_reducible refine Keeps.lit ?_ rfl rfl rfl rfl rfl)

theorem State.postStream_keeps {r : State} (s : State) (k code fc : Nat) (ext : List Nat) (h : Keeps r s) :
    Keeps r (State.postStream s k code fc ext) := by
  unfold State.postStream
  repeat' first
    | with_reducible exact h
    | with_reducible assumption
    | with_reducible apply State.post_keeps

theorem State.setTrust_keeps {r : State} (s : State) (k v : Nat) (h : Keeps r s) :
    Keeps r (State.setTrust s k v) := by
  unfold State.setTrust
  repeat' first
    | with_reducible exact h
    | with_reducible assumption
    | with_reducible apply State.modStream_keeps
    | with_reducible apply State.postStream_keeps
    | with_reducible apply Keeps.ite

theorem State.untrust_keeps {r : State} (s : State) (k : Nat) (h : Keeps r s) :
    Keeps r (State.untrust s k) := by
  unfold State.untrust
  (try dsimp only)
  repeat' first
    | with_reducible exact h
    | with_reducible assumption
    | with_reducible apply State.record_keeps
    | with_reducible apply State.modStream_keeps
    | with_reducible apply State.postStream_keeps

theorem State.challenge_keeps {r : State} (s : State) (k nonce : Nat) (h : Keeps r s) :
    Keeps r (State.challenge s k nonce) := by
  unfold State.challenge
  (try dsimp only)
  repeat' first
    | with_reducible exact h
    | with_reducible assumption
    | with_reducible apply State.send_keeps
    | with_reducible apply State.modStream_keeps
    | with_reducible apply Keeps.ite
    | with_reducible apply Keeps.ite1
    | with_reducible apply Keeps.ite2
    | intro _ _ _
    | intro _ _
    | fail_if_no_progress (with_reducible refine Keeps.lit ?_ rfl rfl rfl rfl rfl)
    | split

theorem streamBindBody_keeps {r : State} (nonce : Nat) (c : Ctx) (s : State) (h : Keeps r s) :
    LmpKeeps r (streamBindBody nonce c s) := by
  unfold streamBindBody
  (try dsimp only)
  repeat' first
    | with_reducible exact h
    | with_reducible assumption
    | with_reducible apply State.modStream_keeps
    | with_reducible apply State.challenge_keeps
    | with_reducible apply LmpKeeps.checked
    | with_reducible apply LmpKeeps.wait
    | with_reducible apply LmpKeeps.done
    | with_reducible apply LmpKeeps.ite
    | with_reducible apply Keeps.ite
    | with_reducible apply Keeps.ite1
    | with_reducible apply Keeps.ite2
    | intro _ _ _
    | intro _ _
    | fail_if_no_progress (with_reducible refine Keeps.lit ?_ rfl rfl rfl rfl rfl)
    | split

theorem execStreamBind_keeps {r : State} (m : Fin 64) (nonce : Nat) (s : State) (h : Keeps r s) :
    OutKeeps r (execStreamBind m nonce s) := by
  unfold execStreamBind
  repeat' first
    | with_reducible exact h
    | with_reducible assumption
    | with_reducible apply State.lmp_keeps
    | with_reducible apply streamBindBody_keeps
    | with_reducible apply OutKeeps.next

theorem streamUnbindBody_keeps {r : State} (c : Ctx) (s : State) (h : Keeps r s) :
    LmpKeeps r (streamUnbindBody c s) := by
  unfold streamUnbindBody
  (try dsimp only)
  repeat' first
    | with_reducible exact h
    | with_reducible assumption
    | with_reducible apply State.modStream_keeps
    | with_reducible apply LmpKeeps.checked
    | with_reducible apply LmpKeeps.wait

theorem execStreamUnbind_keeps {r : State} (m : Fin 64) (s : State) (h : Keeps r s) :
    OutKeeps r (execStreamUnbind m s) := by
  unfold execStreamUnbind
  repeat' first
    | with_reducible exact h
    | with_reducible assumption
    | with_reducible apply State.lmp_keeps
    | with_reducible apply streamUnbindBody_keeps
    | with_reducible apply OutKeeps.next

theorem State.applyRebind_keeps {r : State} (s : State) (k : Nat) (h : Keeps r s) :
    Keeps r (State.applyRebind s k) := by
  unfold State.applyRebind
  (try dsimp only)
  repeat' first
    | with_reducible exact h
    | with_reducible assumption
    | with_reducible apply State.modStream_keeps
    | with_reducible apply State.setTrust_keeps
    | with_reducible apply State.challenge_keeps
    | with_reducible apply State.finishAll_keeps
    | with_reducible apply Keeps.ite
    | with_reducible apply Keeps.ite1
    | with_reducible apply Keeps.ite2
    | intro _ _ _
    | intro _ _
    | fail_if_no_progress (with_reducible refine Keeps.lit ?_ rfl rfl rfl rfl rfl)
    | split

theorem State.applyUnbind_keeps {r : State} (s : State) (k : Nat) (h : Keeps r s) :
    Keeps r (State.applyUnbind s k) := by
  unfold State.applyUnbind
  (try dsimp only)
  repeat' first
    | with_reducible exact h
    | with_reducible assumption
    | with_reducible apply State.dropClaims_keeps
    | with_reducible apply State.modStream_keeps
    | with_reducible apply State.finishAll_keeps

theorem State.modFrame_keeps {r : State} (s : State) (k : Nat) (f : RxFrame → RxFrame) (h : Keeps r s) :
    Keeps r (State.modFrame s k f) := by
  unfold State.modFrame
  repeat' first
    | with_reducible exact h
    | with_reducible assumption
    | with_reducible apply State.modStream_keeps

theorem State.csiFail_keeps {r : State} (s : State) (k : Nat) (h : Keeps r s) :
    Keeps r (State.csiFail s k) := by
  unfold State.csiFail
  repeat' first
    | with_reducible exact h
    | with_reducible assumption
    | with_reducible apply State.record_keeps
    | with_reducible apply State.modFrame_keeps

theorem State.tplFail_keeps {r : State} (s : State) (k : Nat) (h : Keeps r s) :
    Keeps r (State.tplFail s k) := by
  unfold State.tplFail
  (try dsimp only)
  repeat' first
    | with_reducible exact h
    | with_reducible assumption
    | with_reducible apply State.record_keeps
    | with_reducible apply State.modFrame_keeps
    | with_reducible apply Keeps.ite

theorem State.tplArrives_keeps {r0 : State} (s : State) (k : Nat) (b : Binding) (r : RxFrame) (data : List Byte) (h : Keeps r0 s) :
    Keeps r0 (State.tplArrives s k b r data) := by
  unfold State.tplArrives
  (try dsimp only)
  repeat' first
    | with_reducible exact h
    | with_reducible assumption
    | with_reducible apply State.modFrame_keeps
    | with_reducible apply State.tplFail_keeps
    | with_reducible apply State.modStream_keeps
    | with_reducible apply State.postStream_keeps
    | with_reducible apply Keeps.ite

theorem State.identArrives_keeps {r0 : State} (s : State) (k : Nat) (r : RxFrame) (d : List Byte) (nonce : Nat) (h : Keeps r0 s) :
    Keeps r0 (State.identArrives s k r d nonce) := by
  unfold State.identArrives
  (try dsimp only)
  repeat' first
    | with_reducible exact h
    | with_reducible assumption
    | with_reducible apply State.modFrame_keeps
    | with_reducible apply State.tplFail_keeps
    | with_reducible apply State.answer_keeps
    | with_reducible apply State.modStream_keeps
    | with_reducible apply State.postStream_keeps
    | with_reducible apply State.setTrust_keeps
    | with_reducible apply State.challenge_keeps
    | with_reducible apply Keeps.ite

theorem State.storeLine_keeps {r0 : State} (s : State) (b : Binding) (r : RxFrame) (row : Nat) (data : List Byte) (h : Keeps r0 s) :
    Keeps r0 (State.storeLine s b r row data) := by
  unfold State.storeLine
  (try dsimp only)
  repeat' first
    | with_reducible exact h
    | with_reducible assumption
    | with_reducible apply State.writeCells_keeps
    | intro _ _ _
    | intro _ _
    | fail_if_no_progress (with_reducible refine Keeps.lit ?_ rfl rfl rfl rfl rfl)
    | split

theorem State.embArrives_keeps {r0 : State} (s : State) (k : Nat) (b : Binding) (r : RxFrame) (p : CsiPkt) (nonce : Nat) (h : Keeps r0 s) :
    Keeps r0 (State.embArrives s k b r p nonce) := by
  unfold State.embArrives
  repeat' first
    | with_reducible exact h
    | with_reducible assumption
    | with_reducible apply State.csiFail_keeps
    | with_reducible apply State.tplArrives_keeps
    | with_reducible apply State.identArrives_keeps
    | with_reducible apply State.storeLine_keeps
    | with_reducible apply State.modFrame_keeps
    | with_reducible apply State.modStream_keeps
    | with_reducible apply Keeps.ite

theorem State.lineArrives_keeps {r0 : State} (s : State) (k : Nat) (b : Binding) (r : RxFrame) (p : CsiPkt) (h : Keeps r0 s) :
    Keeps r0 (State.lineArrives s k b r p) := by
  unfold State.lineArrives
  (try dsimp only)
  repeat' first
    | with_reducible exact h
    | with_reducible assumption
    | with_reducible apply State.storeLine_keeps
    | with_reducible apply State.csiFail_keeps
    | with_reducible apply State.modFrame_keeps
    | with_reducible apply Keeps.ite

theorem execCsiPacket_keeps {r : State} (port vc : Fin 16) (pkt : CsiPkt) (nonce : Nat) (s : State) (h : Keeps r s) :
    OutKeeps r (execCsiPacket port vc pkt nonce s) := by
  unfold execCsiPacket
  (try dsimp only)
  repeat' first
    | with_reducible exact h
    | with_reducible assumption
    | with_reducible apply State.modStream_keeps
    | with_reducible apply State.csiFail_keeps
    | with_reducible apply State.modFrame_keeps
    | with_reducible apply State.embArrives_keeps
    | with_reducible apply State.lineArrives_keeps
    | with_reducible apply OutKeeps.ite
    | with_reducible apply OutKeeps.next
    | with_reducible apply Keeps.ite
    | with_reducible apply Keeps.ite1
    | with_reducible apply Keeps.ite2
    | intro _ _ _
    | intro _ _
    | fail_if_no_progress (with_reducible refine Keeps.lit ?_ rfl rfl rfl rfl rfl)
    | split

theorem State.launchFrame_keeps {r : State} (s : State) (k : Nat) (b : Binding) (i fc : Nat) (h : Keeps r s) :
    Keeps r (State.launchFrame s k b i fc) := by
  unfold State.launchFrame
  (try dsimp only)
  repeat' first
    | with_reducible exact h
    | with_reducible assumption
    | with_reducible apply State.modStream_keeps
    | with_reducible apply State.postStream_keeps
    | with_reducible apply State.takeStep_keeps
    | with_reducible apply State.accept_keeps
    | with_reducible apply State.logLaunch_keeps
    | with_reducible apply Keeps.ite

theorem State.lostFrame_keeps {r : State} (s : State) (k code fc : Nat) (h : Keeps r s) :
    Keeps r (State.lostFrame s k code fc) := by
  unfold State.lostFrame
  repeat' first
    | with_reducible exact h
    | with_reducible assumption
    | with_reducible apply State.modStream_keeps
    | with_reducible apply State.postStream_keeps

theorem State.endChecks_keeps {r0 : State} (s : State) (k : Nat) (b : Binding) (r : RxFrame) (complete : Bool) (h : Keeps r0 s) :
    Keeps r0 (State.endChecks s k b r complete) := by
  unfold State.endChecks
  repeat' first
    | with_reducible exact h
    | with_reducible assumption
    | with_reducible apply State.complete_keeps
    | with_reducible apply State.csiFail_keeps
    | with_reducible apply State.tplFail_keeps
    | with_reducible apply Keeps.ite

theorem State.endFrame_keeps {r : State} (s : State) (k : Nat) (complete : Bool) (h : Keeps r s) :
    Keeps r (State.endFrame s k complete) := by
  unfold State.endFrame
  (try dsimp only)
  repeat' first
    | with_reducible exact h
    | with_reducible assumption
    | with_reducible apply State.endChecks_keeps
    | with_reducible apply State.complete_keeps
    | with_reducible apply State.untrust_keeps
    | with_reducible apply State.writeCells_keeps
    | with_reducible apply State.modStream_keeps
    | with_reducible apply State.lostFrame_keeps
    | with_reducible apply State.record_keeps
    | with_reducible apply State.postStream_keeps
    | with_reducible apply State.launchFrame_keeps
    | with_reducible apply Keeps.ite
    | with_reducible apply Keeps.ite1
    | with_reducible apply Keeps.ite2
    | intro _ _ _
    | intro _ _
    | fail_if_no_progress (with_reducible refine Keeps.lit ?_ rfl rfl rfl rfl rfl)
    | split

theorem execCsiFrameEnd_keeps {r : State} (port vc : Fin 16) (s : State) (h : Keeps r s) :
    OutKeeps r (execCsiFrameEnd port vc s) := by
  unfold execCsiFrameEnd
  repeat' first
    | with_reducible exact h
    | with_reducible assumption
    | with_reducible apply State.endFrame_keeps
    | with_reducible apply OutKeeps.ite
    | with_reducible apply OutKeeps.next
    | with_reducible apply Keeps.ite

theorem State.beginFrame_keeps {r : State} (s : State) (k : Nat) (b : Binding) (n : Nat) (h : Keeps r s) :
    Keeps r (State.beginFrame s k b n) := by
  unfold State.beginFrame
  (try dsimp only)
  repeat' first
    | with_reducible exact h
    | with_reducible assumption
    | with_reducible apply State.modStream_keeps

theorem execCsiFrameStart_keeps {r : State} (port vc : Fin 16) (n : Nat) (s : State) (h : Keeps r s) :
    OutKeeps r (execCsiFrameStart port vc n s) := by
  unfold execCsiFrameStart
  (try dsimp only)
  repeat' first
    | with_reducible exact h
    | with_reducible assumption
    | with_reducible apply State.applyUnbind_keeps
    | with_reducible apply State.endFrame_keeps
    | with_reducible apply State.applyRebind_keeps
    | with_reducible apply State.beginFrame_keeps
    | with_reducible apply OutKeeps.ite
    | with_reducible apply OutKeeps.next
    | with_reducible apply Keeps.ite
    | with_reducible apply Keeps.ite1
    | with_reducible apply Keeps.ite2
    | intro _ _ _
    | intro _ _
    | fail_if_no_progress (with_reducible refine Keeps.lit ?_ rfl rfl rfl rfl rfl)
    | split

theorem execStreamSilent_keeps {r : State} (port vc : Fin 16) (s : State) (h : Keeps r s) :
    OutKeeps r (execStreamSilent port vc s) := by
  unfold execStreamSilent
  (try dsimp only)
  repeat' first
    | with_reducible exact h
    | with_reducible assumption
    | with_reducible apply State.elapse_keeps
    | with_reducible apply State.modStream_keeps
    | with_reducible apply State.postStream_keeps
    | with_reducible apply State.record_keeps
    | with_reducible apply State.applyRebind_keeps
    | with_reducible apply OutKeeps.ite
    | with_reducible apply OutKeeps.next
    | with_reducible apply Keeps.ite
    | with_reducible apply Keeps.ite1
    | with_reducible apply Keeps.ite2
    | intro _ _ _
    | intro _ _
    | fail_if_no_progress (with_reducible refine Keeps.lit ?_ rfl rfl rfl rfl rfl)
    | split

theorem execResponseVerified_keeps {r : State} (port vc : Fin 16) (s : State) (h : Keeps r s) :
    OutKeeps r (execResponseVerified port vc s) := by
  unfold execResponseVerified
  (try dsimp only)
  repeat' first
    | with_reducible exact h
    | with_reducible assumption
    | with_reducible apply State.modStream_keeps
    | with_reducible apply State.setTrust_keeps
    | with_reducible apply State.untrust_keeps
    | with_reducible apply OutKeeps.ite
    | with_reducible apply OutKeeps.next
    | with_reducible apply Keeps.ite
    | with_reducible apply Keeps.ite1
    | with_reducible apply Keeps.ite2
    | intro _ _ _
    | intro _ _
    | fail_if_no_progress (with_reducible refine Keeps.lit ?_ rfl rfl rfl rfl rfl)
    | split

theorem execReauthChallenge_keeps {r : State} (port vc : Fin 16) (nonce : Nat) (s : State) (h : Keeps r s) :
    OutKeeps r (execReauthChallenge port vc nonce s) := by
  unfold execReauthChallenge
  (try dsimp only)
  repeat' first
    | with_reducible exact h
    | with_reducible assumption
    | with_reducible apply State.elapse_keeps
    | with_reducible apply State.modStream_keeps
    | with_reducible apply State.challenge_keeps
    | with_reducible apply OutKeeps.ite
    | with_reducible apply OutKeeps.next
    | with_reducible apply Keeps.ite
    | with_reducible apply Keeps.ite1
    | with_reducible apply Keeps.ite2
    | intro _ _ _
    | intro _ _
    | fail_if_no_progress (with_reducible refine Keeps.lit ?_ rfl rfl rfl rfl rfl)
    | split

theorem execChallengeNonceReceive_keeps {r : State} (port vc : Fin 16) (nonce : Nat) (s : State) (h : Keeps r s) :
    OutKeeps r (execChallengeNonceReceive port vc nonce s) := by
  unfold execChallengeNonceReceive
  repeat' first
    | with_reducible exact h
    | with_reducible assumption
    | with_reducible apply State.takeNonce_keeps
    | with_reducible apply OutKeeps.ite
    | with_reducible apply OutKeeps.next
    | with_reducible apply Keeps.ite

theorem execI3cHandoffAccepted_keeps {r : State} (ok : Bool) (s : State) (h : Keeps r s) :
    OutKeeps r (execI3cHandoffAccepted ok s) := by
  unfold execI3cHandoffAccepted
  (try dsimp only)
  repeat' first
    | with_reducible exact h
    | with_reducible assumption
    | with_reducible apply State.finishAll_keeps
    | with_reducible apply State.bump_keeps
    | with_reducible apply State.askRoleBack_keeps
    | with_reducible apply OutKeeps.ite
    | with_reducible apply OutKeeps.next
    | with_reducible apply Keeps.ite
    | with_reducible apply Keeps.ite1
    | with_reducible apply Keeps.ite2
    | intro _ _ _
    | intro _ _
    | fail_if_no_progress (with_reducible refine Keeps.lit ?_ rfl rfl rfl rfl rfl)
    | split

theorem execCamSbBulkExpiry_keeps {r : State} (s : State) (h : Keeps r s) :
    OutKeeps r (execCamSbBulkExpiry s) := by
  unfold execCamSbBulkExpiry
  repeat' first
    | with_reducible exact h
    | with_reducible assumption
    | with_reducible apply State.elapse_keeps
    | with_reducible apply State.dropClaims_keeps
    | with_reducible apply State.bump_keeps
    | with_reducible apply OutKeeps.next
    | intro _ _ _
    | intro _ _
    | fail_if_no_progress (with_reducible refine Keeps.lit ?_ rfl rfl rfl rfl rfl)
    | split

theorem execI3cRoleReturn_keeps {r : State} (nonces : List Nat) (s : State) (h : Keeps r s) :
    OutKeeps r (execI3cRoleReturn nonces s) := by
  unfold execI3cRoleReturn
  (try dsimp only)
  repeat' first
    | with_reducible exact h
    | with_reducible assumption
    | with_reducible apply State.challenge_keeps
    | with_reducible apply OutKeeps.ite
    | with_reducible apply OutKeeps.next
    | with_reducible apply Keeps.ite
    | with_reducible apply Keeps.ite1
    | with_reducible apply Keeps.ite2
    | (with_reducible refine Keeps.foldl ?_ ?_)
    | intro _ _ _
    | intro _ _
    | fail_if_no_progress (with_reducible refine Keeps.lit ?_ rfl rfl rfl rfl rfl)

theorem execI3cRoleRequestRetry_keeps {r : State} (s : State) (h : Keeps r s) :
    OutKeeps r (execI3cRoleRequestRetry s) := by
  unfold execI3cRoleRequestRetry
  (try dsimp only)
  repeat' first
    | with_reducible exact h
    | with_reducible assumption
    | with_reducible apply State.elapse_keeps
    | with_reducible apply State.record_keeps
    | with_reducible apply OutKeeps.ite
    | with_reducible apply OutKeeps.next
    | with_reducible apply Keeps.ite
    | intro _ _ _
    | intro _ _
    | fail_if_no_progress (with_reducible refine Keeps.lit ?_ rfl rfl rfl rfl rfl)

theorem execLoopbackTestDone_keeps {r : State} (fails : List Nat) (s : State) (h : Keeps r s) :
    OutKeeps r (execLoopbackTestDone fails s) := by
  unfold execLoopbackTestDone
  (try dsimp only)
  repeat' first
    | with_reducible exact h
    | with_reducible assumption
    | with_reducible apply State.record_keeps
    | with_reducible apply State.dropClaims_keeps
    | with_reducible apply State.bump_keeps
    | with_reducible apply OutKeeps.ite
    | with_reducible apply OutKeeps.next
    | with_reducible apply Keeps.ite
    | with_reducible apply Keeps.ite1
    | with_reducible apply Keeps.ite2
    | (with_reducible refine Keeps.foldl ?_ ?_)
    | intro _ _ _
    | intro _ _
    | fail_if_no_progress (with_reducible refine Keeps.lit ?_ rfl rfl rfl rfl rfl)
    | split

theorem State.failStream_keeps {r : State} (s : State) (p i src bit : Nat) (h : Keeps r s) :
    Keeps r (State.failStream s p i src bit) := by
  unfold State.failStream
  repeat' first
    | with_reducible exact h
    | with_reducible assumption
    | with_reducible apply State.failTask_keeps
    | (with_reducible refine Keeps.foldl ?_ ?_)
    | intro _ _ _
    | intro _ _
    | fail_if_no_progress (with_reducible refine Keeps.lit ?_ rfl rfl rfl rfl rfl)
    | split

theorem State.ringLost_keeps {r : State} (s : State) (q : QueueId) (h : Keeps r s) :
    Keeps r (State.ringLost s q) := by
  unfold State.ringLost
  (try dsimp only)
  repeat' first
    | with_reducible exact h
    | with_reducible assumption
    | with_reducible apply State.setQ_keeps
    | with_reducible apply State.popEmpty_keeps
    | with_reducible apply Keeps.ite

theorem execSqSpill_keeps {r : State} (q : QueueId) (toHead : Bool) (ending : SpillEnd) (s : State) (h : Keeps r s) :
    OutKeeps r (execSqSpill q toHead ending s) := by
  unfold execSqSpill
  (try dsimp only)
  repeat' first
    | with_reducible exact h
    | with_reducible assumption
    | with_reducible apply State.setQ_keeps
    | with_reducible apply State.record_keeps
    | with_reducible apply State.failStream_keeps
    | with_reducible apply State.settle_keeps
    | with_reducible apply State.serveWaiting_keeps
    | with_reducible apply State.decodeFault_keeps
    | with_reducible apply State.ringLost_keeps
    | with_reducible apply OutKeeps.ite
    | with_reducible apply OutKeeps.next
    | with_reducible apply Keeps.ite
    | with_reducible apply Keeps.ite1
    | with_reducible apply Keeps.ite2
    | intro _ _ _
    | intro _ _
    | fail_if_no_progress (with_reducible refine Keeps.lit ?_ rfl rfl rfl rfl rfl)
    | split

theorem State.loseRings_keeps {r : State} (s : State) (e : Nat) (h : Keeps r s) :
    Keeps r (State.loseRings s e) := by
  unfold State.loseRings
  repeat' first
    | with_reducible exact h
    | with_reducible assumption
    | with_reducible apply State.ringLost_keeps
    | with_reducible apply Keeps.ite
    | with_reducible apply Keeps.ite1
    | with_reducible apply Keeps.ite2
    | (with_reducible refine Keeps.foldl ?_ ?_)
    | intro _ _ _

theorem State.regainRings_keeps {r : State} (s : State) (e : Nat) (h : Keeps r s) : Keeps r (State.regainRings s e) := by
  unfold State.regainRings
  split
  · refine h.setQs (fun w => ?_) rfl rfl rfl rfl
    (try dsimp only)
    apply tabMap_wf
    exact w
  · exact h

theorem State.setLink_keeps {r : State} (s : State) (e : Nat) (f : Endpoint → Endpoint) (h : Keeps r s) :
    Keeps r (State.setLink s e f) := by
  unfold State.setLink
  (try dsimp only)
  repeat' first
    | with_reducible exact h
    | with_reducible assumption
    | with_reducible apply State.modEp_keeps
    | with_reducible apply State.loseRings_keeps
    | with_reducible apply State.regainRings_keeps
    | with_reducible apply Keeps.ite

theorem execPcieLinkDown_keeps {r : State} (ep : Fin 2) (s : State) (h : Keeps r s) :
    OutKeeps r (execPcieLinkDown ep s) := by
  unfold execPcieLinkDown
  repeat' first
    | with_reducible exact h
    | with_reducible assumption
    | with_reducible apply State.setLink_keeps
    | with_reducible apply OutKeeps.next

theorem execPcieLinkUp_keeps {r : State} (ep : Fin 2) (s : State) (h : Keeps r s) :
    OutKeeps r (execPcieLinkUp ep s) := by
  unfold execPcieLinkUp
  (try dsimp only)
  repeat' first
    | with_reducible exact h
    | with_reducible assumption
    | with_reducible apply State.setLink_keeps
    | with_reducible apply OutKeeps.ite
    | with_reducible apply OutKeeps.next
    | with_reducible apply Keeps.ite
    | intro _ _ _
    | intro _ _
    | fail_if_no_progress (with_reducible refine Keeps.lit ?_ rfl rfl rfl rfl rfl)

theorem execD3hot_keeps {r : State} (ep : Fin 2) (on : Bool) (s : State) (h : Keeps r s) :
    OutKeeps r (execD3hot ep on s) := by
  unfold execD3hot
  repeat' first
    | with_reducible exact h
    | with_reducible assumption
    | with_reducible apply State.setLink_keeps
    | with_reducible apply OutKeeps.next

theorem execFunctionLevelReset_keeps {r : State} (ep : Fin 2) (s : State) (h : Keeps r s) :
    OutKeeps r (execFunctionLevelReset ep s) := by
  unfold execFunctionLevelReset
  repeat' first
    | with_reducible exact h
    | with_reducible assumption
    | with_reducible apply State.setLink_keeps
    | with_reducible apply OutKeeps.next

theorem execPerst_keeps {r : State} (ep : Fin 2) (low : Bool) (s : State) (h : Keeps r s) :
    OutKeeps r (execPerst ep low s) := by
  unfold execPerst
  (try dsimp only)
  repeat' first
    | with_reducible exact h
    | with_reducible assumption
    | with_reducible apply State.setLink_keeps
    | with_reducible apply OutKeeps.ite
    | with_reducible apply OutKeeps.next

theorem State.unitAccess_keeps {r : State} (s : State) (a n : Nat) (h : Keeps r s) :
    Keeps r (State.unitAccess s a n) := by
  unfold State.unitAccess
  repeat' first
    | with_reducible exact h
    | with_reducible assumption
    | with_reducible apply State.answer_keeps
    | with_reducible apply execSqPop_keeps
    | with_reducible apply execSqDroppedRead_keeps
    | with_reducible apply Keeps.ite
    | with_reducible apply Keeps.ite1
    | with_reducible apply Keeps.ite2
    | intro _ _ _
    | intro _ _
    | fail_if_no_progress (with_reducible refine Keeps.lit ?_ rfl rfl rfl rfl rfl)
    | split
    | (with_reducible refine Keeps.fst (by assumption) ?_)
    | (with_reducible refine Keeps.snd (by assumption) ?_)
    | (with_reducible refine Keeps.of_next (by assumption) ?_)

theorem State.worldRead_keeps {r : State} : ∀ (x0 : List EccCond) (e : Nat) (a : Nat) (s : State) (_ : Keeps r s), Keeps r (State.worldRead s e a x0)
  | [], e, a, s, h => by
    unfold State.worldRead
    repeat' first
      | with_reducible exact h
  | .clean :: t, e, a, s, h => by
    unfold State.worldRead
    repeat' first
      | with_reducible exact h
      | with_reducible assumption
      | with_reducible apply State.worldRead_keeps
  | .ctrl :: t, e, a, s, h => by
    unfold State.worldRead
    repeat' first
      | with_reducible exact h
      | with_reducible assumption
      | with_reducible apply State.worldRead_keeps
  | .single :: t, e, a, s, h => by
    unfold State.worldRead
    repeat' first
      | with_reducible exact h
      | with_reducible assumption
      | with_reducible apply State.worldRead_keeps
      | with_reducible apply State.record_keeps
  | .bad :: _, e, a, s, h => by
    unfold State.worldRead
    repeat' first
      | with_reducible exact h
      | with_reducible assumption
      | with_reducible apply State.worldRead_keeps
      | with_reducible apply State.record_keeps
      | with_reducible apply State.engineQuarantine_keeps

theorem State.readOp_keeps {r0 : State} (s : State) (r : Requester) (a n : Nat) (conds : List EccCond) (h : Keeps r0 s) :
    Keeps r0 (State.readOp s r a n conds) := by
  unfold State.readOp
  (try dsimp only)
  repeat' first
    | with_reducible exact h
    | with_reducible assumption
    | with_reducible apply State.answer_keeps
    | with_reducible apply State.decodeFault_keeps
    | with_reducible apply State.memFault_keeps
    | with_reducible apply State.transferFault_keeps
    | with_reducible apply State.fetch_keeps
    | with_reducible apply State.poisoned_keeps
    | with_reducible apply Keeps.ite
    | with_reducible apply Keeps.ite1
    | with_reducible apply Keeps.ite2
    | intro _ _ _
    | intro _ _
    | fail_if_no_progress (with_reducible refine Keeps.lit ?_ rfl rfl rfl rfl rfl)
    | split

theorem execMemoryRead_keeps {r : State} (req : Requester) (da n : Nat) (conds : List EccCond) (s : State) (h : Keeps r s) :
    OutKeeps r (execMemoryRead req da n conds s) := by
  unfold execMemoryRead
  repeat' first
    | with_reducible exact h
    | with_reducible assumption
    | with_reducible apply State.worldRead_keeps
    | with_reducible apply State.readOp_keeps
    | with_reducible apply State.unitAccess_keeps
    | with_reducible apply OutKeeps.ite
    | with_reducible apply OutKeeps.next
    | with_reducible apply Keeps.ite
    | with_reducible apply Keeps.ite1
    | with_reducible apply Keeps.ite2
    | intro _ _ _
    | intro _ _
    | fail_if_no_progress (with_reducible refine Keeps.lit ?_ rfl rfl rfl rfl rfl)
    | split

theorem State.bar2Refuse_keeps {r : State} (s : State) (ep off : Nat) (read : Bool) (h : Keeps r s) :
    Keeps r (State.bar2Refuse s ep off read) := by
  unfold State.bar2Refuse
  (try dsimp only)
  repeat' first
    | with_reducible exact h
    | with_reducible assumption
    | with_reducible apply State.record_keeps
    | with_reducible apply Keeps.ite
    | intro _ _ _
    | intro _ _
    | fail_if_no_progress (with_reducible refine Keeps.lit ?_ rfl rfl rfl rfl rfl)

theorem execBar2Access_keeps {r : State} (ep : Fin 2) (off : Nat) (acc : Access) (conds : List EccCond) (s : State) (h : Keeps r s) :
    OutKeeps r (execBar2Access ep off acc conds s) := by
  unfold execBar2Access
  repeat' first
    | with_reducible exact h
    | with_reducible assumption
    | with_reducible apply State.poisoned_keeps
    | with_reducible apply State.record_keeps
    | with_reducible apply State.readOp_keeps
    | with_reducible apply State.bar2Refuse_keeps
    | with_reducible apply State.writeOp_keeps
    | with_reducible apply OutKeeps.next
    | intro _ _ _
    | intro _ _
    | fail_if_no_progress (with_reducible refine Keeps.lit ?_ rfl rfl rfl rfl rfl)
    | split

theorem State.hostReadFails_keeps {r : State} (s : State) (ep : Nat) (req : Requester) (da : Nat) (h : Keeps r s) :
    Keeps r (State.hostReadFails s ep req da) := by
  unfold State.hostReadFails
  (try dsimp only)
  repeat' first
    | with_reducible exact h
    | with_reducible assumption
    | with_reducible apply State.record_keeps
    | with_reducible apply State.answer_keeps
    | with_reducible apply State.failReq_keeps

theorem execHostReadCompletion_keeps {r : State} (ep : Fin 2) (req : Requester) (da : Nat) (st : ReadStatus) (data : List Byte) (s : State) (h : Keeps r s) :
    OutKeeps r (execHostReadCompletion ep req da st data s) := by
  unfold execHostReadCompletion
  repeat' first
    | with_reducible exact h
    | with_reducible assumption
    | with_reducible apply State.wr_keeps
    | with_reducible apply State.answer_keeps
    | with_reducible apply State.poisoned_keeps
    | with_reducible apply State.record_keeps
    | with_reducible apply State.hostReadFails_keeps
    | with_reducible apply OutKeeps.ite
    | with_reducible apply OutKeeps.next
    | with_reducible apply Keeps.ite
    | with_reducible apply Keeps.ite1
    | with_reducible apply Keeps.ite2
    | intro _ _ _
    | intro _ _
    | fail_if_no_progress (with_reducible refine Keeps.lit ?_ rfl rfl rfl rfl rfl)
    | split

theorem execHostReadTimeout_keeps {r : State} (ep : Fin 2) (req : Requester) (da : Nat) (s : State) (h : Keeps r s) :
    OutKeeps r (execHostReadTimeout ep req da s) := by
  unfold execHostReadTimeout
  repeat' first
    | with_reducible exact h
    | with_reducible assumption
    | with_reducible apply State.hostReadFails_keeps
    | with_reducible apply OutKeeps.ite
    | with_reducible apply OutKeeps.next

theorem execMajorFrameStart_keeps {r : State} (s : State) (h : Keeps r s) :
    OutKeeps r (execMajorFrameStart s) := by
  unfold execMajorFrameStart
  (try dsimp only)
  repeat' first
    | with_reducible exact h
    | with_reducible assumption
    | with_reducible apply State.frameStart_keeps
    | with_reducible apply State.twinFrame_keeps
    | with_reducible apply OutKeeps.next
    | intro _ _ _
    | intro _ _
    | fail_if_no_progress (with_reducible refine Keeps.lit ?_ rfl rfl rfl rfl rfl)

theorem execFrameMarkEnd_keeps {r : State} (s : State) (h : Keeps r s) :
    OutKeeps r (execFrameMarkEnd s) := by
  unfold execFrameMarkEnd
  (try dsimp only)
  repeat' first
    | with_reducible exact h
    | with_reducible assumption
    | with_reducible apply State.elapseTo_keeps
    | with_reducible apply OutKeeps.ite
    | with_reducible apply OutKeeps.next
    | with_reducible apply Keeps.ite
    | intro _ _ _
    | intro _ _
    | fail_if_no_progress (with_reducible refine Keeps.lit ?_ rfl rfl rfl rfl rfl)

theorem execTaskEnd_keeps {r : State} (sp : Fin 64) (dt : Nat) (s : State) (h : Keeps r s) :
    OutKeeps r (execTaskEnd sp dt s) := by
  unfold execTaskEnd
  repeat' first
    | with_reducible exact h
    | with_reducible assumption
    | with_reducible apply State.taskEnd_keeps
    | with_reducible apply OutKeeps.next

theorem execLantHbToggle_keeps {r : State} (l : Fin 2) (s : State) (h : Keeps r s) :
    OutKeeps r (execLantHbToggle l s) := by
  unfold execLantHbToggle
  repeat' first
    | with_reducible exact h
    | with_reducible assumption
    | with_reducible apply State.modLantern_keeps
    | with_reducible apply OutKeeps.ite
    | with_reducible apply OutKeeps.next
    | with_reducible apply Keeps.ite

theorem State.warmReset_keeps {r : State} (s : State) (cause : Nat) (h : Keeps r s) : Keeps r (State.warmReset s cause) :=
  ⟨h.pending, fun w => ⟨filter_wfFrom _ (h.canon w).mem, rfl, rfl, rfl, rfl⟩, h.otp⟩

theorem State.transition_keeps {r : State} (s : State) (lc : Nat) (h : Keeps r s) : Keeps r (State.transition s lc) :=
  ⟨h.pending, fun w => have c := h.canon w; ⟨c.mem, c.queues, c.tokens, c.shadows, c.reads⟩, h.otp.trans ⟨rfl, rfl, rfl, rfl, rfl, Nat.le_refl _, Nat.le_succ _⟩⟩

theorem execDelayedWarmReset_keeps {r : State} (s : State) (h : Keeps r s) :
    OutKeeps r (execDelayedWarmReset s) := by
  unfold execDelayedWarmReset
  (try dsimp only)
  repeat' first
    | with_reducible exact h
    | with_reducible assumption
    | with_reducible apply State.elapse_keeps
    | with_reducible apply State.transition_keeps
    | with_reducible apply State.warmReset_keeps
    | with_reducible apply OutKeeps.next
    | intro _ _ _
    | intro _ _
    | fail_if_no_progress (with_reducible refine Keeps.lit ?_ rfl rfl rfl rfl rfl)
    | split

theorem execResetInNPulse_keeps {r : State} (ns : Nat) (s : State) (h : Keeps r s) :
    OutKeeps r (execResetInNPulse ns s) := by
  unfold execResetInNPulse
  (try dsimp only)
  repeat' first
    | with_reducible exact h
    | with_reducible assumption
    | with_reducible apply State.warmReset_keeps
    | with_reducible apply State.draw_keeps
    | with_reducible apply OutKeeps.ite
    | with_reducible apply OutKeeps.next
    | with_reducible apply Keeps.ite

theorem State.cold_keeps {r : State} (s : State) (powered : Bool) (h : Keeps r s) : Keeps r (State.cold s powered) :=
  ⟨h.pending, fun w => ⟨filter_wfFrom _ (h.canon w).mem, rfl, rfl, rfl, rfl⟩, h.otp⟩

theorem execPowerLoss_keeps {r : State} (s : State) (h : Keeps r s) :
    OutKeeps r (execPowerLoss s) := by
  unfold execPowerLoss
  repeat' first
    | with_reducible exact h
    | with_reducible assumption
    | with_reducible apply State.cold_keeps
    | with_reducible apply OutKeeps.next

theorem execPowerOn_keeps {r : State} (s : State) (h : Keeps r s) :
    OutKeeps r (execPowerOn s) := by
  unfold execPowerOn
  repeat' first
    | with_reducible exact h
    | with_reducible assumption
    | with_reducible apply State.cold_keeps
    | with_reducible apply OutKeeps.ite
    | with_reducible apply OutKeeps.next
    | with_reducible apply Keeps.ite

theorem State.identFails_keeps {r : State} (s : State) (l code die : Nat) (h : Keeps r s) :
    Keeps r (State.identFails s l code die) := by
  unfold State.identFails
  (try dsimp only)
  repeat' first
    | with_reducible exact h
    | with_reducible assumption
    | with_reducible apply State.record_keeps
    | with_reducible apply State.modSm_keeps
    | with_reducible apply State.packageDecision_keeps

theorem State.identFailsAll_keeps {r : State} (s : State) (found : List (Nat × Nat × Nat)) (h : Keeps r s) :
    Keeps r (State.identFailsAll s found) := by
  unfold State.identFailsAll
  repeat' first
    | with_reducible exact h
    | with_reducible assumption
    | with_reducible apply State.identFails_keeps
    | (with_reducible refine Keeps.foldl ?_ ?_)
    | intro _ _ _

theorem State.lanternsUp_keeps {r : State} (s : State) (release : Bool) (h : Keeps r s) :
    Keeps r (State.lanternsUp s release) := by
  unfold State.lanternsUp
  repeat' first
    | with_reducible exact h
    | with_reducible assumption
    | with_reducible apply State.modLantern_keeps
    | with_reducible apply State.release_keeps
    | with_reducible apply Keeps.ite
    | (with_reducible refine Keeps.foldl ?_ ?_)
    | intro _ _ _

theorem execPkgIdentCheck_keeps {r : State} (words : List Nat) (hears : LanternsHear) (s : State) (h : Keeps r s) :
    OutKeeps r (execPkgIdentCheck words hears s) := by
  unfold execPkgIdentCheck
  (try dsimp only)
  repeat' first
    | with_reducible exact h
    | with_reducible assumption
    | with_reducible apply State.identFailsAll_keeps
    | with_reducible apply State.lanternsUp_keeps
    | with_reducible apply State.bootErr_keeps
    | with_reducible apply OutKeeps.ite
    | with_reducible apply OutKeeps.next
    | with_reducible apply Keeps.ite
    | intro _ _ _
    | intro _ _
    | fail_if_no_progress (with_reducible refine Keeps.lit ?_ rfl rfl rfl rfl rfl)

theorem State.freshTower_keeps {r : State} (s : State) (t : Nat) (h : Keeps r s) : Keeps r (State.freshTower s t) := by
  unfold State.freshTower
  (try dsimp only)
  have e : Keeps r ((List.range 16).foldl (fun s i => s.modSpire (16 * t + i) fun x =>
      { clk := x.clk, want := x.want, keep := false }) s) := Keeps.foldl h fun v x hv => State.modSpire_keeps _ _ _ hv
  generalize List.foldl _ s (List.range 16) = u at e ⊢
  exact e.toks (filter_wf _) (filter_wf _) (filter_wf _) rfl rfl rfl rfl

theorem execTowerResetDone_keeps {r : State} (t : Fin 4) (words : List Nat) (hears : LanternsHear) (fails : List Nat) (s : State) (h : Keeps r s) :
    OutKeeps r (execTowerResetDone t words hears fails s) := by
  unfold execTowerResetDone
  (try dsimp only)
  repeat' first
    | with_reducible exact h
    | with_reducible assumption
    | with_reducible apply State.warmReset_keeps
    | with_reducible apply State.identFailsAll_keeps
    | with_reducible apply State.lanternsUp_keeps
    | with_reducible apply State.freshTower_keeps
    | with_reducible apply State.selftestFail_keeps
    | with_reducible apply State.finishAll_keeps
    | with_reducible apply OutKeeps.ite
    | with_reducible apply OutKeeps.next
    | with_reducible apply Keeps.ite
    | (with_reducible refine Keeps.foldl ?_ ?_)
    | intro _ _ _
    | intro _ _
    | fail_if_no_progress (with_reducible refine Keeps.lit ?_ rfl rfl rfl rfl rfl)

theorem execNoImage_keeps {r : State} (s : State) (h : Keeps r s) :
    OutKeeps r (execNoImage s) := by
  unfold execNoImage
  repeat' first
    | with_reducible exact h
    | with_reducible assumption
    | with_reducible apply State.elapse_keeps
    | with_reducible apply State.bootErr_keeps
    | with_reducible apply State.recoveryWait_keeps
    | with_reducible apply OutKeeps.ite
    | with_reducible apply OutKeeps.next

theorem execFetchTimeout_keeps {r : State} (s : State) (h : Keeps r s) :
    OutKeeps r (execFetchTimeout s) := by
  unfold execFetchTimeout
  repeat' first
    | with_reducible exact h
    | with_reducible assumption
    | with_reducible apply State.elapse_keeps
    | with_reducible apply State.bootErr_keeps
    | with_reducible apply State.trySlot_keeps
    | with_reducible apply OutKeeps.ite
    | with_reducible apply OutKeeps.next

theorem State.loadImage_keeps {r : State} (s : State) (f : FwImage) (booted : Nat) (recovery : Bool) (h : Keeps r s) :
    Keeps r (State.loadImage s f booted recovery) := by
  unfold State.loadImage
  (try dsimp only)
  repeat' first
    | with_reducible exact h
    | with_reducible assumption
    | with_reducible apply State.lanternsUp_keeps
    | intro _ _ _
    | intro _ _
    | fail_if_no_progress (with_reducible refine Keeps.lit ?_ rfl rfl rfl rfl rfl)

theorem execImageFetchDone_keeps {r : State} (ok : Bool) (s : State) (h : Keeps r s) :
    OutKeeps r (execImageFetchDone ok s) := by
  unfold execImageFetchDone
  (try dsimp only)
  repeat' first
    | with_reducible exact h
    | with_reducible assumption
    | with_reducible apply State.bootErr_keeps
    | with_reducible apply State.trySlot_keeps
    | with_reducible apply State.loadImage_keeps
    | with_reducible apply OutKeeps.ite
    | with_reducible apply OutKeeps.next
    | with_reducible apply Keeps.ite
    | with_reducible apply Keeps.ite1
    | with_reducible apply Keeps.ite2
    | intro _ _ _
    | intro _ _
    | fail_if_no_progress (with_reducible refine Keeps.lit ?_ rfl rfl rfl rfl rfl)
    | split

theorem execRecoveryVerifyDone_keeps {r : State} (s : State) (h : Keeps r s) :
    OutKeeps r (execRecoveryVerifyDone s) := by
  unfold execRecoveryVerifyDone
  (try dsimp only)
  repeat' first
    | with_reducible exact h
    | with_reducible assumption
    | with_reducible apply State.rcvData_keeps
    | with_reducible apply State.loadImage_keeps
    | with_reducible apply State.bootErr_keeps
    | with_reducible apply State.recoveryWait_keeps
    | with_reducible apply OutKeeps.ite
    | with_reducible apply OutKeeps.next
    | with_reducible apply Keeps.ite
    | with_reducible apply Keeps.ite1
    | with_reducible apply Keeps.ite2
    | intro _ _ _
    | intro _ _
    | fail_if_no_progress (with_reducible refine Keeps.lit ?_ rfl rfl rfl rfl rfl)
    | split

theorem execLanternSectionCheck_keeps {r : State} (l : Fin 2) (ok : Bool) (s : State) (h : Keeps r s) :
    OutKeeps r (execLanternSectionCheck l ok s) := by
  unfold execLanternSectionCheck
  (try dsimp only)
  repeat' first
    | with_reducible exact h
    | with_reducible assumption
    | with_reducible apply State.lanternsUp_keeps
    | with_reducible apply State.record_keeps
    | with_reducible apply State.packageDecision_keeps
    | with_reducible apply OutKeeps.ite
    | with_reducible apply OutKeeps.next
    | with_reducible apply Keeps.ite
    | with_reducible apply Keeps.ite1
    | with_reducible apply Keeps.ite2
    | intro _ _ _
    | intro _ _
    | fail_if_no_progress (with_reducible refine Keeps.lit ?_ rfl rfl rfl rfl rfl)
    | split

theorem execUnitInitDone_keeps {r : State} (fails : List Nat) (s : State) (h : Keeps r s) :
    OutKeeps r (execUnitInitDone fails s) := by
  unfold execUnitInitDone
  (try dsimp only)
  repeat' first
    | with_reducible exact h
    | with_reducible assumption
    | with_reducible apply State.selftestFail_keeps
    | with_reducible apply State.bootErr_keeps
    | with_reducible apply OutKeeps.ite
    | with_reducible apply OutKeeps.next
    | with_reducible apply Keeps.ite
    | (with_reducible refine Keeps.foldl ?_ ?_)
    | intro _ _ _
    | intro _ _
    | fail_if_no_progress (with_reducible refine Keeps.lit ?_ rfl rfl rfl rfl rfl)

theorem execDramWipeDone_keeps {r : State} (s : State) (h : Keeps r s) :
    OutKeeps r (execDramWipeDone s) := by
  unfold execDramWipeDone
  (try dsimp only)
  repeat' first
    | with_reducible exact h
    | with_reducible assumption
    | with_reducible apply OutKeeps.ite
    | with_reducible apply OutKeeps.next
    | with_reducible apply Keeps.ite
    | intro _ _ _
    | intro _ _
    | fail_if_no_progress (with_reducible refine Keeps.lit ?_ rfl rfl rfl rfl rfl)

theorem State.placeQueue_keeps {r : State} (s : State) (q : QueueId) (drop : Bool) (t : Nat) (h : Keeps r s) :
    Keeps r (State.placeQueue s q drop t) := by
  unfold State.placeQueue
  (try dsimp only)
  repeat' first
    | with_reducible exact h
    | with_reducible assumption
    | with_reducible apply State.draw_keeps
    | with_reducible apply State.setQ_keeps

theorem State.placeQueues_keeps {r : State} (s : State) (h : Keeps r s) :
    Keeps r (State.placeQueues s) := by
  unfold State.placeQueues
  (try dsimp only)
  repeat' first
    | with_reducible exact h
    | with_reducible assumption
    | with_reducible apply State.placeQueue_keeps
    | (with_reducible refine Keeps.foldl ?_ ?_)
    | intro _ _ _

theorem execLmpReady_keeps {r : State} (s : State) (h : Keeps r s) : OutKeeps r (execLmpReady s) := by
  unfold execLmpReady
  (try dsimp only)
  split
  · split
    · exact h
    · have k := State.setQ_keeps s.placeQueues 0 { s.placeQueues.q 0 with enable := true } (State.placeQueues_keeps s h)
      generalize State.setQ s.placeQueues 0 _ = u at k ⊢
      exact ⟨k.pending, fun w => have c := k.canon w; ⟨c.mem, c.queues, c.tokens, c.shadows, c.reads⟩,
        k.otp.trans ⟨rfl, rfl, rfl, rfl, rfl, Nat.le_max_left _ _, Nat.le_refl _⟩⟩
  · exact h

theorem fwStageBody_keeps {r : State} (ok : Bool) (c : Ctx) (s : State) (h : Keeps r s) :
    LmpKeeps r (fwStageBody ok c s) := by
  unfold fwStageBody
  (try dsimp only)
  repeat' first
    | with_reducible exact h
    | with_reducible assumption
    | with_reducible apply LmpKeeps.checked
    | with_reducible apply LmpKeeps.wait
    | with_reducible apply LmpKeeps.done
    | with_reducible apply LmpKeeps.ite
    | with_reducible apply Keeps.ite
    | with_reducible apply Keeps.ite1
    | with_reducible apply Keeps.ite2
    | intro _ _ _
    | intro _ _
    | fail_if_no_progress (with_reducible refine Keeps.lit ?_ rfl rfl rfl rfl rfl)
    | split

theorem execFwStage_keeps {r : State} (m : Fin 64) (ok : Bool) (s : State) (h : Keeps r s) :
    OutKeeps r (execFwStage m ok s) := by
  unfold execFwStage
  repeat' first
    | with_reducible exact h
    | with_reducible assumption
    | with_reducible apply State.lmp_keeps
    | with_reducible apply fwStageBody_keeps
    | with_reducible apply OutKeeps.next

theorem fwActivateBody_keeps {r : State} (c : Ctx) (s : State) (h : Keeps r s) :
    LmpKeeps r (fwActivateBody c s) := by
  unfold fwActivateBody
  (try dsimp only)
  repeat' first
    | with_reducible exact h
    | with_reducible assumption
    | with_reducible apply State.warmDue_keeps
    | with_reducible apply LmpKeeps.checked
    | with_reducible apply LmpKeeps.wait
    | with_reducible apply LmpKeeps.done
    | with_reducible apply LmpKeeps.ite
    | intro _ _ _
    | intro _ _
    | fail_if_no_progress (with_reducible refine Keeps.lit ?_ rfl rfl rfl rfl rfl)
    | split

theorem execFwActivate_keeps {r : State} (m : Fin 64) (s : State) (h : Keeps r s) :
    OutKeeps r (execFwActivate m s) := by
  unfold execFwActivate
  repeat' first
    | with_reducible exact h
    | with_reducible assumption
    | with_reducible apply State.lmp_keeps
    | with_reducible apply fwActivateBody_keeps
    | with_reducible apply OutKeeps.next

theorem execEntropyHealthFail_keeps {r : State} (side : Fin 2) (s : State) (h : Keeps r s) :
    OutKeeps r (execEntropyHealthFail side s) := by
  unfold execEntropyHealthFail
  (try dsimp only)
  repeat' first
    | with_reducible exact h
    | with_reducible assumption
    | with_reducible apply State.record_keeps
    | with_reducible apply OutKeeps.ite
    | with_reducible apply OutKeeps.next
    | with_reducible apply Keeps.ite
    | intro _ _ _
    | intro _ _
    | fail_if_no_progress (with_reducible refine Keeps.lit ?_ rfl rfl rfl rfl rfl)

theorem State.modDisplay_keeps {r : State} (s : State) (p : Nat) (f : Display → Display) (h : Keeps r s) :
    Keeps r (State.modDisplay s p f) := by
  unfold State.modDisplay
  (try dsimp only)
  repeat' first
    | with_reducible exact h
    | with_reducible assumption
    | intro _ _ _
    | intro _ _
    | fail_if_no_progress (with_reducible refine Keeps.lit ?_ rfl rfl rfl rfl rfl)

theorem displayBindBody_keeps {r : State} (c : Ctx) (s : State) (h : Keeps r s) :
    LmpKeeps r (displayBindBody c s) := by
  unfold displayBindBody
  (try dsimp only)
  repeat' first
    | with_reducible exact h
    | with_reducible assumption
    | with_reducible apply State.modDisplay_keeps
    | with_reducible apply LmpKeeps.checked
    | with_reducible apply LmpKeeps.wait
    | with_reducible apply LmpKeeps.done
    | with_reducible apply LmpKeeps.ite
    | with_reducible apply Keeps.ite
    | with_reducible apply Keeps.ite1
    | with_reducible apply Keeps.ite2
    | intro _ _ _
    | intro _ _
    | fail_if_no_progress (with_reducible refine Keeps.lit ?_ rfl rfl rfl rfl rfl)

theorem execDisplayBind_keeps {r : State} (m : Fin 64) (s : State) (h : Keeps r s) :
    OutKeeps r (execDisplayBind m s) := by
  unfold execDisplayBind
  repeat' first
    | with_reducible exact h
    | with_reducible assumption
    | with_reducible apply State.lmp_keeps
    | with_reducible apply displayBindBody_keeps
    | with_reducible apply OutKeeps.next

theorem execDisplayFrameStart_keeps {r : State} (port : Fin 4) (s : State) (h : Keeps r s) :
    OutKeeps r (execDisplayFrameStart port s) := by
  unfold execDisplayFrameStart
  (try dsimp only)
  repeat' first
    | with_reducible exact h
    | with_reducible assumption
    | with_reducible apply State.elapseTo_keeps
    | with_reducible apply State.modDisplay_keeps
    | with_reducible apply State.finishAll_keeps
    | with_reducible apply OutKeeps.ite
    | with_reducible apply OutKeeps.next
    | with_reducible apply Keeps.ite
    | with_reducible apply Keeps.ite1
    | with_reducible apply Keeps.ite2
    | intro _ _ _
    | intro _ _
    | fail_if_no_progress (with_reducible refine Keeps.lit ?_ rfl rfl rfl rfl rfl)
    | split

theorem State.disableLayer_keeps {r : State} (s : State) (p l : Nat) (h : Keeps r s) :
    Keeps r (State.disableLayer s p l) := by
  unfold State.disableLayer
  (try dsimp only)
  repeat' first
    | with_reducible exact h
    | with_reducible assumption
    | with_reducible apply State.record_keeps
    | with_reducible apply State.modDisplay_keeps
    | with_reducible apply State.post_keeps
    | with_reducible apply Keeps.ite
    | with_reducible apply Keeps.ite1
    | with_reducible apply Keeps.ite2
    | intro _ _ _
    | intro _ _
    | fail_if_no_progress (with_reducible refine Keeps.lit ?_ rfl rfl rfl rfl rfl)
    | split

theorem execLayerDisabled_keeps {r : State} (port : Fin 4) (layer : Fin 4) (s : State) (h : Keeps r s) :
    OutKeeps r (execLayerDisabled port layer s) := by
  unfold execLayerDisabled
  repeat' first
    | with_reducible exact h
    | with_reducible assumption
    | with_reducible apply State.disableLayer_keeps
    | with_reducible apply OutKeeps.next

theorem execDisplayLineSend_keeps {r : State} (port : Fin 4) (late : List (Nat × Nat)) (s : State) (h : Keeps r s) :
    OutKeeps r (execDisplayLineSend port late s) := by
  unfold execDisplayLineSend
  (try dsimp only)
  repeat' first
    | with_reducible exact h
    | with_reducible assumption
    | with_reducible apply State.disableLayer_keeps
    | with_reducible apply State.modDisplay_keeps
    | with_reducible apply OutKeeps.ite
    | with_reducible apply OutKeeps.next
    | with_reducible apply Keeps.ite
    | with_reducible apply Keeps.ite1
    | with_reducible apply Keeps.ite2
    | (with_reducible refine Keeps.foldl ?_ ?_)
    | intro _ _ _
    | intro _ _
    | fail_if_no_progress (with_reducible refine Keeps.lit ?_ rfl rfl rfl rfl rfl)
    | split

theorem State.modSorter_keeps {r : State} (s : State) (d : Nat) (f : Sorter → Sorter) (h : Keeps r s) :
    Keeps r (State.modSorter s d f) := by
  unfold State.modSorter
  repeat' first
    | with_reducible exact h
    | with_reducible assumption
    | intro _ _ _
    | intro _ _
    | fail_if_no_progress (with_reducible refine Keeps.lit ?_ rfl rfl rfl rfl rfl)

theorem State.sorterFault_keeps {r0 : State} (s : State) (d : Nat) (r : SortReq) (h : Keeps r0 s) :
    Keeps r0 (State.sorterFault s d r) := by
  unfold State.sorterFault
  repeat' first
    | with_reducible exact h
    | with_reducible assumption
    | with_reducible apply State.record_keeps
    | with_reducible apply State.failRun_keeps

theorem State.sortRoute_keeps {r0 : State} (s : State) (own : Nat) (r : SortReq) (h : Keeps r0 s) :
    Keeps r0 (State.sortRoute s own r) := by
  unfold State.sortRoute
  (try dsimp only)
  repeat' first
    | with_reducible exact h
    | with_reducible assumption
    | with_reducible apply State.modSorter_keeps
    | with_reducible apply State.sorterFault_keeps
    | with_reducible apply Keeps.ite
    | with_reducible apply Keeps.ite1
    | with_reducible apply Keeps.ite2
    | intro _ _ _
    | intro _ _
    | fail_if_no_progress (with_reducible refine Keeps.lit ?_ rfl rfl rfl rfl rfl)
    | split

theorem execSortRequest_keeps {r : State} (sp : Fin 64) (da : Nat) (s : State) (h : Keeps r s) :
    OutKeeps r (execSortRequest sp da s) := by
  unfold execSortRequest
  repeat' first
    | with_reducible exact h
    | with_reducible assumption
    | with_reducible apply State.sortRoute_keeps
    | with_reducible apply OutKeeps.ite
    | with_reducible apply OutKeeps.next
    | with_reducible apply Keeps.ite
    | with_reducible apply Keeps.ite1
    | with_reducible apply Keeps.ite2
    | intro _ _ _
    | intro _ _
    | fail_if_no_progress (with_reducible refine Keeps.lit ?_ rfl rfl rfl rfl rfl)
    | split

theorem execSortStart_keeps {r : State} (dome : Fin 16) (s : State) (h : Keeps r s) :
    OutKeeps r (execSortStart dome s) := by
  unfold execSortStart
  (try dsimp only)
  repeat' first
    | with_reducible exact h
    | with_reducible assumption
    | with_reducible apply State.modSorter_keeps
    | with_reducible apply State.stale_keeps
    | with_reducible apply State.sorterFault_keeps
    | with_reducible apply State.fetch_keeps
    | with_reducible apply State.memFault_keeps
    | with_reducible apply OutKeeps.ite
    | with_reducible apply OutKeeps.next
    | with_reducible apply Keeps.ite
    | with_reducible apply Keeps.ite1
    | with_reducible apply Keeps.ite2
    | intro _ _ _
    | intro _ _
    | fail_if_no_progress (with_reducible refine Keeps.lit ?_ rfl rfl rfl rfl rfl)
    | split

theorem State.sortReads_keeps {r : State} : ∀ (x0 : List (Nat × Nat)) (q : Requester) (sp : Nat) (s : State) (_ : Keeps r s), Keeps r (State.sortReads s q sp x0).1
  | [], q, sp, s, h => by
    unfold State.sortReads
    (try dsimp only)
    repeat' first
      | with_reducible exact h
  | (a, n) :: t, q, sp, s, h => by
    unfold State.sortReads
    (try dsimp only)
    repeat' first
      | with_reducible exact h
      | with_reducible assumption
      | with_reducible apply State.sortReads_keeps
      | with_reducible apply State.fetch_keeps
      | with_reducible apply Keeps.ite
      | with_reducible apply Keeps.ite1

theorem State.sortScratch_keeps {r : State} (s : State) (q : Requester) (f : SortDesc) (h : Keeps r s) :
    Keeps r (State.sortScratch s q f) := by
  unfold State.sortScratch
  (try dsimp only)
  repeat' first
    | with_reducible exact h
    | with_reducible assumption
    | with_reducible apply State.writeOp_keeps
    | intro _ _ _
    | intro _ _
    | fail_if_no_progress (with_reducible refine Keeps.lit ?_ rfl rfl rfl rfl rfl)

theorem State.sortWrite_keeps {r0 : State} (s : State) (d : Nat) (r : SortReq) (ws : List W64) (h : Keeps r0 s) :
    Keeps r0 (State.sortWrite s d r ws) := by
  unfold State.sortWrite
  (try dsimp only)
  repeat' first
    | with_reducible exact h
    | with_reducible assumption
    | with_reducible apply State.modSorter_keeps
    | with_reducible apply State.stale_keeps
    | with_reducible apply State.sortReads_keeps
    | with_reducible apply State.memFault_keeps
    | with_reducible apply State.sortScratch_keeps
    | with_reducible apply State.writeOp_keeps
    | with_reducible apply Keeps.ite
    | with_reducible apply Keeps.ite1
    | with_reducible apply Keeps.ite2
    | intro _ _ _
    | intro _ _
    | fail_if_no_progress (with_reducible refine Keeps.lit ?_ rfl rfl rfl rfl rfl)
    | split
    | (with_reducible refine Keeps.fst (by assumption) ?_)

theorem execSortDone_keeps {r : State} (dome : Fin 16) (mismatch : Bool) (s : State) (h : Keeps r s) :
    OutKeeps r (execSortDone dome mismatch s) := by
  unfold execSortDone
  (try dsimp only)
  repeat' first
    | with_reducible exact h
    | with_reducible assumption
    | with_reducible apply State.modSorter_keeps
    | with_reducible apply State.sortWrite_keeps
    | with_reducible apply OutKeeps.ite
    | with_reducible apply OutKeeps.next
    | with_reducible apply Keeps.ite
    | with_reducible apply Keeps.ite1
    | with_reducible apply Keeps.ite2
    | intro _ _ _
    | intro _ _
    | fail_if_no_progress (with_reducible refine Keeps.lit ?_ rfl rfl rfl rfl rfl)
    | split

theorem execSortRepeatDone_keeps {r : State} (dome : Fin 16) (mismatch : Bool) (s : State) (h : Keeps r s) :
    OutKeeps r (execSortRepeatDone dome mismatch s) := by
  unfold execSortRepeatDone
  (try dsimp only)
  repeat' first
    | with_reducible exact h
    | with_reducible assumption
    | with_reducible apply State.modSorter_keeps
    | with_reducible apply State.record_keeps
    | with_reducible apply State.sorterFault_keeps
    | with_reducible apply State.sortRoute_keeps
    | with_reducible apply State.sortWrite_keeps
    | with_reducible apply OutKeeps.ite
    | with_reducible apply OutKeeps.next
    | with_reducible apply Keeps.ite
    | with_reducible apply Keeps.ite1
    | with_reducible apply Keeps.ite2
    | (with_reducible refine Keeps.foldl ?_ ?_)
    | intro _ _ _
    | intro _ _
    | fail_if_no_progress (with_reducible refine Keeps.lit ?_ rfl rfl rfl rfl rfl)
    | split

theorem State.postHeat_keeps {r : State} (s : State) (src code payload : Nat) (ext : List Nat) (h : Keeps r s) :
    Keeps r (State.postHeat s src code payload ext) := by
  unfold State.postHeat
  repeat' first
    | with_reducible exact h
    | with_reducible assumption
    | with_reducible apply State.post_keeps

theorem State.mhz_keeps {r : State} (s : State) (n : Nat) (h : Keeps r s) :
    Keeps r (State.mhz s n).2 := by
  unfold State.mhz
  (try dsimp only)
  repeat' first
    | with_reducible exact h
    | with_reducible assumption
    | with_reducible apply State.draw_keeps
    | with_reducible apply Keeps.ite
    | with_reducible apply Keeps.ite1
    | with_reducible apply Keeps.ite2

theorem State.postLife_keeps {r : State} (s : State) (h : Keeps r s) :
    Keeps r (State.postLife s) := by
  unfold State.postLife
  (try dsimp only)
  repeat' first
    | with_reducible exact h
    | with_reducible assumption
    | with_reducible apply State.ageLife_keeps
    | with_reducible apply State.postHeat_keeps

theorem execLife_keeps {r : State} (s : State) (h : Keeps r s) :
    OutKeeps r (execLife s) := by
  unfold execLife
  (try dsimp only)
  repeat' first
    | with_reducible exact h
    | with_reducible assumption
    | with_reducible apply State.ageLife_keeps
    | with_reducible apply State.elapse_keeps
    | with_reducible apply State.postLife_keeps
    | with_reducible apply OutKeeps.next
    | intro _ _ _
    | intro _ _
    | fail_if_no_progress (with_reducible refine Keeps.lit ?_ rfl rfl rfl rfl rfl)

theorem execSensorRead_keeps {r : State} (spot : Fin 36) (a b : Option Int) (s : State) (h : Keeps r s) :
    OutKeeps r (execSensorRead spot a b s) := by
  unfold execSensorRead
  (try dsimp only)
  repeat' first
    | with_reducible exact h
    | with_reducible assumption
    | with_reducible apply State.ageLife_keeps
    | with_reducible apply State.openLevel_keeps
    | with_reducible apply State.record_keeps
    | with_reducible apply OutKeeps.ite
    | with_reducible apply OutKeeps.next
    | with_reducible apply Keeps.ite
    | with_reducible apply Keeps.ite1
    | with_reducible apply Keeps.ite2
    | intro _ _ _
    | intro _ _
    | fail_if_no_progress (with_reducible refine Keeps.lit ?_ rfl rfl rfl rfl rfl)

theorem execSensorFaultPersist_keeps {r : State} (spot : Fin 36) (s : State) (h : Keeps r s) :
    OutKeeps r (execSensorFaultPersist spot s) := by
  unfold execSensorFaultPersist
  (try dsimp only)
  repeat' first
    | with_reducible exact h
    | with_reducible assumption
    | with_reducible apply State.elapse_keeps
    | with_reducible apply State.record_keeps
    | with_reducible apply State.postHeat_keeps
    | with_reducible apply State.modTower_keeps
    | with_reducible apply State.wantTower_keeps
    | with_reducible apply OutKeeps.ite
    | with_reducible apply OutKeeps.next
    | with_reducible apply Keeps.ite
    | (with_reducible refine Keeps.foldl ?_ ?_)
    | intro _ _ _
    | intro _ _
    | fail_if_no_progress (with_reducible refine Keeps.lit ?_ rfl rfl rfl rfl rfl)

theorem execThermalCeilingUpdate_keeps {r : State} (t : Fin 4) (s : State) (h : Keeps r s) :
    OutKeeps r (execThermalCeilingUpdate t s) := by
  unfold execThermalCeilingUpdate
  (try dsimp only)
  repeat' first
    | with_reducible exact h
    | with_reducible assumption
    | with_reducible apply State.elapse_keeps
    | with_reducible apply State.modTower_keeps
    | with_reducible apply State.wantTower_keeps
    | with_reducible apply State.mhz_keeps
    | with_reducible apply State.draw_keeps
    | with_reducible apply State.postHeat_keeps
    | with_reducible apply OutKeeps.ite
    | with_reducible apply OutKeeps.next

theorem execBaseDieOverheat_keeps {r : State} (t : Fin 4) (s : State) (h : Keeps r s) :
    OutKeeps r (execBaseDieOverheat t s) := by
  unfold execBaseDieOverheat
  repeat' first
    | with_reducible exact h
    | with_reducible assumption
    | with_reducible apply State.elapse_keeps
    | with_reducible apply State.record_keeps
    | with_reducible apply State.packageFrom_keeps
    | with_reducible apply OutKeeps.next
    | intro _ _ _
    | intro _ _
    | fail_if_no_progress (with_reducible refine Keeps.lit ?_ rfl rfl rfl rfl rfl)
    | split

theorem execThermalTrip_keeps {r : State} (t : Fin 4) (spot : Fin 8) (s : State) (h : Keeps r s) :
    OutKeeps r (execThermalTrip t spot s) := by
  unfold execThermalTrip
  (try dsimp only)
  repeat' first
    | with_reducible exact h
    | with_reducible assumption
    | with_reducible apply State.ageLife_keeps
    | with_reducible apply State.modSpire_keeps
    | with_reducible apply State.record_keeps
    | with_reducible apply State.towerQuarantine_keeps
    | with_reducible apply State.postHeat_keeps
    | with_reducible apply State.postLife_keeps
    | with_reducible apply OutKeeps.ite
    | with_reducible apply OutKeeps.next
    | with_reducible apply Keeps.ite
    | (with_reducible refine Keeps.foldl ?_ ?_)
    | intro _ _ _
    | intro _ _
    | fail_if_no_progress (with_reducible refine Keeps.lit ?_ rfl rfl rfl rfl rfl)

theorem execAvsVoltageConfirmed_keeps {r : State} (t : Fin 4) (mv : Nat) (s : State) (h : Keeps r s) :
    OutKeeps r (execAvsVoltageConfirmed t mv s) := by
  unfold execAvsVoltageConfirmed
  (try dsimp only)
  repeat' first
    | with_reducible exact h
    | with_reducible assumption
    | with_reducible apply State.modTower_keeps
    | with_reducible apply State.wantTower_keeps
    | with_reducible apply OutKeeps.ite
    | with_reducible apply OutKeeps.next

theorem execAvsCurrentRead_keeps {r : State} (t : Fin 4) (ma : Nat) (s : State) (h : Keeps r s) :
    OutKeeps r (execAvsCurrentRead t ma s) := by
  unfold execAvsCurrentRead
  repeat' first
    | with_reducible exact h
    | with_reducible assumption
    | with_reducible apply State.modTower_keeps
    | with_reducible apply OutKeeps.next

theorem execRegulatorNoAnswer_keeps {r : State} (t : Fin 4) (s : State) (h : Keeps r s) :
    OutKeeps r (execRegulatorNoAnswer t s) := by
  unfold execRegulatorNoAnswer
  (try dsimp only)
  repeat' first
    | with_reducible exact h
    | with_reducible assumption
    | with_reducible apply State.openLevel_keeps
    | with_reducible apply State.record_keeps
    | with_reducible apply State.modTower_keeps
    | with_reducible apply State.wantTower_keeps
    | with_reducible apply OutKeeps.next

theorem State.setCeil_keeps {r : State} (s : State) (p n : Nat) (h : Keeps r s) :
    Keeps r (State.setCeil s p n) := by
  unfold State.setCeil
  (try dsimp only)
  repeat' first
    | with_reducible exact h
    | with_reducible assumption
    | with_reducible apply State.modPart_keeps
    | with_reducible apply State.wantAll_keeps
    | with_reducible apply State.mhz_keeps
    | with_reducible apply State.postHeat_keeps

theorem State.heatStep_keeps {r : State} (s : State) (h : Keeps r s) :
    Keeps r (State.heatStep s) := by
  unfold State.heatStep
  (try dsimp only)
  repeat' first
    | with_reducible exact h
    | with_reducible assumption
    | with_reducible apply State.setCeil_keeps
    | with_reducible apply State.suspend_keeps
    | with_reducible apply State.postHeat_keeps
    | intro _ _ _
    | intro _ _
    | fail_if_no_progress (with_reducible refine Keeps.lit ?_ rfl rfl rfl rfl rfl)
    | split

theorem State.heatRelease_keeps {r : State} (s : State) (h : Keeps r s) :
    Keeps r (State.heatRelease s) := by
  unfold State.heatRelease
  (try dsimp only)
  repeat' first
    | with_reducible exact h
    | with_reducible assumption
    | with_reducible apply State.modPart_keeps
    | with_reducible apply State.postHeat_keeps
    | with_reducible apply State.setCeil_keeps
    | intro _ _ _
    | intro _ _
    | fail_if_no_progress (with_reducible refine Keeps.lit ?_ rfl rfl rfl rfl rfl)
    | split

theorem State.balancePower_keeps {r : State} (s : State) (p : Nat) (h : Keeps r s) :
    Keeps r (State.balancePower s p) := by
  unfold State.balancePower
  (try dsimp only)
  repeat' first
    | with_reducible exact h
    | with_reducible assumption
    | with_reducible apply State.heatStep_keeps
    | with_reducible apply State.heatRelease_keeps
    | with_reducible apply Keeps.ite
    | intro _ _ _
    | intro _ _
    | fail_if_no_progress (with_reducible refine Keeps.lit ?_ rfl rfl rfl rfl rfl)

theorem State.surviveHandover_keeps {r : State} (s : State) (h : Keeps r s) :
    Keeps r (State.surviveHandover s) := by
  unfold State.surviveHandover
  (try dsimp only)
  repeat' first
    | with_reducible exact h
    | with_reducible assumption
    | with_reducible apply State.send_keeps
    | with_reducible apply Keeps.ite
    | (with_reducible refine Keeps.foldl ?_ ?_)
    | intro _ _ _
    | intro _ _
    | fail_if_no_progress (with_reducible refine Keeps.lit ?_ rfl rfl rfl rfl rfl)

theorem State.survive_keeps {r : State} (s : State) (cause : Nat) (h : Keeps r s) :
    Keeps r (State.survive s cause) := by
  unfold State.survive
  (try dsimp only)
  repeat' first
    | with_reducible exact h
    | with_reducible assumption
    | with_reducible apply State.ageLife_keeps
    | with_reducible apply State.suspend_keeps
    | with_reducible apply State.wantAll_keeps
    | with_reducible apply State.openLevel_keeps
    | with_reducible apply State.record_keeps
    | with_reducible apply State.postHeat_keeps
    | with_reducible apply State.postLife_keeps
    | with_reducible apply State.surviveHandover_keeps
    | with_reducible apply Keeps.ite
    | with_reducible apply Keeps.ite1
    | with_reducible apply Keeps.ite2
    | (with_reducible refine Keeps.foldl ?_ ?_)
    | intro _ _ _
    | intro _ _
    | fail_if_no_progress (with_reducible refine Keeps.lit ?_ rfl rfl rfl rfl rfl)

theorem State.surviveEnd_keeps {r : State} (s : State) (h : Keeps r s) :
    Keeps r (State.surviveEnd s) := by
  unfold State.surviveEnd
  (try dsimp only)
  repeat' first
    | with_reducible exact h
    | with_reducible assumption
    | with_reducible apply State.modPart_keeps
    | with_reducible apply State.wantAll_keeps
    | with_reducible apply State.postHeat_keeps
    | with_reducible apply Keeps.ite
    | (with_reducible refine Keeps.foldl ?_ ?_)
    | intro _ _ _
    | intro _ _
    | fail_if_no_progress (with_reducible refine Keeps.lit ?_ rfl rfl rfl rfl rfl)

theorem execHubSampleRead_keeps {r : State} (ok : Bool) (words : List Byte) (pMeas : Nat) (s : State) (h : Keeps r s) :
    OutKeeps r (execHubSampleRead ok words pMeas s) := by
  unfold execHubSampleRead
  (try dsimp only)
  repeat' first
    | with_reducible exact h
    | with_reducible assumption
    | with_reducible apply State.elapse_keeps
    | with_reducible apply State.postHeat_keeps
    | with_reducible apply State.surviveEnd_keeps
    | with_reducible apply State.survive_keeps
    | with_reducible apply State.balancePower_keeps
    | with_reducible apply OutKeeps.ite
    | with_reducible apply OutKeeps.next
    | with_reducible apply Keeps.ite
    | with_reducible apply Keeps.ite1
    | with_reducible apply Keeps.ite2
    | intro _ _ _
    | intro _ _
    | fail_if_no_progress (with_reducible refine Keeps.lit ?_ rfl rfl rfl rfl rfl)
    | split

theorem execHubSilent_keeps {r : State} (s : State) (h : Keeps r s) :
    OutKeeps r (execHubSilent s) := by
  unfold execHubSilent
  repeat' first
    | with_reducible exact h
    | with_reducible assumption
    | with_reducible apply State.elapse_keeps
    | with_reducible apply State.survive_keeps
    | with_reducible apply OutKeeps.next

theorem execHeatBalanceWindow_keeps {r : State} (pMeas : Nat) (s : State) (h : Keeps r s) :
    OutKeeps r (execHeatBalanceWindow pMeas s) := by
  unfold execHeatBalanceWindow
  (try dsimp only)
  repeat' first
    | with_reducible exact h
    | with_reducible assumption
    | with_reducible apply State.elapse_keeps
    | with_reducible apply State.openLevel_keeps
    | with_reducible apply State.record_keeps
    | with_reducible apply State.postHeat_keeps
    | with_reducible apply OutKeeps.ite
    | with_reducible apply OutKeeps.next
    | with_reducible apply Keeps.ite
    | with_reducible apply Keeps.ite1
    | with_reducible apply Keeps.ite2
    | intro _ _ _
    | intro _ _
    | fail_if_no_progress (with_reducible refine Keeps.lit ?_ rfl rfl rfl rfl rfl)

theorem execTowersOff_keeps {r : State} (s : State) (h : Keeps r s) : OutKeeps r (execTowersOff s) := by
  unfold execTowersOff
  (try dsimp only)
  split
  · split
    · exact h
    · have k := fun dt => State.elapse_keeps s dt h
      split
      · exact Keeps.lit (k _) rfl rfl rfl rfl rfl
      · refine Keeps.foldl ?_ (fun v x hv => State.degrade_keeps _ _ hv)
        generalize hs : List.foldl _ (State.packageAll _) (List.range 64) = s4
        have e : Keeps r s4 := by
          rw [← hs]
          exact Keeps.foldl (State.packageAll_keeps _ (State.postHeat_keeps _ _ _ _ _ (Keeps.lit (k _) rfl rfl rfl rfl rfl)))
            fun v x hv => State.modSpire_keeps _ _ _ hv
        exact e.bytes (memFilter_wf _) rfl rfl rfl rfl
  · exact h

theorem State.loseDomain_keeps {r : State} (s : State) (d : PowerDomain) (h : Keeps r s) :
    Keeps r (State.loseDomain s d) := by
  unfold State.loseDomain
  (try dsimp only)
  repeat' first
    | with_reducible exact h
    | with_reducible assumption
    | with_reducible apply State.zero_keeps
    | with_reducible apply State.modEng_keeps
    | intro _ _ _
    | intro _ _
    | fail_if_no_progress (with_reducible refine Keeps.lit ?_ rfl rfl rfl rfl rfl)
    | split

theorem State.gainDomain_keeps {r : State} (s : State) (d : PowerDomain) (h : Keeps r s) :
    Keeps r (State.gainDomain s d) := by
  unfold State.gainDomain
  repeat' first
    | with_reducible exact h
    | with_reducible assumption
    | with_reducible apply State.modEng_keeps
    | intro _ _ _
    | intro _ _
    | fail_if_no_progress (with_reducible refine Keeps.lit ?_ rfl rfl rfl rfl rfl)
    | split

theorem execPowerDomainSwitch_keeps {r : State} (dom : PowerDomain) (on : Bool) (s : State) (h : Keeps r s) :
    OutKeeps r (execPowerDomainSwitch dom on s) := by
  unfold execPowerDomainSwitch
  (try dsimp only)
  repeat' first
    | with_reducible exact h
    | with_reducible assumption
    | with_reducible apply State.gainDomain_keeps
    | with_reducible apply State.loseDomain_keeps
    | with_reducible apply OutKeeps.ite
    | with_reducible apply OutKeeps.next
    | with_reducible apply Keeps.ite
    | intro _ _ _
    | intro _ _
    | fail_if_no_progress (with_reducible refine Keeps.lit ?_ rfl rfl rfl rfl rfl)

theorem thermalPolicyBody_keeps {r : State} (c : Ctx) (s : State) (h : Keeps r s) :
    LmpKeeps r (thermalPolicyBody c s) := by
  unfold thermalPolicyBody
  (try dsimp only)
  repeat' first
    | with_reducible exact h
    | with_reducible assumption
    | with_reducible apply LmpKeeps.checked
    | with_reducible apply LmpKeeps.wait
    | with_reducible apply LmpKeeps.done
    | with_reducible apply LmpKeeps.ite
    | with_reducible apply Keeps.ite
    | intro _ _ _
    | intro _ _
    | fail_if_no_progress (with_reducible refine Keeps.lit ?_ rfl rfl rfl rfl rfl)

theorem execThermalPolicy_keeps {r : State} (m : Fin 64) (s : State) (h : Keeps r s) :
    OutKeeps r (execThermalPolicy m s) := by
  unfold execThermalPolicy
  repeat' first
    | with_reducible exact h
    | with_reducible assumption
    | with_reducible apply State.lmp_keeps
    | with_reducible apply thermalPolicyBody_keeps
    | with_reducible apply OutKeeps.next

end Sys2Proof.Machine
end

