-- ==== Sys2Proof/Laws/State.lean ====
section
/-! SUPPORT. What each update of the State leaves alone, one lemma per field, and the read after the write. -/

namespace Sys2Proof.Machine

@[simp] theorem State.modMbx_clk (s : State) (m : Nat) (f : Mailbox → Mailbox) : (s.modMbx m f).clk = s.clk := rfl
@[simp] theorem State.modMbx_recs (s : State) (m : Nat) (f : Mailbox → Mailbox) : (s.modMbx m f).recs = s.recs := rfl
@[simp] theorem State.modMbx_queues (s : State) (m : Nat) (f : Mailbox → Mailbox) : (s.modMbx m f).queues = s.queues := rfl
@[simp] theorem State.modMbx_mem (s : State) (m : Nat) (f : Mailbox → Mailbox) : (s.modMbx m f).mem = s.mem := rfl
@[simp] theorem State.modMbx_sch (s : State) (m : Nat) (f : Mailbox → Mailbox) : (s.modMbx m f).sch = s.sch := rfl
@[simp] theorem State.modMbx_saf (s : State) (m : Nat) (f : Mailbox → Mailbox) : (s.modMbx m f).saf = s.saf := rfl
@[simp] theorem State.modMbx_bs (s : State) (m : Nat) (f : Mailbox → Mailbox) : (s.modMbx m f).bs = s.bs := rfl
@[simp] theorem State.modMbx_tw (s : State) (m : Nat) (f : Mailbox → Mailbox) : (s.modMbx m f).tw = s.tw := rfl
@[simp] theorem State.modMbx_sorters (s : State) (m : Nat) (f : Mailbox → Mailbox) : (s.modMbx m f).sorters = s.sorters := rfl
@[simp] theorem State.modMbx_seq (s : State) (m : Nat) (f : Mailbox → Mailbox) : (s.modMbx m f).seq = s.seq := rfl
@[simp] theorem State.modMbx_plan (s : State) (m : Nat) (f : Mailbox → Mailbox) : (s.modMbx m f).plan = s.plan := rfl
@[simp] theorem State.modMbx_claims (s : State) (m : Nat) (f : Mailbox → Mailbox) : (s.modMbx m f).claims = s.claims := rfl
@[simp] theorem State.modMbx_cam (s : State) (m : Nat) (f : Mailbox → Mailbox) : (s.modMbx m f).cam = s.cam := rfl
@[simp] theorem State.modMbx_otp (s : State) (m : Nat) (f : Mailbox → Mailbox) : (s.modMbx m f).otp = s.otp := rfl
@[simp] theorem State.modMbx_heat (s : State) (m : Nat) (f : Mailbox → Mailbox) : (s.modMbx m f).heat = s.heat := rfl
@[simp] theorem State.modMbx_cfgEpoch (s : State) (m : Nat) (f : Mailbox → Mailbox) : (s.modMbx m f).cfgEpoch = s.cfgEpoch := rfl
@[simp] theorem State.modMbx_frameMark (s : State) (m : Nat) (f : Mailbox → Mailbox) : (s.modMbx m f).frameMark = s.frameMark := rfl
@[simp] theorem State.modMbx_free (s : State) (m : Nat) (f : Mailbox → Mailbox) : (s.modMbx m f).free = s.free := rfl
@[simp] theorem State.modMbx_pending (s : State) (m : Nat) (f : Mailbox → Mailbox) : (s.modMbx m f).pending = s.pending := rfl

@[simp] theorem State.modEp_clk (s : State) (e : Nat) (f : Endpoint → Endpoint) : (s.modEp e f).clk = s.clk := rfl
@[simp] theorem State.modEp_recs (s : State) (e : Nat) (f : Endpoint → Endpoint) : (s.modEp e f).recs = s.recs := rfl
@[simp] theorem State.modEp_queues (s : State) (e : Nat) (f : Endpoint → Endpoint) : (s.modEp e f).queues = s.queues := rfl
@[simp] theorem State.modEp_mem (s : State) (e : Nat) (f : Endpoint → Endpoint) : (s.modEp e f).mem = s.mem := rfl
@[simp] theorem State.modEp_sch (s : State) (e : Nat) (f : Endpoint → Endpoint) : (s.modEp e f).sch = s.sch := rfl
@[simp] theorem State.modEp_saf (s : State) (e : Nat) (f : Endpoint → Endpoint) : (s.modEp e f).saf = s.saf := rfl
@[simp] theorem State.modEp_bs (s : State) (e : Nat) (f : Endpoint → Endpoint) : (s.modEp e f).bs = s.bs := rfl
@[simp] theorem State.modEp_tw (s : State) (e : Nat) (f : Endpoint → Endpoint) : (s.modEp e f).tw = s.tw := rfl
@[simp] theorem State.modEp_sorters (s : State) (e : Nat) (f : Endpoint → Endpoint) : (s.modEp e f).sorters = s.sorters := rfl
@[simp] theorem State.modEp_seq (s : State) (e : Nat) (f : Endpoint → Endpoint) : (s.modEp e f).seq = s.seq := rfl
@[simp] theorem State.modEp_plan (s : State) (e : Nat) (f : Endpoint → Endpoint) : (s.modEp e f).plan = s.plan := rfl
@[simp] theorem State.modEp_claims (s : State) (e : Nat) (f : Endpoint → Endpoint) : (s.modEp e f).claims = s.claims := rfl
@[simp] theorem State.modEp_cam (s : State) (e : Nat) (f : Endpoint → Endpoint) : (s.modEp e f).cam = s.cam := rfl
@[simp] theorem State.modEp_otp (s : State) (e : Nat) (f : Endpoint → Endpoint) : (s.modEp e f).otp = s.otp := rfl
@[simp] theorem State.modEp_heat (s : State) (e : Nat) (f : Endpoint → Endpoint) : (s.modEp e f).heat = s.heat := rfl
@[simp] theorem State.modEp_cfgEpoch (s : State) (e : Nat) (f : Endpoint → Endpoint) : (s.modEp e f).cfgEpoch = s.cfgEpoch := rfl
@[simp] theorem State.modEp_frameMark (s : State) (e : Nat) (f : Endpoint → Endpoint) : (s.modEp e f).frameMark = s.frameMark := rfl
@[simp] theorem State.modEp_free (s : State) (e : Nat) (f : Endpoint → Endpoint) : (s.modEp e f).free = s.free := rfl
@[simp] theorem State.modEp_pending (s : State) (e : Nat) (f : Endpoint → Endpoint) : (s.modEp e f).pending = s.pending := rfl

@[simp] theorem State.modSm_clk (s : State) (l : Nat) (f : I3cTarget → I3cTarget) : (s.modSm l f).clk = s.clk := rfl
@[simp] theorem State.modSm_recs (s : State) (l : Nat) (f : I3cTarget → I3cTarget) : (s.modSm l f).recs = s.recs := rfl
@[simp] theorem State.modSm_queues (s : State) (l : Nat) (f : I3cTarget → I3cTarget) : (s.modSm l f).queues = s.queues := rfl
@[simp] theorem State.modSm_mem (s : State) (l : Nat) (f : I3cTarget → I3cTarget) : (s.modSm l f).mem = s.mem := rfl
@[simp] theorem State.modSm_sch (s : State) (l : Nat) (f : I3cTarget → I3cTarget) : (s.modSm l f).sch = s.sch := rfl
@[simp] theorem State.modSm_saf (s : State) (l : Nat) (f : I3cTarget → I3cTarget) : (s.modSm l f).saf = s.saf := rfl
@[simp] theorem State.modSm_bs (s : State) (l : Nat) (f : I3cTarget → I3cTarget) : (s.modSm l f).bs = s.bs := rfl
@[simp] theorem State.modSm_tw (s : State) (l : Nat) (f : I3cTarget → I3cTarget) : (s.modSm l f).tw = s.tw := rfl
@[simp] theorem State.modSm_sorters (s : State) (l : Nat) (f : I3cTarget → I3cTarget) : (s.modSm l f).sorters = s.sorters := rfl
@[simp] theorem State.modSm_seq (s : State) (l : Nat) (f : I3cTarget → I3cTarget) : (s.modSm l f).seq = s.seq := rfl
@[simp] theorem State.modSm_plan (s : State) (l : Nat) (f : I3cTarget → I3cTarget) : (s.modSm l f).plan = s.plan := rfl
@[simp] theorem State.modSm_claims (s : State) (l : Nat) (f : I3cTarget → I3cTarget) : (s.modSm l f).claims = s.claims := rfl
@[simp] theorem State.modSm_cam (s : State) (l : Nat) (f : I3cTarget → I3cTarget) : (s.modSm l f).cam = s.cam := rfl
@[simp] theorem State.modSm_otp (s : State) (l : Nat) (f : I3cTarget → I3cTarget) : (s.modSm l f).otp = s.otp := rfl
@[simp] theorem State.modSm_heat (s : State) (l : Nat) (f : I3cTarget → I3cTarget) : (s.modSm l f).heat = s.heat := rfl
@[simp] theorem State.modSm_cfgEpoch (s : State) (l : Nat) (f : I3cTarget → I3cTarget) : (s.modSm l f).cfgEpoch = s.cfgEpoch := rfl
@[simp] theorem State.modSm_frameMark (s : State) (l : Nat) (f : I3cTarget → I3cTarget) : (s.modSm l f).frameMark = s.frameMark := rfl
@[simp] theorem State.modSm_free (s : State) (l : Nat) (f : I3cTarget → I3cTarget) : (s.modSm l f).free = s.free := rfl
@[simp] theorem State.modSm_pending (s : State) (l : Nat) (f : I3cTarget → I3cTarget) : (s.modSm l f).pending = s.pending := rfl

@[simp] theorem State.setQ_clk (s : State) (k : Nat) (v : SpillQ) : (s.setQ k v).clk = s.clk := rfl
@[simp] theorem State.setQ_recs (s : State) (k : Nat) (v : SpillQ) : (s.setQ k v).recs = s.recs := rfl
@[simp] theorem State.setQ_host (s : State) (k : Nat) (v : SpillQ) : (s.setQ k v).host = s.host := rfl
@[simp] theorem State.setQ_mem (s : State) (k : Nat) (v : SpillQ) : (s.setQ k v).mem = s.mem := rfl
@[simp] theorem State.setQ_sch (s : State) (k : Nat) (v : SpillQ) : (s.setQ k v).sch = s.sch := rfl
@[simp] theorem State.setQ_saf (s : State) (k : Nat) (v : SpillQ) : (s.setQ k v).saf = s.saf := rfl
@[simp] theorem State.setQ_bs (s : State) (k : Nat) (v : SpillQ) : (s.setQ k v).bs = s.bs := rfl
@[simp] theorem State.setQ_tw (s : State) (k : Nat) (v : SpillQ) : (s.setQ k v).tw = s.tw := rfl
@[simp] theorem State.setQ_sorters (s : State) (k : Nat) (v : SpillQ) : (s.setQ k v).sorters = s.sorters := rfl
@[simp] theorem State.setQ_seq (s : State) (k : Nat) (v : SpillQ) : (s.setQ k v).seq = s.seq := rfl
@[simp] theorem State.setQ_plan (s : State) (k : Nat) (v : SpillQ) : (s.setQ k v).plan = s.plan := rfl
@[simp] theorem State.setQ_claims (s : State) (k : Nat) (v : SpillQ) : (s.setQ k v).claims = s.claims := rfl
@[simp] theorem State.setQ_cam (s : State) (k : Nat) (v : SpillQ) : (s.setQ k v).cam = s.cam := rfl
@[simp] theorem State.setQ_otp (s : State) (k : Nat) (v : SpillQ) : (s.setQ k v).otp = s.otp := rfl
@[simp] theorem State.setQ_heat (s : State) (k : Nat) (v : SpillQ) : (s.setQ k v).heat = s.heat := rfl
@[simp] theorem State.setQ_cfgEpoch (s : State) (k : Nat) (v : SpillQ) : (s.setQ k v).cfgEpoch = s.cfgEpoch := rfl
@[simp] theorem State.setQ_frameMark (s : State) (k : Nat) (v : SpillQ) : (s.setQ k v).frameMark = s.frameMark := rfl
@[simp] theorem State.setQ_free (s : State) (k : Nat) (v : SpillQ) : (s.setQ k v).free = s.free := rfl
@[simp] theorem State.setQ_pending (s : State) (k : Nat) (v : SpillQ) : (s.setQ k v).pending = s.pending := rfl

@[simp] theorem State.modPart_clk (s : State) (p : Nat) (f : Partition → Partition) : (s.modPart p f).clk = s.clk := rfl
@[simp] theorem State.modPart_recs (s : State) (p : Nat) (f : Partition → Partition) : (s.modPart p f).recs = s.recs := rfl
@[simp] theorem State.modPart_queues (s : State) (p : Nat) (f : Partition → Partition) : (s.modPart p f).queues = s.queues := rfl
@[simp] theorem State.modPart_host (s : State) (p : Nat) (f : Partition → Partition) : (s.modPart p f).host = s.host := rfl
@[simp] theorem State.modPart_mem (s : State) (p : Nat) (f : Partition → Partition) : (s.modPart p f).mem = s.mem := rfl
@[simp] theorem State.modPart_saf (s : State) (p : Nat) (f : Partition → Partition) : (s.modPart p f).saf = s.saf := rfl
@[simp] theorem State.modPart_bs (s : State) (p : Nat) (f : Partition → Partition) : (s.modPart p f).bs = s.bs := rfl
@[simp] theorem State.modPart_tw (s : State) (p : Nat) (f : Partition → Partition) : (s.modPart p f).tw = s.tw := rfl
@[simp] theorem State.modPart_sorters (s : State) (p : Nat) (f : Partition → Partition) : (s.modPart p f).sorters = s.sorters := rfl
@[simp] theorem State.modPart_seq (s : State) (p : Nat) (f : Partition → Partition) : (s.modPart p f).seq = s.seq := rfl
@[simp] theorem State.modPart_plan (s : State) (p : Nat) (f : Partition → Partition) : (s.modPart p f).plan = s.plan := rfl
@[simp] theorem State.modPart_claims (s : State) (p : Nat) (f : Partition → Partition) : (s.modPart p f).claims = s.claims := rfl
@[simp] theorem State.modPart_cam (s : State) (p : Nat) (f : Partition → Partition) : (s.modPart p f).cam = s.cam := rfl
@[simp] theorem State.modPart_otp (s : State) (p : Nat) (f : Partition → Partition) : (s.modPart p f).otp = s.otp := rfl
@[simp] theorem State.modPart_heat (s : State) (p : Nat) (f : Partition → Partition) : (s.modPart p f).heat = s.heat := rfl
@[simp] theorem State.modPart_cfgEpoch (s : State) (p : Nat) (f : Partition → Partition) : (s.modPart p f).cfgEpoch = s.cfgEpoch := rfl
@[simp] theorem State.modPart_frameMark (s : State) (p : Nat) (f : Partition → Partition) : (s.modPart p f).frameMark = s.frameMark := rfl
@[simp] theorem State.modPart_free (s : State) (p : Nat) (f : Partition → Partition) : (s.modPart p f).free = s.free := rfl
@[simp] theorem State.modPart_pending (s : State) (p : Nat) (f : Partition → Partition) : (s.modPart p f).pending = s.pending := rfl

@[simp] theorem State.modJob_clk (s : State) (j : Nat) (f : Job → Job) : (s.modJob j f).clk = s.clk := rfl
@[simp] theorem State.modJob_recs (s : State) (j : Nat) (f : Job → Job) : (s.modJob j f).recs = s.recs := rfl
@[simp] theorem State.modJob_queues (s : State) (j : Nat) (f : Job → Job) : (s.modJob j f).queues = s.queues := rfl
@[simp] theorem State.modJob_host (s : State) (j : Nat) (f : Job → Job) : (s.modJob j f).host = s.host := rfl
@[simp] theorem State.modJob_mem (s : State) (j : Nat) (f : Job → Job) : (s.modJob j f).mem = s.mem := rfl
@[simp] theorem State.modJob_saf (s : State) (j : Nat) (f : Job → Job) : (s.modJob j f).saf = s.saf := rfl
@[simp] theorem State.modJob_bs (s : State) (j : Nat) (f : Job → Job) : (s.modJob j f).bs = s.bs := rfl
@[simp] theorem State.modJob_tw (s : State) (j : Nat) (f : Job → Job) : (s.modJob j f).tw = s.tw := rfl
@[simp] theorem State.modJob_sorters (s : State) (j : Nat) (f : Job → Job) : (s.modJob j f).sorters = s.sorters := rfl
@[simp] theorem State.modJob_seq (s : State) (j : Nat) (f : Job → Job) : (s.modJob j f).seq = s.seq := rfl
@[simp] theorem State.modJob_plan (s : State) (j : Nat) (f : Job → Job) : (s.modJob j f).plan = s.plan := rfl
@[simp] theorem State.modJob_claims (s : State) (j : Nat) (f : Job → Job) : (s.modJob j f).claims = s.claims := rfl
@[simp] theorem State.modJob_cam (s : State) (j : Nat) (f : Job → Job) : (s.modJob j f).cam = s.cam := rfl
@[simp] theorem State.modJob_otp (s : State) (j : Nat) (f : Job → Job) : (s.modJob j f).otp = s.otp := rfl
@[simp] theorem State.modJob_heat (s : State) (j : Nat) (f : Job → Job) : (s.modJob j f).heat = s.heat := rfl
@[simp] theorem State.modJob_cfgEpoch (s : State) (j : Nat) (f : Job → Job) : (s.modJob j f).cfgEpoch = s.cfgEpoch := rfl
@[simp] theorem State.modJob_frameMark (s : State) (j : Nat) (f : Job → Job) : (s.modJob j f).frameMark = s.frameMark := rfl
@[simp] theorem State.modJob_free (s : State) (j : Nat) (f : Job → Job) : (s.modJob j f).free = s.free := rfl
@[simp] theorem State.modJob_pending (s : State) (j : Nat) (f : Job → Job) : (s.modJob j f).pending = s.pending := rfl

@[simp] theorem State.modSpire_clk (s : State) (i : Nat) (f : Spire → Spire) : (s.modSpire i f).clk = s.clk := rfl
@[simp] theorem State.modSpire_recs (s : State) (i : Nat) (f : Spire → Spire) : (s.modSpire i f).recs = s.recs := rfl
@[simp] theorem State.modSpire_queues (s : State) (i : Nat) (f : Spire → Spire) : (s.modSpire i f).queues = s.queues := rfl
@[simp] theorem State.modSpire_host (s : State) (i : Nat) (f : Spire → Spire) : (s.modSpire i f).host = s.host := rfl
@[simp] theorem State.modSpire_mem (s : State) (i : Nat) (f : Spire → Spire) : (s.modSpire i f).mem = s.mem := rfl
@[simp] theorem State.modSpire_saf (s : State) (i : Nat) (f : Spire → Spire) : (s.modSpire i f).saf = s.saf := rfl
@[simp] theorem State.modSpire_bs (s : State) (i : Nat) (f : Spire → Spire) : (s.modSpire i f).bs = s.bs := rfl
@[simp] theorem State.modSpire_tw (s : State) (i : Nat) (f : Spire → Spire) : (s.modSpire i f).tw = s.tw := rfl
@[simp] theorem State.modSpire_sorters (s : State) (i : Nat) (f : Spire → Spire) : (s.modSpire i f).sorters = s.sorters := rfl
@[simp] theorem State.modSpire_seq (s : State) (i : Nat) (f : Spire → Spire) : (s.modSpire i f).seq = s.seq := rfl
@[simp] theorem State.modSpire_plan (s : State) (i : Nat) (f : Spire → Spire) : (s.modSpire i f).plan = s.plan := rfl
@[simp] theorem State.modSpire_claims (s : State) (i : Nat) (f : Spire → Spire) : (s.modSpire i f).claims = s.claims := rfl
@[simp] theorem State.modSpire_cam (s : State) (i : Nat) (f : Spire → Spire) : (s.modSpire i f).cam = s.cam := rfl
@[simp] theorem State.modSpire_otp (s : State) (i : Nat) (f : Spire → Spire) : (s.modSpire i f).otp = s.otp := rfl
@[simp] theorem State.modSpire_heat (s : State) (i : Nat) (f : Spire → Spire) : (s.modSpire i f).heat = s.heat := rfl
@[simp] theorem State.modSpire_cfgEpoch (s : State) (i : Nat) (f : Spire → Spire) : (s.modSpire i f).cfgEpoch = s.cfgEpoch := rfl
@[simp] theorem State.modSpire_frameMark (s : State) (i : Nat) (f : Spire → Spire) : (s.modSpire i f).frameMark = s.frameMark := rfl
@[simp] theorem State.modSpire_free (s : State) (i : Nat) (f : Spire → Spire) : (s.modSpire i f).free = s.free := rfl
@[simp] theorem State.modSpire_pending (s : State) (i : Nat) (f : Spire → Spire) : (s.modSpire i f).pending = s.pending := rfl

@[simp] theorem State.modLantern_clk (s : State) (l : Nat) (f : Lantern → Lantern) : (s.modLantern l f).clk = s.clk := rfl
@[simp] theorem State.modLantern_recs (s : State) (l : Nat) (f : Lantern → Lantern) : (s.modLantern l f).recs = s.recs := rfl
@[simp] theorem State.modLantern_queues (s : State) (l : Nat) (f : Lantern → Lantern) : (s.modLantern l f).queues = s.queues := rfl
@[simp] theorem State.modLantern_host (s : State) (l : Nat) (f : Lantern → Lantern) : (s.modLantern l f).host = s.host := rfl
@[simp] theorem State.modLantern_mem (s : State) (l : Nat) (f : Lantern → Lantern) : (s.modLantern l f).mem = s.mem := rfl
@[simp] theorem State.modLantern_sch (s : State) (l : Nat) (f : Lantern → Lantern) : (s.modLantern l f).sch = s.sch := rfl
@[simp] theorem State.modLantern_bs (s : State) (l : Nat) (f : Lantern → Lantern) : (s.modLantern l f).bs = s.bs := rfl
@[simp] theorem State.modLantern_tw (s : State) (l : Nat) (f : Lantern → Lantern) : (s.modLantern l f).tw = s.tw := rfl
@[simp] theorem State.modLantern_sorters (s : State) (l : Nat) (f : Lantern → Lantern) : (s.modLantern l f).sorters = s.sorters := rfl
@[simp] theorem State.modLantern_seq (s : State) (l : Nat) (f : Lantern → Lantern) : (s.modLantern l f).seq = s.seq := rfl
@[simp] theorem State.modLantern_plan (s : State) (l : Nat) (f : Lantern → Lantern) : (s.modLantern l f).plan = s.plan := rfl
@[simp] theorem State.modLantern_claims (s : State) (l : Nat) (f : Lantern → Lantern) : (s.modLantern l f).claims = s.claims := rfl
@[simp] theorem State.modLantern_cam (s : State) (l : Nat) (f : Lantern → Lantern) : (s.modLantern l f).cam = s.cam := rfl
@[simp] theorem State.modLantern_otp (s : State) (l : Nat) (f : Lantern → Lantern) : (s.modLantern l f).otp = s.otp := rfl
@[simp] theorem State.modLantern_heat (s : State) (l : Nat) (f : Lantern → Lantern) : (s.modLantern l f).heat = s.heat := rfl
@[simp] theorem State.modLantern_cfgEpoch (s : State) (l : Nat) (f : Lantern → Lantern) : (s.modLantern l f).cfgEpoch = s.cfgEpoch := rfl
@[simp] theorem State.modLantern_frameMark (s : State) (l : Nat) (f : Lantern → Lantern) : (s.modLantern l f).frameMark = s.frameMark := rfl
@[simp] theorem State.modLantern_free (s : State) (l : Nat) (f : Lantern → Lantern) : (s.modLantern l f).free = s.free := rfl
@[simp] theorem State.modLantern_pending (s : State) (l : Nat) (f : Lantern → Lantern) : (s.modLantern l f).pending = s.pending := rfl

@[simp] theorem State.modChan_clk (s : State) (c : Nat) (f : Chan → Chan) : (s.modChan c f).clk = s.clk := rfl
@[simp] theorem State.modChan_recs (s : State) (c : Nat) (f : Chan → Chan) : (s.modChan c f).recs = s.recs := rfl
@[simp] theorem State.modChan_queues (s : State) (c : Nat) (f : Chan → Chan) : (s.modChan c f).queues = s.queues := rfl
@[simp] theorem State.modChan_host (s : State) (c : Nat) (f : Chan → Chan) : (s.modChan c f).host = s.host := rfl
@[simp] theorem State.modChan_sch (s : State) (c : Nat) (f : Chan → Chan) : (s.modChan c f).sch = s.sch := rfl
@[simp] theorem State.modChan_saf (s : State) (c : Nat) (f : Chan → Chan) : (s.modChan c f).saf = s.saf := rfl
@[simp] theorem State.modChan_bs (s : State) (c : Nat) (f : Chan → Chan) : (s.modChan c f).bs = s.bs := rfl
@[simp] theorem State.modChan_tw (s : State) (c : Nat) (f : Chan → Chan) : (s.modChan c f).tw = s.tw := rfl
@[simp] theorem State.modChan_sorters (s : State) (c : Nat) (f : Chan → Chan) : (s.modChan c f).sorters = s.sorters := rfl
@[simp] theorem State.modChan_seq (s : State) (c : Nat) (f : Chan → Chan) : (s.modChan c f).seq = s.seq := rfl
@[simp] theorem State.modChan_plan (s : State) (c : Nat) (f : Chan → Chan) : (s.modChan c f).plan = s.plan := rfl
@[simp] theorem State.modChan_claims (s : State) (c : Nat) (f : Chan → Chan) : (s.modChan c f).claims = s.claims := rfl
@[simp] theorem State.modChan_cam (s : State) (c : Nat) (f : Chan → Chan) : (s.modChan c f).cam = s.cam := rfl
@[simp] theorem State.modChan_otp (s : State) (c : Nat) (f : Chan → Chan) : (s.modChan c f).otp = s.otp := rfl
@[simp] theorem State.modChan_heat (s : State) (c : Nat) (f : Chan → Chan) : (s.modChan c f).heat = s.heat := rfl
@[simp] theorem State.modChan_cfgEpoch (s : State) (c : Nat) (f : Chan → Chan) : (s.modChan c f).cfgEpoch = s.cfgEpoch := rfl
@[simp] theorem State.modChan_frameMark (s : State) (c : Nat) (f : Chan → Chan) : (s.modChan c f).frameMark = s.frameMark := rfl
@[simp] theorem State.modChan_free (s : State) (c : Nat) (f : Chan → Chan) : (s.modChan c f).free = s.free := rfl
@[simp] theorem State.modChan_pending (s : State) (c : Nat) (f : Chan → Chan) : (s.modChan c f).pending = s.pending := rfl

@[simp] theorem State.putRec_clk (s : State) (src : Nat) (r : Rec) : (s.putRec src r).clk = s.clk := rfl
@[simp] theorem State.putRec_queues (s : State) (src : Nat) (r : Rec) : (s.putRec src r).queues = s.queues := rfl
@[simp] theorem State.putRec_host (s : State) (src : Nat) (r : Rec) : (s.putRec src r).host = s.host := rfl
@[simp] theorem State.putRec_mem (s : State) (src : Nat) (r : Rec) : (s.putRec src r).mem = s.mem := rfl
@[simp] theorem State.putRec_sch (s : State) (src : Nat) (r : Rec) : (s.putRec src r).sch = s.sch := rfl
@[simp] theorem State.putRec_saf (s : State) (src : Nat) (r : Rec) : (s.putRec src r).saf = s.saf := rfl
@[simp] theorem State.putRec_bs (s : State) (src : Nat) (r : Rec) : (s.putRec src r).bs = s.bs := rfl
@[simp] theorem State.putRec_tw (s : State) (src : Nat) (r : Rec) : (s.putRec src r).tw = s.tw := rfl
@[simp] theorem State.putRec_sorters (s : State) (src : Nat) (r : Rec) : (s.putRec src r).sorters = s.sorters := rfl
@[simp] theorem State.putRec_seq (s : State) (src : Nat) (r : Rec) : (s.putRec src r).seq = s.seq := rfl
@[simp] theorem State.putRec_plan (s : State) (src : Nat) (r : Rec) : (s.putRec src r).plan = s.plan := rfl
@[simp] theorem State.putRec_claims (s : State) (src : Nat) (r : Rec) : (s.putRec src r).claims = s.claims := rfl
@[simp] theorem State.putRec_cam (s : State) (src : Nat) (r : Rec) : (s.putRec src r).cam = s.cam := rfl
@[simp] theorem State.putRec_otp (s : State) (src : Nat) (r : Rec) : (s.putRec src r).otp = s.otp := rfl
@[simp] theorem State.putRec_heat (s : State) (src : Nat) (r : Rec) : (s.putRec src r).heat = s.heat := rfl
@[simp] theorem State.putRec_cfgEpoch (s : State) (src : Nat) (r : Rec) : (s.putRec src r).cfgEpoch = s.cfgEpoch := rfl
@[simp] theorem State.putRec_frameMark (s : State) (src : Nat) (r : Rec) : (s.putRec src r).frameMark = s.frameMark := rfl
@[simp] theorem State.putRec_free (s : State) (src : Nat) (r : Rec) : (s.putRec src r).free = s.free := rfl
@[simp] theorem State.putRec_pending (s : State) (src : Nat) (r : Rec) : (s.putRec src r).pending = s.pending := rfl

@[simp] theorem State.msix_clk (s : State) (e v : Nat) : (s.msix e v).clk = s.clk := rfl
@[simp] theorem State.msix_recs (s : State) (e v : Nat) : (s.msix e v).recs = s.recs := rfl
@[simp] theorem State.msix_queues (s : State) (e v : Nat) : (s.msix e v).queues = s.queues := rfl
@[simp] theorem State.msix_mem (s : State) (e v : Nat) : (s.msix e v).mem = s.mem := rfl
@[simp] theorem State.msix_sch (s : State) (e v : Nat) : (s.msix e v).sch = s.sch := rfl
@[simp] theorem State.msix_saf (s : State) (e v : Nat) : (s.msix e v).saf = s.saf := rfl
@[simp] theorem State.msix_bs (s : State) (e v : Nat) : (s.msix e v).bs = s.bs := rfl
@[simp] theorem State.msix_tw (s : State) (e v : Nat) : (s.msix e v).tw = s.tw := rfl
@[simp] theorem State.msix_sorters (s : State) (e v : Nat) : (s.msix e v).sorters = s.sorters := rfl
@[simp] theorem State.msix_seq (s : State) (e v : Nat) : (s.msix e v).seq = s.seq := rfl
@[simp] theorem State.msix_plan (s : State) (e v : Nat) : (s.msix e v).plan = s.plan := rfl
@[simp] theorem State.msix_claims (s : State) (e v : Nat) : (s.msix e v).claims = s.claims := rfl
@[simp] theorem State.msix_cam (s : State) (e v : Nat) : (s.msix e v).cam = s.cam := rfl
@[simp] theorem State.msix_otp (s : State) (e v : Nat) : (s.msix e v).otp = s.otp := rfl
@[simp] theorem State.msix_heat (s : State) (e v : Nat) : (s.msix e v).heat = s.heat := rfl
@[simp] theorem State.msix_cfgEpoch (s : State) (e v : Nat) : (s.msix e v).cfgEpoch = s.cfgEpoch := rfl
@[simp] theorem State.msix_frameMark (s : State) (e v : Nat) : (s.msix e v).frameMark = s.frameMark := rfl
@[simp] theorem State.msix_free (s : State) (e v : Nat) : (s.msix e v).free = s.free := rfl
@[simp] theorem State.msix_pending (s : State) (e v : Nat) : (s.msix e v).pending = s.pending := rfl

@[simp] theorem State.elapse_recs (s : State) (dt : Nat) : (s.elapse dt).recs = s.recs := rfl
@[simp] theorem State.elapse_queues (s : State) (dt : Nat) : (s.elapse dt).queues = s.queues := rfl
@[simp] theorem State.elapse_host (s : State) (dt : Nat) : (s.elapse dt).host = s.host := rfl
@[simp] theorem State.elapse_mem (s : State) (dt : Nat) : (s.elapse dt).mem = s.mem := rfl
@[simp] theorem State.elapse_sch (s : State) (dt : Nat) : (s.elapse dt).sch = s.sch := rfl
@[simp] theorem State.elapse_saf (s : State) (dt : Nat) : (s.elapse dt).saf = s.saf := rfl
@[simp] theorem State.elapse_bs (s : State) (dt : Nat) : (s.elapse dt).bs = s.bs := rfl
@[simp] theorem State.elapse_tw (s : State) (dt : Nat) : (s.elapse dt).tw = s.tw := rfl
@[simp] theorem State.elapse_sorters (s : State) (dt : Nat) : (s.elapse dt).sorters = s.sorters := rfl
@[simp] theorem State.elapse_seq (s : State) (dt : Nat) : (s.elapse dt).seq = s.seq := rfl
@[simp] theorem State.elapse_plan (s : State) (dt : Nat) : (s.elapse dt).plan = s.plan := rfl
@[simp] theorem State.elapse_claims (s : State) (dt : Nat) : (s.elapse dt).claims = s.claims := rfl
@[simp] theorem State.elapse_cam (s : State) (dt : Nat) : (s.elapse dt).cam = s.cam := rfl
@[simp] theorem State.elapse_otp (s : State) (dt : Nat) : (s.elapse dt).otp = s.otp := rfl
@[simp] theorem State.elapse_heat (s : State) (dt : Nat) : (s.elapse dt).heat = s.heat := rfl
@[simp] theorem State.elapse_cfgEpoch (s : State) (dt : Nat) : (s.elapse dt).cfgEpoch = s.cfgEpoch := rfl
@[simp] theorem State.elapse_frameMark (s : State) (dt : Nat) : (s.elapse dt).frameMark = s.frameMark := rfl
@[simp] theorem State.elapse_free (s : State) (dt : Nat) : (s.elapse dt).free = s.free := rfl
@[simp] theorem State.elapse_pending (s : State) (dt : Nat) : (s.elapse dt).pending = s.pending := rfl

@[simp] theorem State.elapseTo_recs (s : State) (t : Nat) : (s.elapseTo t).recs = s.recs := rfl
@[simp] theorem State.elapseTo_queues (s : State) (t : Nat) : (s.elapseTo t).queues = s.queues := rfl
@[simp] theorem State.elapseTo_host (s : State) (t : Nat) : (s.elapseTo t).host = s.host := rfl
@[simp] theorem State.elapseTo_mem (s : State) (t : Nat) : (s.elapseTo t).mem = s.mem := rfl
@[simp] theorem State.elapseTo_sch (s : State) (t : Nat) : (s.elapseTo t).sch = s.sch := rfl
@[simp] theorem State.elapseTo_saf (s : State) (t : Nat) : (s.elapseTo t).saf = s.saf := rfl
@[simp] theorem State.elapseTo_bs (s : State) (t : Nat) : (s.elapseTo t).bs = s.bs := rfl
@[simp] theorem State.elapseTo_tw (s : State) (t : Nat) : (s.elapseTo t).tw = s.tw := rfl
@[simp] theorem State.elapseTo_sorters (s : State) (t : Nat) : (s.elapseTo t).sorters = s.sorters := rfl
@[simp] theorem State.elapseTo_seq (s : State) (t : Nat) : (s.elapseTo t).seq = s.seq := rfl
@[simp] theorem State.elapseTo_plan (s : State) (t : Nat) : (s.elapseTo t).plan = s.plan := rfl
@[simp] theorem State.elapseTo_claims (s : State) (t : Nat) : (s.elapseTo t).claims = s.claims := rfl
@[simp] theorem State.elapseTo_cam (s : State) (t : Nat) : (s.elapseTo t).cam = s.cam := rfl
@[simp] theorem State.elapseTo_otp (s : State) (t : Nat) : (s.elapseTo t).otp = s.otp := rfl
@[simp] theorem State.elapseTo_heat (s : State) (t : Nat) : (s.elapseTo t).heat = s.heat := rfl
@[simp] theorem State.elapseTo_cfgEpoch (s : State) (t : Nat) : (s.elapseTo t).cfgEpoch = s.cfgEpoch := rfl
@[simp] theorem State.elapseTo_frameMark (s : State) (t : Nat) : (s.elapseTo t).frameMark = s.frameMark := rfl
@[simp] theorem State.elapseTo_free (s : State) (t : Nat) : (s.elapseTo t).free = s.free := rfl
@[simp] theorem State.elapseTo_pending (s : State) (t : Nat) : (s.elapseTo t).pending = s.pending := rfl

@[simp] theorem State.bump_clk (s : State) : (s.bump ).clk = s.clk := rfl
@[simp] theorem State.bump_recs (s : State) : (s.bump ).recs = s.recs := rfl
@[simp] theorem State.bump_queues (s : State) : (s.bump ).queues = s.queues := rfl
@[simp] theorem State.bump_host (s : State) : (s.bump ).host = s.host := rfl
@[simp] theorem State.bump_mem (s : State) : (s.bump ).mem = s.mem := rfl
@[simp] theorem State.bump_sch (s : State) : (s.bump ).sch = s.sch := rfl
@[simp] theorem State.bump_saf (s : State) : (s.bump ).saf = s.saf := rfl
@[simp] theorem State.bump_bs (s : State) : (s.bump ).bs = s.bs := rfl
@[simp] theorem State.bump_tw (s : State) : (s.bump ).tw = s.tw := rfl
@[simp] theorem State.bump_sorters (s : State) : (s.bump ).sorters = s.sorters := rfl
@[simp] theorem State.bump_seq (s : State) : (s.bump ).seq = s.seq := rfl
@[simp] theorem State.bump_plan (s : State) : (s.bump ).plan = s.plan := rfl
@[simp] theorem State.bump_claims (s : State) : (s.bump ).claims = s.claims := rfl
@[simp] theorem State.bump_cam (s : State) : (s.bump ).cam = s.cam := rfl
@[simp] theorem State.bump_otp (s : State) : (s.bump ).otp = s.otp := rfl
@[simp] theorem State.bump_heat (s : State) : (s.bump ).heat = s.heat := rfl
@[simp] theorem State.bump_frameMark (s : State) : (s.bump ).frameMark = s.frameMark := rfl
@[simp] theorem State.bump_free (s : State) : (s.bump ).free = s.free := rfl
@[simp] theorem State.bump_pending (s : State) : (s.bump ).pending = s.pending := rfl

@[simp] theorem State.send_clk (s : State) (x : TwinMsg) : (s.send x).clk = s.clk := rfl
@[simp] theorem State.send_recs (s : State) (x : TwinMsg) : (s.send x).recs = s.recs := rfl
@[simp] theorem State.send_queues (s : State) (x : TwinMsg) : (s.send x).queues = s.queues := rfl
@[simp] theorem State.send_host (s : State) (x : TwinMsg) : (s.send x).host = s.host := rfl
@[simp] theorem State.send_mem (s : State) (x : TwinMsg) : (s.send x).mem = s.mem := rfl
@[simp] theorem State.send_sch (s : State) (x : TwinMsg) : (s.send x).sch = s.sch := rfl
@[simp] theorem State.send_saf (s : State) (x : TwinMsg) : (s.send x).saf = s.saf := rfl
@[simp] theorem State.send_bs (s : State) (x : TwinMsg) : (s.send x).bs = s.bs := rfl
@[simp] theorem State.send_sorters (s : State) (x : TwinMsg) : (s.send x).sorters = s.sorters := rfl
@[simp] theorem State.send_seq (s : State) (x : TwinMsg) : (s.send x).seq = s.seq := rfl
@[simp] theorem State.send_plan (s : State) (x : TwinMsg) : (s.send x).plan = s.plan := rfl
@[simp] theorem State.send_claims (s : State) (x : TwinMsg) : (s.send x).claims = s.claims := rfl
@[simp] theorem State.send_cam (s : State) (x : TwinMsg) : (s.send x).cam = s.cam := rfl
@[simp] theorem State.send_otp (s : State) (x : TwinMsg) : (s.send x).otp = s.otp := rfl
@[simp] theorem State.send_heat (s : State) (x : TwinMsg) : (s.send x).heat = s.heat := rfl
@[simp] theorem State.send_cfgEpoch (s : State) (x : TwinMsg) : (s.send x).cfgEpoch = s.cfgEpoch := rfl
@[simp] theorem State.send_frameMark (s : State) (x : TwinMsg) : (s.send x).frameMark = s.frameMark := rfl
@[simp] theorem State.send_free (s : State) (x : TwinMsg) : (s.send x).free = s.free := rfl
@[simp] theorem State.send_pending (s : State) (x : TwinMsg) : (s.send x).pending = s.pending := rfl

@[simp] theorem State.modTwp_clk (s : State) (p : Nat) (f : TwinPart → TwinPart) : (s.modTwp p f).clk = s.clk := rfl
@[simp] theorem State.modTwp_recs (s : State) (p : Nat) (f : TwinPart → TwinPart) : (s.modTwp p f).recs = s.recs := rfl
@[simp] theorem State.modTwp_queues (s : State) (p : Nat) (f : TwinPart → TwinPart) : (s.modTwp p f).queues = s.queues := rfl
@[simp] theorem State.modTwp_host (s : State) (p : Nat) (f : TwinPart → TwinPart) : (s.modTwp p f).host = s.host := rfl
@[simp] theorem State.modTwp_mem (s : State) (p : Nat) (f : TwinPart → TwinPart) : (s.modTwp p f).mem = s.mem := rfl
@[simp] theorem State.modTwp_sch (s : State) (p : Nat) (f : TwinPart → TwinPart) : (s.modTwp p f).sch = s.sch := rfl
@[simp] theorem State.modTwp_saf (s : State) (p : Nat) (f : TwinPart → TwinPart) : (s.modTwp p f).saf = s.saf := rfl
@[simp] theorem State.modTwp_bs (s : State) (p : Nat) (f : TwinPart → TwinPart) : (s.modTwp p f).bs = s.bs := rfl
@[simp] theorem State.modTwp_sorters (s : State) (p : Nat) (f : TwinPart → TwinPart) : (s.modTwp p f).sorters = s.sorters := rfl
@[simp] theorem State.modTwp_seq (s : State) (p : Nat) (f : TwinPart → TwinPart) : (s.modTwp p f).seq = s.seq := rfl
@[simp] theorem State.modTwp_plan (s : State) (p : Nat) (f : TwinPart → TwinPart) : (s.modTwp p f).plan = s.plan := rfl
@[simp] theorem State.modTwp_claims (s : State) (p : Nat) (f : TwinPart → TwinPart) : (s.modTwp p f).claims = s.claims := rfl
@[simp] theorem State.modTwp_cam (s : State) (p : Nat) (f : TwinPart → TwinPart) : (s.modTwp p f).cam = s.cam := rfl
@[simp] theorem State.modTwp_otp (s : State) (p : Nat) (f : TwinPart → TwinPart) : (s.modTwp p f).otp = s.otp := rfl
@[simp] theorem State.modTwp_heat (s : State) (p : Nat) (f : TwinPart → TwinPart) : (s.modTwp p f).heat = s.heat := rfl
@[simp] theorem State.modTwp_cfgEpoch (s : State) (p : Nat) (f : TwinPart → TwinPart) : (s.modTwp p f).cfgEpoch = s.cfgEpoch := rfl
@[simp] theorem State.modTwp_frameMark (s : State) (p : Nat) (f : TwinPart → TwinPart) : (s.modTwp p f).frameMark = s.frameMark := rfl
@[simp] theorem State.modTwp_free (s : State) (p : Nat) (f : TwinPart → TwinPart) : (s.modTwp p f).free = s.free := rfl
@[simp] theorem State.modTwp_pending (s : State) (p : Nat) (f : TwinPart → TwinPart) : (s.modTwp p f).pending = s.pending := rfl

@[simp] theorem State.answer_clk (s : State) (data : List Byte) (poison : Bool) : (s.answer data poison).clk = s.clk := rfl
@[simp] theorem State.answer_recs (s : State) (data : List Byte) (poison : Bool) : (s.answer data poison).recs = s.recs := rfl
@[simp] theorem State.answer_queues (s : State) (data : List Byte) (poison : Bool) : (s.answer data poison).queues = s.queues := rfl
@[simp] theorem State.answer_mem (s : State) (data : List Byte) (poison : Bool) : (s.answer data poison).mem = s.mem := rfl
@[simp] theorem State.answer_sch (s : State) (data : List Byte) (poison : Bool) : (s.answer data poison).sch = s.sch := rfl
@[simp] theorem State.answer_saf (s : State) (data : List Byte) (poison : Bool) : (s.answer data poison).saf = s.saf := rfl
@[simp] theorem State.answer_bs (s : State) (data : List Byte) (poison : Bool) : (s.answer data poison).bs = s.bs := rfl
@[simp] theorem State.answer_tw (s : State) (data : List Byte) (poison : Bool) : (s.answer data poison).tw = s.tw := rfl
@[simp] theorem State.answer_sorters (s : State) (data : List Byte) (poison : Bool) : (s.answer data poison).sorters = s.sorters := rfl
@[simp] theorem State.answer_seq (s : State) (data : List Byte) (poison : Bool) : (s.answer data poison).seq = s.seq := rfl
@[simp] theorem State.answer_plan (s : State) (data : List Byte) (poison : Bool) : (s.answer data poison).plan = s.plan := rfl
@[simp] theorem State.answer_claims (s : State) (data : List Byte) (poison : Bool) : (s.answer data poison).claims = s.claims := rfl
@[simp] theorem State.answer_cam (s : State) (data : List Byte) (poison : Bool) : (s.answer data poison).cam = s.cam := rfl
@[simp] theorem State.answer_otp (s : State) (data : List Byte) (poison : Bool) : (s.answer data poison).otp = s.otp := rfl
@[simp] theorem State.answer_heat (s : State) (data : List Byte) (poison : Bool) : (s.answer data poison).heat = s.heat := rfl
@[simp] theorem State.answer_cfgEpoch (s : State) (data : List Byte) (poison : Bool) : (s.answer data poison).cfgEpoch = s.cfgEpoch := rfl
@[simp] theorem State.answer_frameMark (s : State) (data : List Byte) (poison : Bool) : (s.answer data poison).frameMark = s.frameMark := rfl
@[simp] theorem State.answer_free (s : State) (data : List Byte) (poison : Bool) : (s.answer data poison).free = s.free := rfl
@[simp] theorem State.answer_pending (s : State) (data : List Byte) (poison : Bool) : (s.answer data poison).pending = s.pending := rfl

/-! ### The part written -/

/-- A part changed reads back changed. -/
theorem State.modMbx_mbx (s : State) (i : Nat) (f : Mailbox → Mailbox) (w : tabWf ({} : Mailbox) s.host.mbx) :
    (s.modMbx i f).mbx i = f (s.mbx i) := tget_tput_same i _ w

/-- Every other part is as it was. -/
theorem State.modMbx_mbx_other (s : State) (i j : Nat) (f : Mailbox → Mailbox) (h : j ≠ i) (w : tabWf ({} : Mailbox) s.host.mbx) :
    (s.modMbx i f).mbx j = s.mbx j := tget_tput_other _ h w

/-- A part changed reads back changed. -/
theorem State.modEp_ep (s : State) (i : Nat) (f : Endpoint → Endpoint) (w : tabWf ({} : Endpoint) s.host.eps) :
    (s.modEp i f).ep i = f (s.ep i) := tget_tput_same i _ w

/-- Every other part is as it was. -/
theorem State.modEp_ep_other (s : State) (i j : Nat) (f : Endpoint → Endpoint) (h : j ≠ i) (w : tabWf ({} : Endpoint) s.host.eps) :
    (s.modEp i f).ep j = s.ep j := tget_tput_other _ h w

/-- A part changed reads back changed. -/
theorem State.modSm_sm (s : State) (i : Nat) (f : I3cTarget → I3cTarget) (w : tabWf ({} : I3cTarget) s.host.sm) :
    (s.modSm i f).sm i = f (s.sm i) := tget_tput_same i _ w

/-- Every other part is as it was. -/
theorem State.modSm_sm_other (s : State) (i j : Nat) (f : I3cTarget → I3cTarget) (h : j ≠ i) (w : tabWf ({} : I3cTarget) s.host.sm) :
    (s.modSm i f).sm j = s.sm j := tget_tput_other _ h w

/-- A part changed reads back changed. -/
theorem State.modPart_part (s : State) (i : Nat) (f : Partition → Partition) (w : tabWf ({} : Partition) s.sch.parts) :
    (s.modPart i f).part i = f (s.part i) := tget_tput_same i _ w

/-- Every other part is as it was. -/
theorem State.modPart_part_other (s : State) (i j : Nat) (f : Partition → Partition) (h : j ≠ i) (w : tabWf ({} : Partition) s.sch.parts) :
    (s.modPart i f).part j = s.part j := tget_tput_other _ h w

/-- A part changed reads back changed. -/
theorem State.modJob_job (s : State) (i : Nat) (f : Job → Job) (w : tabWf ({} : Job) s.sch.jobs) :
    (s.modJob i f).job i = f (s.job i) := tget_tput_same i _ w

/-- Every other part is as it was. -/
theorem State.modJob_job_other (s : State) (i j : Nat) (f : Job → Job) (h : j ≠ i) (w : tabWf ({} : Job) s.sch.jobs) :
    (s.modJob i f).job j = s.job j := tget_tput_other _ h w

/-- A part changed reads back changed. -/
theorem State.modSpire_spire (s : State) (i : Nat) (f : Spire → Spire) (w : tabWf ({} : Spire) s.sch.spires) :
    (s.modSpire i f).spire i = f (s.spire i) := tget_tput_same i _ w

/-- Every other part is as it was. -/
theorem State.modSpire_spire_other (s : State) (i j : Nat) (f : Spire → Spire) (h : j ≠ i) (w : tabWf ({} : Spire) s.sch.spires) :
    (s.modSpire i f).spire j = s.spire j := tget_tput_other _ h w

/-- A part changed reads back changed. -/
theorem State.modLantern_lantern (s : State) (i : Nat) (f : Lantern → Lantern) (w : tabWf ({} : Lantern) s.saf.lanterns) :
    (s.modLantern i f).lantern i = f (s.lantern i) := tget_tput_same i _ w

/-- Every other part is as it was. -/
theorem State.modLantern_lantern_other (s : State) (i j : Nat) (f : Lantern → Lantern) (h : j ≠ i) (w : tabWf ({} : Lantern) s.saf.lanterns) :
    (s.modLantern i f).lantern j = s.lantern j := tget_tput_other _ h w

/-- A part changed reads back changed. -/
theorem State.modChan_chan (s : State) (i : Nat) (f : Chan → Chan) (w : tabWf ({} : Chan) s.mem.chans) :
    (s.modChan i f).chan i = f (s.chan i) := tget_tput_same i _ w

/-- Every other part is as it was. -/
theorem State.modChan_chan_other (s : State) (i j : Nat) (f : Chan → Chan) (h : j ≠ i) (w : tabWf ({} : Chan) s.mem.chans) :
    (s.modChan i f).chan j = s.chan j := tget_tput_other _ h w

/-- A queue written reads back. -/
theorem State.setQ_q (s : State) (k : Nat) (v : SpillQ) (w : tabWf ({} : SpillQ) s.queues) : (s.setQ k v).q k = v :=
  tget_tput_same k v w

/-- Every other queue is as it was. -/
theorem State.setQ_q_other (s : State) (k j : Nat) (v : SpillQ) (h : j ≠ k) (w : tabWf ({} : SpillQ) s.queues) :
    (s.setQ k v).q j = s.q j := tget_tput_other v h w

end Sys2Proof.Machine
end

