-- ==== Sys2Proof/Laws/Ops.lean ====
section
/-! SUPPORT. What each shared operation can do, said once. -/

namespace Sys2Proof.Machine

/-- What an event group may change: the queues and the host side (12 R425, R427, R429). -/
theorem State.pushedIrq_frame (s : State) : s.pushedIrq = { s with host := s.pushedIrq.host } := by
  unfold State.pushedIrq State.fireIrq State.msix
  dsimp only
  split
  · split <;> rfl
  · rfl

/-- An event group changes the Event Queue and the interrupt alone. -/
theorem State.pushGroup_frame (s : State) (ws : List W64) :
    s.pushGroup ws = { s with queues := (s.pushGroup ws).queues, host := (s.pushGroup ws).host } := by
  unfold State.pushGroup
  dsimp only
  split
  · rw [State.pushedIrq_frame]; rfl
  · split
    · rw [State.pushedIrq_frame]; rfl
    · rfl

/-- Posting an event changes the Event Queue and the interrupt alone. -/
theorem State.post_frame (s : State) (cls src code payload : Nat) (ext : List Nat) (urgent : Bool) :
    s.post cls src code payload ext urgent =
      { s with queues := (s.post cls src code payload ext urgent).queues, host := (s.post cls src code payload ext urgent).host } := by
  unfold State.post
  dsimp only
  split
  · rw [State.pushGroup_frame]; rfl
  · exact State.pushGroup_frame _ _

/-- A fault record reaches the safety mailboxes alone. -/
theorem State.faultRec_frame (s : State) (f : FaultRec) : s.faultRec f = { s with host := (s.faultRec f).host } := rfl

/-- An event of a unit changes the records, the queues and the host side alone (09 R346, R349). -/
theorem State.record_frame (s : State) (src bit level : Nat) (n : Note) :
    s.record src bit level n =
      { s with
        recs := (s.record src bit level n).recs
        queues := (s.record src bit level n).queues
        host := (s.record src bit level n).host } := by
  unfold State.record
  dsimp only
  split
  · rw [State.post_frame]; rfl
  · rfl

/-! An event leaves every other part of the State alone. -/

@[simp] theorem State.post_clk (s : State) (cls src code payload : Nat) (ext : List Nat) (urgent : Bool) : (s.post cls src code payload ext urgent).clk = s.clk := by
  rw [State.post_frame]
@[simp] theorem State.post_mem (s : State) (cls src code payload : Nat) (ext : List Nat) (urgent : Bool) : (s.post cls src code payload ext urgent).mem = s.mem := by
  rw [State.post_frame]
@[simp] theorem State.post_sch (s : State) (cls src code payload : Nat) (ext : List Nat) (urgent : Bool) : (s.post cls src code payload ext urgent).sch = s.sch := by
  rw [State.post_frame]
@[simp] theorem State.post_saf (s : State) (cls src code payload : Nat) (ext : List Nat) (urgent : Bool) : (s.post cls src code payload ext urgent).saf = s.saf := by
  rw [State.post_frame]
@[simp] theorem State.post_bs (s : State) (cls src code payload : Nat) (ext : List Nat) (urgent : Bool) : (s.post cls src code payload ext urgent).bs = s.bs := by
  rw [State.post_frame]
@[simp] theorem State.post_tw (s : State) (cls src code payload : Nat) (ext : List Nat) (urgent : Bool) : (s.post cls src code payload ext urgent).tw = s.tw := by
  rw [State.post_frame]
@[simp] theorem State.post_sorters (s : State) (cls src code payload : Nat) (ext : List Nat) (urgent : Bool) : (s.post cls src code payload ext urgent).sorters = s.sorters := by
  rw [State.post_frame]
@[simp] theorem State.post_seq (s : State) (cls src code payload : Nat) (ext : List Nat) (urgent : Bool) : (s.post cls src code payload ext urgent).seq = s.seq := by
  rw [State.post_frame]
@[simp] theorem State.post_plan (s : State) (cls src code payload : Nat) (ext : List Nat) (urgent : Bool) : (s.post cls src code payload ext urgent).plan = s.plan := by
  rw [State.post_frame]
@[simp] theorem State.post_claims (s : State) (cls src code payload : Nat) (ext : List Nat) (urgent : Bool) : (s.post cls src code payload ext urgent).claims = s.claims := by
  rw [State.post_frame]
@[simp] theorem State.post_cam (s : State) (cls src code payload : Nat) (ext : List Nat) (urgent : Bool) : (s.post cls src code payload ext urgent).cam = s.cam := by
  rw [State.post_frame]
@[simp] theorem State.post_otp (s : State) (cls src code payload : Nat) (ext : List Nat) (urgent : Bool) : (s.post cls src code payload ext urgent).otp = s.otp := by
  rw [State.post_frame]
@[simp] theorem State.post_heat (s : State) (cls src code payload : Nat) (ext : List Nat) (urgent : Bool) : (s.post cls src code payload ext urgent).heat = s.heat := by
  rw [State.post_frame]
@[simp] theorem State.post_cfgEpoch (s : State) (cls src code payload : Nat) (ext : List Nat) (urgent : Bool) : (s.post cls src code payload ext urgent).cfgEpoch = s.cfgEpoch := by
  rw [State.post_frame]
@[simp] theorem State.post_frameMark (s : State) (cls src code payload : Nat) (ext : List Nat) (urgent : Bool) : (s.post cls src code payload ext urgent).frameMark = s.frameMark := by
  rw [State.post_frame]
@[simp] theorem State.post_free (s : State) (cls src code payload : Nat) (ext : List Nat) (urgent : Bool) : (s.post cls src code payload ext urgent).free = s.free := by
  rw [State.post_frame]
@[simp] theorem State.post_pending (s : State) (cls src code payload : Nat) (ext : List Nat) (urgent : Bool) : (s.post cls src code payload ext urgent).pending = s.pending := by
  rw [State.post_frame]
@[simp] theorem State.post_recs (s : State) (cls src code payload : Nat) (ext : List Nat) (urgent : Bool) : (s.post cls src code payload ext urgent).recs = s.recs := by
  rw [State.post_frame]
@[simp] theorem State.record_clk (s : State) (src bit level : Nat) (n : Note) : (s.record src bit level n).clk = s.clk := by
  rw [State.record_frame]
@[simp] theorem State.record_mem (s : State) (src bit level : Nat) (n : Note) : (s.record src bit level n).mem = s.mem := by
  rw [State.record_frame]
@[simp] theorem State.record_sch (s : State) (src bit level : Nat) (n : Note) : (s.record src bit level n).sch = s.sch := by
  rw [State.record_frame]
@[simp] theorem State.record_saf (s : State) (src bit level : Nat) (n : Note) : (s.record src bit level n).saf = s.saf := by
  rw [State.record_frame]
@[simp] theorem State.record_bs (s : State) (src bit level : Nat) (n : Note) : (s.record src bit level n).bs = s.bs := by
  rw [State.record_frame]
@[simp] theorem State.record_tw (s : State) (src bit level : Nat) (n : Note) : (s.record src bit level n).tw = s.tw := by
  rw [State.record_frame]
@[simp] theorem State.record_sorters (s : State) (src bit level : Nat) (n : Note) : (s.record src bit level n).sorters = s.sorters := by
  rw [State.record_frame]
@[simp] theorem State.record_seq (s : State) (src bit level : Nat) (n : Note) : (s.record src bit level n).seq = s.seq := by
  rw [State.record_frame]
@[simp] theorem State.record_plan (s : State) (src bit level : Nat) (n : Note) : (s.record src bit level n).plan = s.plan := by
  rw [State.record_frame]
@[simp] theorem State.record_claims (s : State) (src bit level : Nat) (n : Note) : (s.record src bit level n).claims = s.claims := by
  rw [State.record_frame]
@[simp] theorem State.record_cam (s : State) (src bit level : Nat) (n : Note) : (s.record src bit level n).cam = s.cam := by
  rw [State.record_frame]
@[simp] theorem State.record_otp (s : State) (src bit level : Nat) (n : Note) : (s.record src bit level n).otp = s.otp := by
  rw [State.record_frame]
@[simp] theorem State.record_heat (s : State) (src bit level : Nat) (n : Note) : (s.record src bit level n).heat = s.heat := by
  rw [State.record_frame]
@[simp] theorem State.record_cfgEpoch (s : State) (src bit level : Nat) (n : Note) : (s.record src bit level n).cfgEpoch = s.cfgEpoch := by
  rw [State.record_frame]
@[simp] theorem State.record_frameMark (s : State) (src bit level : Nat) (n : Note) : (s.record src bit level n).frameMark = s.frameMark := by
  rw [State.record_frame]
@[simp] theorem State.record_free (s : State) (src bit level : Nat) (n : Note) : (s.record src bit level n).free = s.free := by
  rw [State.record_frame]
@[simp] theorem State.record_pending (s : State) (src bit level : Nat) (n : Note) : (s.record src bit level n).pending = s.pending := by
  rw [State.record_frame]

/-- A completion changes the host side and, where the command changed configuration, the epoch (12 R420, 10 R375). -/
theorem State.complete_frame (s : State) (m status detail : Nat) (out : List Byte) :
    s.complete m status detail out =
      { s with host := (s.complete m status detail out).host, cfgEpoch := (s.complete m status detail out).cfgEpoch } := by
  unfold State.complete
  dsimp only
  split <;> rfl

/-- Ending a mailbox's wait changes no more than a completion. -/
theorem State.finish_frame (s : State) (m : Nat) (w : Wait) (status detail : Nat) (out : List Byte) :
    s.finish m w status detail out =
      { s with host := (s.finish m w status detail out).host, cfgEpoch := (s.finish m w status detail out).cfgEpoch } := by
  unfold State.finish
  split
  · exact State.complete_frame _ _ _ _ _
  · rfl

/-- Rejecting one command for its header changes records, queues, the host side and the epoch at most. -/
theorem State.rejectHeader_frame (s : State) (m st d : Nat) :
    s.rejectHeader m st d =
      { s with
        recs := (s.rejectHeader m st d).recs
        queues := (s.rejectHeader m st d).queues
        host := (s.rejectHeader m st d).host
        cfgEpoch := (s.rejectHeader m st d).cfgEpoch } := by
  unfold State.rejectHeader
  dsimp only
  split
  · rw [State.complete_frame, State.stale, State.record_frame]
  · rw [State.complete_frame]

/-- Rejecting the commands next in turn changes no more. -/
theorem State.rejectHeaders_frame (n : Nat) : ∀ s : State,
    s.rejectHeaders n =
      { s with
        recs := (s.rejectHeaders n).recs
        queues := (s.rejectHeaders n).queues
        host := (s.rejectHeaders n).host
        cfgEpoch := (s.rejectHeaders n).cfgEpoch } := by
  induction n with
  | zero => intro s; rfl
  | succ n ih =>
    intro s
    unfold State.rejectHeaders
    split
    · rfl
    · split
      · rfl
      · rw [ih, State.rejectHeader_frame]; rfl

/-- Rejecting a command takes it from its sender: its mailbox is what it answers through. -/
theorem State.takeMbx_frame (s : State) (m : Nat) : s.takeMbx m = { s with host := (s.takeMbx m).host } := rfl

/-- A command that is next in turn, whose header and scope pass, runs its body once and applies its result (12 R419, 13
R435). -/
theorem State.lmp_runs (s : State) (m : Nat) (isRow : Nat → Ctx → Bool) (body : Ctx → State → LmpRes)
    (hr : s.cupolaServes = true) (hn : s.nextMbx = some m) (hrow : isRow (s.mbx m).opcode (s.ctx m) = true)
    (hh : (s.mbx m).header m = none) (hs : scopeCheck (s.mbx m).opcode m (s.mbx m).length = none) :
    s.lmp m isRow body = ((((body (s.ctx m) (s.takeMbx m)).counted (s.mbx m).opcode).apply m)).rejectHeaders 64 := by
  unfold State.lmp
  simp [hr, hn, hrow, hh, hs]

/-- A command that no Cupola serves, that is not next in turn, or not this row's, changes nothing (log 7). -/
theorem State.lmp_waits (s : State) (m : Nat) (isRow : Nat → Ctx → Bool) (body : Ctx → State → LmpRes)
    (h : s.cupolaServes = false ∨ s.nextMbx ≠ some m ∨ isRow (s.mbx m).opcode (s.ctx m) = false) : s.lmp m isRow body = s := by
  unfold State.lmp
  rcases h with h | h | h <;> simp [h]

/-- Every range check passes. -/
theorem firstBad_none : ∀ l : List (Bool × Nat), firstBad l = none ↔ ∀ x ∈ l, x.1 = true
  | [] => by simp [firstBad]
  | (ok, d) :: t => by cases ok <;> simp [firstBad, firstBad_none t]

/-- No condition holds. -/
theorem firstHit_none : ∀ l : List (Bool × Nat × Nat), firstHit l = none ↔ ∀ x ∈ l, x.1 = false
  | [] => by simp [firstHit]
  | (hit, d) :: t => by cases hit <;> simp [firstHit, firstHit_none t]

/-- A body runs when every range check passes and no condition holds (13 R435). -/
theorem checked_runs {s : State} {fields : List (Bool × Nat)} {conds : List (Bool × Nat × Nat)} {body : Unit → LmpRes}
    (hf : firstBad fields = none) (hc : firstHit conds = none) : checked s fields conds body = body () := by
  unfold checked; simp [hf, hc]

/-- A failed range check ends the command with its offset and no other effect (13 R435). -/
theorem checked_arg {s : State} {fields : List (Bool × Nat)} {conds : List (Bool × Nat × Nat)} {body : Unit → LmpRes} {d : Nat}
    (hf : firstBad fields = some d) : checked s fields conds body = .refuse stArg d s := by
  unfold checked; simp [hf]

/-- Words are kept: those a queue accepts raise its count by their number (07 R268). -/
theorem SpillQ.settle_count (q : SpillQ) : q.settle.count = q.count := by
  unfold SpillQ.settle SpillQ.count
  split
  · next h => simp [List.isEmpty_iff] at h; simp [h]; omega
  · rfl

/-- A run that is spilled stays in the queue. -/
theorem SpillQ.spillRun_count (q : SpillQ) : q.spillRun.count = q.count := by
  simp [SpillQ.count, SpillQ.spillRun]; omega

/-- Filling the head moves words only. -/
theorem SpillQ.fillHead_count (q : SpillQ) : q.fillHead.count = q.count := by
  simp [SpillQ.count, SpillQ.fillHead]; omega

theorem SpillQ.accept_count (q : SpillQ) (w : W64) : (q.accept w).count = q.count + 1 := by
  have push (p : SpillQ) : ({ p with tail := p.tail ++ [w] } : SpillQ).count = p.count + 1 := by simp [SpillQ.count]; omega
  unfold SpillQ.accept
  dsimp only
  rw [SpillQ.settle_count, push]
  split
  · rw [SpillQ.settle_count]
  · split
    · rw [SpillQ.spillRun_count, SpillQ.settle_count]
    · rw [SpillQ.spillRun_count, SpillQ.fillHead_count, SpillQ.settle_count]

theorem SpillQ.acceptAll_count (ws : List W64) : ∀ q : SpillQ, (q.acceptAll ws).count = q.count + ws.length := by
  induction ws with
  | nil => intro q; rfl
  | cons w t ih => intro q; simp [SpillQ.acceptAll, ih, SpillQ.accept_count]; omega

end Sys2Proof.Machine
end

