-- ==== Sys2Proof/Tests/Slice0.lean ====
section
/-! SUPPORT. A witness for the hypotheses of every clause of every statement: a concrete state and operands that meet them all. Then
the well-formedness smoke, and a few tests whose expected results come from the manual's worked examples. -/

namespace Sys2Proof.Tests

open Sys2Proof Sys2Proof.Machine Sys2Proof.Certs

-- One proof at a time: a stack for each of many proofs at once would not fit.
set_option Elab.async false

/-- A pair whose second part is known. -/
theorem pair_of {α β : Type} {p : α × β} {b : β} (h : p.2 = b) : p = (p.1, b) := by
  cases p; cases h; rfl

/-! ### Small states -/

/-- Little-endian bytes. -/
def by_ (n v : Nat) : List Byte := leBytes n v

/-- `n` zero bytes. -/
def z (n : Nat) : List Byte := List.replicate n 0

/-- A mailbox of partition `p` with a submitted command. -/
def box (op p : Nat) (pl : List Byte) : Mailbox :=
  { partition := p, st := 2, hdr := BitVec.ofNat 64 (op + pl.length * 2 ^ 40 + 2 ^ 56), payload := memStore [] 0 pl, version := some 1 }

/-- A state with a command in mailbox `m`. -/
def sub (m op p : Nat) (pl : List Byte) (s : State := State.reset) : State :=
  { s with bs := { s.bs with lmpReady := true }, host := { s.host with mbx := tput {} s.host.mbx m (box op p pl) } }

/-- A user partition with 1 GiB of DRAM. -/
def user : Partition :=
  { live := true, domes := 1, budgetUs := 1000, storeMib := 1, maxLaunches := 4, seqQuota := 8, regions := [(0x100000000, 0x40000000)] }

/-- A state with partition 1. -/
def withPart (x : Partition) (s : State := State.reset) : State := { s with sch := { s.sch with parts := [(1, x)] } }

/-- An image of one task. -/
def img : Image := { dest := 0x100000000, bytes := 4096, meas := z 32, facts := { tasks := [{}], graphs := [(0, [0])] } }

/-- A user partition with that image. -/
def userImg : Partition := { user with images := [(0, some img)] }

/-- The payload of a launch of its entry 0. -/
def launchPl (flags at_ : Nat) : List Byte := by_ 1 0 ++ by_ 1 flags ++ z 14 ++ by_ 8 at_ ++ by_ 8 0x100010000 ++ by_ 8 0x100020000 ++ z 8

/-- A state whose job 5 is this. -/
def withJob (b : Job) (s : State := State.reset) : State := { s with sch := { s.sch with jobs := [(5, b)] } }

/-- A user partition with that image, a pool of 64 pages and a swap area. -/
def userKv : Partition :=
  { userImg with kvDa := 0x100100000, kvBytes := 0x100000, swapDa := 0x800000000000, swapBytes := 0x100000, saveDa := 0x100200000 }

/-- An open sequence of partition 1 in slot 0, whose handle is 0. -/
def seq0 : Seq := { st := 1, part := 1, nl := 1, dc64 := 9, tpp := 28, maxLen := 56, ptLen := 4, ptBase := 0x100300000 }

/-- A state with partition 1 and that sequence. -/
def withSeq (q : Seq) (s : State := withPart userKv) : State := { s with seq := { s.seq with seqs := [(0, q)] } }

/-- A state whose Lantern A serves a command of its safety mailbox. -/
def subSm (op : Nat) (pl : List Byte) (s : State := State.reset) : State :=
  { s with host := { s.host with sm := [(0, { rspHdr := 0x0100000000000000, cmd := memStore [] 0x60 (by_ 2 op ++ z 2 ++ by_ 1 pl.length ++ z 3 ++ pl) })] } }

/-! ### Protocol and partitions -/

theorem witness_hello : HelloOk 0 (sub 0 0x01 0xFF (by_ 1 1 ++ by_ 1 1 ++ z 6)) := by decide
theorem witness_capsGet : Taken 0 0x02 (sub 0 0x02 0xFF []) := by decide
theorem witness_mbxAssign : MbxAssignOk 0 (sub 0 0x03 0xFF (by_ 1 1 ++ by_ 1 1 ++ by_ 2 1 ++ z 4) (withPart user)) := by decide
theorem witness_mbxAssign_none : MbxAssignOk 0 (sub 0 0x03 0xFF (by_ 1 63 ++ by_ 1 0xFF ++ by_ 2 1 ++ z 4)) := by decide
theorem witness_partitionDestroy : PartitionEndOk 0 0 (sub 0 0x11 0xFF (by_ 1 1 ++ z 7) (withPart user)) := by decide
theorem witness_partitionReset : PartitionEndOk 0 1 (sub 0 0x11 0xFF (by_ 1 1 ++ by_ 1 1 ++ z 6) (withPart user)) := by decide
theorem witness_partitionSetShare :
    SetShareOk 0 (sub 0 0x12 0xFF (by_ 1 1 ++ by_ 1 3 ++ by_ 2 2 ++ by_ 4 100) (withPart user)) ∧
    SetShareOk 0 (sub 0 0x12 0xFF (by_ 1 1 ++ by_ 1 1 ++ by_ 2 2 ++ z 4) (withPart user)) ∧
    SetShareOk 0 (sub 0 0x12 0xFF (by_ 1 1 ++ by_ 1 2 ++ z 2 ++ by_ 4 100) (withPart user)) := by decide
theorem witness_partitionZeroingDone : ZeroedOk 1 (withPart { user with ending := 4 }) := by decide

theorem witness_partitionCreate : PartitionCreateOk 0 1 0 (sub 0 0x10 0xFF
    (z 4 ++ by_ 4 1000 ++ by_ 2 1 ++ by_ 2 1 ++ by_ 2 8 ++ by_ 2 4 ++ by_ 1 1 ++ z 7 ++ by_ 8 0x100000000 ++ by_ 8 0x100000 ++ z 48 ++
      z 32 ++ by_ 8 0x100000000 ++ by_ 4 768 ++ by_ 2 1 ++ z 2)) := by decide +kernel

/-! ### Images and launches -/

theorem witness_imageLoad : ImageLoadOk 1 { siliconRev := Config.siliconRev.toNat } (sub 1 0x20 1
    (by_ 8 0x100000000 ++ by_ 8 0x100010000 ++ by_ 4 4096 ++ z 4) (withPart user)) := by
  refine ⟨?_, ?_, ?_, ?_, ?_, ?_, ?_, ?_, ?_, ?_, rfl, ?_, ?_, ?_, ?_⟩ <;> decide
theorem witness_imageUnload : ImageUnloadOk 1 (sub 1 0x21 1 (z 8) (withPart userImg)) := by decide
theorem witness_launch : LaunchOk 1 false false (sub 1 0x30 1 (launchPl 0 0) (withPart userImg)) := by decide
theorem witness_launchAt : LaunchOk 1 true false (sub 1 0x31 1 (launchPl 0 30000) (withPart userImg)) := by decide
theorem witness_launchAt_twin : LaunchOk 1 true true (sub 1 0x31 1 (launchPl 4 30000) (withPart userImg
    { State.reset with tw := { st := 1 }, clk := { twinValid := true } })) := by decide
theorem witness_taskAbort : TaskAbortOk 1 5 (sub 1 0x32 1 (by_ 1 1 ++ by_ 1 0 ++ by_ 2 7 ++ z 4)
    (withJob { live := true, part := 1, mbx := 1, tag := 7 } (withPart userImg))) := by decide
theorem witness_launchAtStart : LaunchAtStartOk 5 1000 (withJob { live := true, startAt := some 1000 }) := by decide
theorem witness_launchAtStart_takeover : let s := withJob { live := true, startAt := some 1000 } { State.reset with saf := { takeover := true } }
    (s.job 5).live = true ∧ (s.job 5).startAt = some 1000 ∧ s.saf.takeover = true := by decide

/-! ### Sequences -/

theorem witness_seqOpen : SeqOpenOk 1 0 0x100001000 (sub 1 0x40 1
    (by_ 1 0 ++ by_ 1 0 ++ by_ 1 1 ++ by_ 1 9 ++ by_ 1 1 ++ z 3 ++ by_ 4 56 ++ by_ 4 4) (withPart userKv)) := by decide
theorem witness_seqClose : SeqNamedOk 1 0x41 (sub 1 0x41 1 (z 8) (withSeq seq0)) := by decide
theorem witness_seqFork : SeqNamedOk 1 0x42 (sub 1 0x42 1 (z 8) (withSeq seq0)) := by decide
theorem witness_pageTableEdit :
    let s := sub 1 0x43 1 (z 4 ++ by_ 2 1 ++ z 10) (withSeq seq0)
    PageTableEditOk 1 ((s.takeMbx 1).editEntries 0 0 [(0, 0)]).1 s := by
  refine ⟨?_, ?_, ?_, ?_, ?_, ?_, ?_, ?_, ?_, ?_, ?_, ?_⟩ <;> decide
theorem witness_seqSwapPolicy_resident : SwapPolicyOk 1 (sub 1 0x44 1 (by_ 1 0 ++ by_ 1 1 ++ z 14) (withSeq seq0)) := by decide
theorem witness_seqSwapPolicy_evictable : SwapPolicyOk 1 (sub 1 0x44 1 (z 16) (withSeq seq0)) := by decide
theorem witness_seqSwapWatermarks :
    WatermarksOk 1 (sub 1 0x44 1 (by_ 1 1 ++ z 7 ++ by_ 4 16 ++ by_ 4 32) (withSeq seq0)) := by decide

/-! ### Settings, time, claims, accounting -/

/-- A SAFETY_CONFIG of one item in mailbox 0. -/
def cfg (key part v : Nat) (s : State := State.reset) : State :=
  sub 0 0x70 0xFF (by_ 1 1 ++ z 7 ++ by_ 2 key ++ by_ 1 part ++ z 5 ++ by_ 8 v) s

theorem witness_detMode : SafetyOk 0 1 (cfg 1 0 1) := by decide
theorem witness_majorFrameUs : SafetyOk 0 2 (cfg 2 0 1000) := by decide
theorem witness_rhT1 : SafetyOk 0 3 (cfg 3 0 256) := by decide
theorem witness_rhT2 : SafetyOk 0 4 (cfg 4 0 16384) := by decide
theorem witness_dual : SafetyOk 0 5 (cfg 5 1 (1 + 2 * 2 ^ 8 + 16 * 2 ^ 16 + 0x10 * 2 ^ 32)
    (withPart { user with cls := 4, priv := true, domes := 0x11 })) := by decide
theorem witness_selftestRotation : SafetyOk 0 6 (cfg 6 0 1) := by decide
theorem witness_towerReset : SafetyOk 0 0x10 (cfg 0x10 0 3) := by decide
theorem witness_warmReset : SafetyOk 0 0x11 (cfg 0x11 0 0) := by decide
theorem witness_timeSyncStep : TimeStepOk 0 (sub 0 0xB0 0xFF (z 8 ++ by_ 8 1000000 ++ z 8)) := by decide
theorem witness_timeSyncSlew : TimeSlewOk 0 (sub 0 0xB0 0xFF (by_ 1 1 ++ z 7 ++ by_ 8 10000000 ++ z 8)) := by decide
theorem witness_syncSet : SyncSetOk 0 (sub 0 0xB0 0xFF (by_ 1 2 ++ z 15 ++ by_ 4 1 ++ by_ 4 999999)
    { State.reset with claims := [{ res := 1, inst := 0, mbx := 2, part := 1 }] }) := by decide
theorem witness_resourceClaim : ClaimOk 2 (sub 2 0xC0 1 (by_ 1 3 ++ z 7)) := by decide
theorem witness_resourceClaim_east : ClaimOk 2 (sub 2 0xC0 1 (by_ 1 5 ++ z 3 ++ by_ 4 600)) := by decide
theorem witness_resourceClaim_layout : ClaimOk 0 (sub 0 0xC0 0xFF (by_ 1 7 ++ z 1 ++ by_ 2 3 ++ by_ 4 15)) := by decide
theorem witness_resourceRelease :
    ReleaseOk 2 { res := 3, inst := 0, mbx := 2, part := 1 } (sub 2 0xC1 1 (by_ 1 3 ++ z 7)
      { State.reset with claims := [{ res := 3, inst := 0, mbx := 2, part := 1 }] }) := by decide
theorem witness_accountingRead_client : AccountingOk 2 (sub 2 0xD0 1 (by_ 1 0 ++ by_ 1 2 ++ by_ 1 1 ++ z 5)) := by decide
theorem witness_accountingRead_partition :
    AccountingOk 2 (sub 2 0xD0 1 (by_ 1 1 ++ by_ 1 1 ++ z 6) (withPart user)) := by decide
theorem witness_accountingRead_system : AccountingOk 0 (sub 0 0xD0 0xFF (by_ 1 2 ++ z 7)) := by decide

/-! ### Reports, keys, firmware -/

theorem witness_errorsRead : ErrorsReadOk (.mbx 1) (sub 1 0x71 1 (z 2 ++ by_ 1 62 ++ z 5)) := by decide
theorem witness_errorsRead_sm : ErrorsReadOk (.sm 0) (subSm 0x71 (z 2 ++ by_ 1 1 ++ z 5)) := by decide
theorem witness_errorsClear : ErrorsClearOk (.mbx 0) (sub 0 0x72 0xFF (z 8 ++ by_ 8 1)) := by decide
theorem witness_errorsClear_sm : ErrorsClearOk (.sm 0) (subSm 0x72 (z 8 ++ by_ 8 1)) := by decide
theorem witness_selftestStatus : AnyTaken (.mbx 1) 0x73 (sub 1 0x73 1 [] { State.reset with saf := { test := { last := some (3, 9, []) } } }) ∧
    (sub 1 0x73 1 [] { State.reset with saf := { test := { last := some (3, 9, []) } } }).saf.test.last = some (3, 9, []) := by decide
theorem witness_configRootGet_root : RootGetOk (.sm 0) 0 (subSm 0x90 (z 8)) := by decide
theorem witness_configRootGet_sections : RootGetOk (.mbx 1) 1 (sub 1 0x90 1 (by_ 1 1 ++ z 7)) := by decide
theorem witness_configRootGet_leaves : RootGetOk (.mbx 1) 2 (sub 1 0x90 1 (by_ 1 2 ++ by_ 1 16 ++ z 6)) := by decide
theorem witness_attest : AttestOk (.mbx 1) (sub 1 0xA0 1 (z 16 ++ by_ 2 257 ++ z 6)) := by decide
theorem witness_attest_sm : AttestOk (.sm 0) (subSm 0xA0 (z 24)) := by decide
theorem witness_lifecycleAdvance : LifecycleOk 0 [] (sub 0 0xA1 0xFF (by_ 1 4 ++ z 127)) := by decide +kernel
theorem witness_thermalPolicy : ThermalPolicyOk 0 (sub 0 0xE0 0xFF (by_ 2 2 ++ by_ 2 1000 ++ by_ 1 1 ++ z 3)) := by decide
theorem witness_fwStage : FwStageOk 0 (sub 0 0xF0 0xFF (by_ 8 0x800000000000 ++ by_ 4 65536 ++ z 4)
    { State.reset with host := { eps := [(0, { linkUp := true })] } }) := by decide
theorem witness_fwActivate : FwActivateOk 0 (z 32) false (sub 0 0xF1 0xFF (by_ 1 1 ++ z 7)
    { State.reset with bs := { staging := some (1, z 32, false) } }) := by decide


/-! ### Twin, cameras, displays, planning -/

/-- A state of a paired member. -/
def paired (role : Nat) (s : State := State.reset) : State := { s with tw := { s.tw with st := 1, role := role } }

/-- Bytes at an address. -/
def store (a : Nat) (bs : List Byte) (s : State) : State := { s with mem := { s.mem with bytes := memStore s.mem.bytes a bs } }

/-- 64-bit words as bytes. -/
def ws (l : List Nat) : List Byte := l.flatMap (by_ 8)

/-- A STREAM_BIND payload: port 0, VC 0, one lane, RAW12, 80 Mbps, 2 × 1 pixels, two buffers. -/
def bindPl (flags : Nat) : List Byte :=
  by_ 4 0x2C010000 ++ by_ 2 80 ++ by_ 2 2 ++ by_ 2 1 ++ by_ 1 2 ++ by_ 1 0 ++ by_ 2 1 ++ by_ 2 1000 ++ by_ 8 0x100000000 ++ by_ 4 128 ++
    by_ 2 64 ++ z 2 ++ by_ 1 flags ++ by_ 1 4 ++ z 46

/-- A DISPLAY_BIND payload: port 3, one lane, RGB888, 4500 Mbps, 2 × 1 pixels. -/
def dispPl : List Byte :=
  by_ 4 0x24010003 ++ by_ 2 4500 ++ by_ 2 2 ++ by_ 2 1 ++ by_ 1 1 ++ z 1 ++ by_ 2 64 ++ z 2 ++ z 4 ++ by_ 4 1000 ++ by_ 8 1000000 ++ z 8 ++
    (List.range 4).flatMap fun i => z 19 ++ by_ 1 i ++ z 12

/-- The partition that plans. -/
def planner : Partition := { userImg with role := 1 }

/-- A request descriptor for engine 0 with a path of up to two poses. -/
def planDesc : List Byte :=
  ws [0, 0, 2 ^ 32, 0x100002000, 0x100003000, 0x100004000, 0x100100000, 2 ^ 48 + 2 ^ 33, 0x0001000100010001, 0x0001000100000000]

theorem witness_twinPair : TwinPairOk 0 (sub 0 0x80 0xFF (z 480)) := by decide +kernel
theorem witness_twinRole : TwinRoleOk 0 [] true (sub 0 0x81 0xFF (by_ 1 2 ++ z 1 ++ by_ 2 2 ++ by_ 2 2 ++ z 2) (paired 0 (withPart userImg))) := by
  decide
theorem witness_standDown : StandDownOk 0 (sub 0 0x81 0xFF (by_ 1 0 ++ by_ 1 1 ++ z 6) { State.reset with tw := { st := 2 } }) := by decide
theorem witness_twinHandover : HandoverOk 0 (sub 0 0x82 0xFF (by_ 2 2 ++ by_ 1 1 ++ z 5)
    { State.reset with tw := { st := 1, mirror := 2, pub := 2, parts := [(1, { ready := true })] } }) := by decide
theorem witness_streamBind : StreamBindOk 1 (sub 1 0x50 1 (bindPl 0x1F) (withPart userImg)) := by decide +kernel
theorem witness_streamBind_rebind : StreamBindOk 1 (sub 1 0x50 1 (bindPl 0) { withPart userImg with
    claims := [{ res := 0x20, inst := 0, mbx := 1, part := 1 }], cam := { streams := [(0, { bind := some { pl := bindPl 0, mbx := 1, part := 1 } })] } }) := by
  decide +kernel
theorem witness_streamUnbind : StreamUnbindOk 1 { res := 0x20, inst := 255, mbx := 1, part := 1 } (sub 1 0x51 1 (by_ 2 0x0F0F ++ z 6)
    { State.reset with claims := [{ res := 0x20, inst := 255, mbx := 1, part := 1 }] }) := by decide
theorem witness_displayBind : DisplayBindOk 1 (sub 1 0x52 1 dispPl (withPart userImg)) := by decide +kernel
theorem witness_worldUpdate : WorldUpdateOk 1 (sub 1 0x60 1 (by_ 8 0x100001000 ++ by_ 2 1 ++ z 6)
    (store 0x100001000 (ws [6 * 2 ^ 60]) (withPart planner))) := by decide
theorem witness_planRequest : PlanRequestOk 1 0 (sub 1 0x61 1 (by_ 8 0x100001000) (store 0x100001000 planDesc (withPart planner))) := by
  decide +kernel
theorem witness_planCancel : PlanCancelOk 1 (sub 1 0x62 1 (z 8)
    { State.reset with plan := { eng := [(0, { queue := [{ mbx := 1, part := 1, desc := [] }] })] } }) := by decide

/-! ### The Twin Link -/

/-- Mailboxes are open and mailbox 1 is this. -/
def mb1 (b : Mailbox) (s : State := State.reset) : State :=
  { s with bs := { s.bs with lmpReady := true }, host := { s.host with mbx := [(1, b)] } }

/-- A twin of these fields. -/
def twin (t : TwinCore) : State := { State.reset with tw := t }

theorem witness_twinFlitReceive : FlitOk 1 { cls := 0, seq := 4095, msg := .idle } (twin { st := 1, ports := [(1, { rxNext := 4095 })] }) := by decide
theorem witness_twinFlitReceive_control : ControlFlitOk 0 { cls := 1, msgSeq := 2 ^ 32 - 1 } (twin { st := 1, ctlNext := 2 ^ 32 - 1 }) := by decide
theorem witness_twinFlitReceive_crc : ({ crcOk := false } : Flit).crcOk = false := rfl
theorem witness_twinIdleFlit : (State.reset.tport (0 : Fin 2).val).down = false := by decide
theorem witness_twinPortDown : ((twin { st := 1 }).tport (1 : Fin 2).val).down = false := by decide
theorem witness_pairingAuth : (twin { record := some (z 480) }).tw.record = some (z 480) ∧ (twin { record := some (z 480) }).tw.st ≠ 1 ∧
    (twin { record := some (z 480) }).tw.split = false := by decide +kernel
theorem witness_twinPairTimeout : (mb1 { st := 3, wait := some .pair }).waits .pair = true := by decide +kernel
theorem witness_launchLogTimeout : 1 < 64 ∧ ((mb1 { wait := some (.launchLog (15 : Fin 16).val 9 []) }).mbx 1).wait =
    some (.launchLog (15 : Fin 16).val 9 []) := by decide
theorem witness_mirrorAck : (twin { st := 1, mirror := 0x8000, pub := 0x8000 }).mirrored (15 : Fin 16).val = true ∧
    (twin { st := 1, mirror := 0x8000, pub := 0x8000 }).publishes (15 : Fin 16).val = true := by decide
theorem witness_twinLaunchAtForward : (twin { st := 1 }).tw.st = 1 := rfl
theorem witness_twinLaunchAtTimeout : ((mb1 { wait := some (.launchTwin (15 : Fin 16).val 9) }).mbx (1 : Fin 64).val).wait =
    some (.launchTwin (15 : Fin 16).val 9) := by decide
theorem witness_takeover : (twin { st := 1, ports := [(0, { down := true }), (1, { down := true })] }).tw.st = 1 ∧
    (twin { st := 1, ports := [(0, { down := true }), (1, { down := true })] }).bothDown = true := by decide
theorem witness_takeoverRerunDone : RerunOk 5 15 true
    { withJob { live := true, cause := some 0 } with tw := { st := 1, parts := [(15, { rerun := [(5, true)] })] } } := by decide
theorem witness_dualCompareSignatures : ((withJob { live := true, dual := 3 }).job 5).live = true ∧
    ((withJob { live := true, dual := 3 }).job 5).dual = 3 ∧ ((withJob { live := true, dual := 3 }).job 5).compared = false := by decide
theorem witness_twinRootCompare : (twin { st := 1, sent := [.roots 7 [1]] }).tw.st = 1 ∧
    (twin { st := 1, sent := [.roots 7 [1]] }).rootsOf 7 = some [1] := by decide

/-! ### Mailboxes, registers, queues, links -/

theorem witness_mbxStateFilling : (mb1 {}).bs.lmpReady = true ∧ (((mb1 {}).mbx (63 : Fin 64).val).st = mbFree ∨
    ((mb1 {}).mbx (63 : Fin 64).val).st = mbDone) := by decide
theorem witness_mbxStateFree : (mb1 { st := 4 }).bs.lmpReady = true ∧ (((mb1 { st := 4 }).mbx (1 : Fin 64).val).st = mbFilling ∨
    ((mb1 { st := 4 }).mbx (1 : Fin 64).val).st = mbDone) := by decide
theorem witness_mbxGo : (mb1 { st := 1 }).bs.lmpReady = true ∧ ((mb1 { st := 1 }).mbx (1 : Fin 64).val).st = mbFilling := by decide
theorem witness_mbxGo_ignored : (mb1 {}).bs.lmpReady = true ∧ ((mb1 {}).mbx (1 : Fin 64).val).ignored = false ∧
    ((mb1 {}).mbx (1 : Fin 64).val).st ≠ mbFilling := by decide
theorem witness_mbx_closed : State.reset.bs.lmpReady = false := rfl
theorem witness_registerWrite_msix : 1048 < 16 * 66 - 7 := by decide
theorem witness_winCtrlWrite_enabled :
    (tget 0 (({ State.reset with host := { eps := [(1, { winCtrl := [(15, 0xE000010000000000)] })] } } : State).ep (1 : Fin 2).val).winCtrl
      (15 : Fin 16).val).getLsbD 63 = true := by decide
theorem witness_winCtrlWrite : (tget 0 (State.reset.ep (1 : Fin 2).val).winCtrl (15 : Fin 16).val).getLsbD 63 = false := by decide

/-- The state whose queue `k` is this. -/
def withQ (k : Nat) (q : SpillQ) : State := { State.reset with queues := [(k, q)] }

theorem witness_sqPush : Plain (.plan 1) ∧ ((withQ 18 { enable := true, size := 64 }).q (QueueId.plan 1).key).enable = true ∧
    1 ≤ ((withQ 18 { enable := true, size := 64 }).q (QueueId.plan 1).key).room := by decide
theorem witness_sqPush_full : Plain (.ingress 15) ∧
    ((withQ 16 { tail := List.replicate 32 0 }).q (QueueId.ingress 15).key).room = 0 := by decide +kernel
theorem witness_sqPush_evq : ((withQ 0 { enable := true, size := 64 }).q 0).enable = true ∧
    ((withQ 0 { enable := true, size := 64 }).q 0).lost = 0 ∧ 1 ≤ ((withQ 0 { enable := true, size := 64 }).q 0).room ∧
    (withQ 0 { enable := true, size := 64 }).urgent (sqWord (0 : BitVec 62).toNat false).toNat = false := by decide +kernel
theorem witness_sqStalledPushAccept : ((withQ 1 { enable := true, size := 64, stalled := [1, 2] }).q (QueueId.ingress 0).key).stalled = [1, 2] ∧
    ((withQ 1 { enable := true, size := 64, stalled := [1, 2] }).q (QueueId.ingress 0).key).enable = true ∧
    1 ≤ ((withQ 1 { enable := true, size := 64, stalled := [1, 2] }).q (QueueId.ingress 0).key).room := by decide
theorem witness_sqPop : tabWf ({} : SpillQ) (withQ 47 { enable := true, tail := [3] }).queues = true ∧
    ((withQ 47 { enable := true, tail := [3] }).q (QueueId.stream 15 0).key).settle.head = [(3, false)] ∧
    parityOf (3 : W64).toNat 64 = false := by decide +kernel
theorem witness_sqPop_empty : Plain (.plan 0) ∧ tabWf ({} : SpillQ) (withQ 17 { enable := true }).queues = true ∧
    ((withQ 17 { enable := true }).q (QueueId.plan 0).key).count = 0 := by decide
theorem witness_sqRefillDone : State.reset.ringUnreachable (State.reset.q (QueueId.plan 0).key) = false := by decide
theorem witness_sqSpill : let s := withQ 17 { enable := true, size := 64, head := List.replicate 16 (0, false), tail := List.replicate 8 0 }
    s.ringUnreachable (s.q (QueueId.plan 0).key) = false ∧ 8 ≤ (s.q (QueueId.plan 0).key).tail.length ∧
    (s.q (QueueId.plan 0).key).mid.length + 8 ≤ (s.q (QueueId.plan 0).key).size ∧
    16 ≤ (s.q (QueueId.plan 0).key).head.length + 8 * (s.q (QueueId.plan 0).key).mid.length := by decide
theorem witness_sqCtrlWrite : let s := withQ 17 { base := 0x100F000000, size := 4096 }
    Plain (.plan 0) ∧ (s.q (QueueId.plan 0).key).enable = false ∧ (s.q (QueueId.plan 0).key).count = 0 ∧
    (s.q (QueueId.plan 0).key).spillFault = false ∧ s.ringOk (.plan 0) (s.q (QueueId.plan 0).key) = true := by decide
theorem witness_sqConfigWrite : (State.reset.q (QueueId.plan 0).key).enable = false ∧ (State.reset.q (QueueId.plan 0).key).count = 0 ∧
    sizeOk ((64 : W64).toNat % 2 ^ 21) = true ∧ sizeOk ((0x100000 : W64).toNat % 2 ^ 21) = true := by decide
theorem witness_evqHoldoffExpiry : ({ State.reset with host := { irq := { holdoffAt := some 7 } } } : State).host.irq.armed = true ∧
    ({ State.reset with host := { irq := { holdoffAt := some 7 } } } : State).host.irq.holdoffAt = some 7 := by decide
theorem witness_pcieLinkUp : ({ State.reset with saf := { identOk := true } } : State).saf.identOk = true ∧
    (({ State.reset with saf := { identOk := true } } : State).ep (1 : Fin 2).val).perst = false := by decide

/-- Both endpoints' links are up. -/
def hostUp : State := { State.reset with host := { eps := [(0, { linkUp := true }), (1, { linkUp := true })] } }

/-- Window 15 of endpoint 1 maps 1 MiB of partition 1, reads and writes of it allowed. -/
def mapped : State := { State.reset with host := { eps := [(1, { winBase := [(15, 0x100000000)], winCtrl := [(15, 0xE000010000000000)] })] } }

theorem witness_bar2Access_read : mapped.bar2Da (1 : Fin 2).val (15 * 2 ^ 32 + 0xFFFFF) 1 61 = some (0x1000FFFFF, 1) := by decide
theorem witness_bar2Access_write : mapped.bar2Da (1 : Fin 2).val (15 * 2 ^ 32) (z 8).length 62 = some (0x100000000, 1) := by decide
theorem witness_bar2Access_refused : mapped.bar2Da (1 : Fin 2).val (15 * 2 ^ 32 + 0xFFFFF) 2 61 = none := by decide
theorem witness_hostReadCompletion : hostUp.hostReader (1 : Fin 2).val (.engine 1) hostBase (max 1 (z 8).length) = true ∧
    hostUp.hostReader (1 : Fin 2).val (.lantern 1) (2 * hostBase - 1) 1 = true := by decide +kernel
theorem witness_i3cCcc_address : (State.reset.sm (0 : Fin 2).val).dynAddr = none := by decide
theorem witness_rcvData : ({ State.reset with bs := { stage := stRecoveryWait } } : State).bs.stage = stRecoveryWait ∧
    ({ State.reset with bs := { stage := stRecoveryWait } } : State).bs.rcvBy = none ∧
    ({ State.reset with bs := { stage := stRecoveryWait } } : State).bs.goEp = none := by decide
theorem witness_rcvData_more : ({ State.reset with bs := { rcvBy := some 1, rcvState := 2 } } : State).rcvOpen (1 : Fin 2).val = true := by decide
theorem witness_rcvGo : ({ State.reset with bs := { rcvBy := some 1, rcvState := 2 } } : State).bs.rcvBy = some (1 : Fin 2).val ∧
    ({ State.reset with bs := { rcvBy := some 1, rcvState := 2 } } : State).bs.rcvState = 2 := by decide
theorem witness_hotJoin : ((1 : Fin 2).val = 1 → State.reset.cam.role = 0) ∧
    findLow (fun i => decide (tget 0 State.reset.host.ctlTargets (128 * (1 : Fin 2).val + i) = 0)) 128 0 = some 0 := by decide

/-! ### Scheduling -/

/-- Spire 63 holds task 0 of job 5, of partition 1. -/
def on63 (t : TaskSt) (x : Partition := userImg) (sp : Spire := {}) : State :=
  { withJob { live := true, part := 1, mbx := 1, tasks := [t] } (withPart x) with sch := {
    parts := [(1, x)], jobs := [(5, { live := true, part := 1, mbx := 1, tasks := [t] })], spires := [(63, { sp with job := some (5, 0) })] } }

/-- A privileged partition of every Dome with a Golden Tile. -/
def goldenPart : Partition := { userImg with priv := true, domes := 0xFFFF, golden := some { image := 0, task := 0, gtUs := 10, sig := 7 } }

/-- The state while the partition's Golden Tile slot runs, or is led up to, on Spire 63. -/
def golden63 : State := { State.reset with sch := {
  parts := [(1, goldenPart)], frame := { golden := [1] }, spires := [(63, { held := some 1, goldenRun := true })] } }

theorem witness_taskReady : ReadyOk 5 0 (on63 {}) := by decide
theorem witness_taskDispatch : DispatchOk 0 1 5 0 0 true
    (withJob { live := true, part := 1, mbx := 1, tasks := [{ phase := .ready }] } (withPart userImg)) := by decide +kernel
theorem witness_taskFailover : FailoverOk 63 5 0 0
    (withJob { live := true, part := 1, mbx := 1, tasks := [{ phase := .failover, spire := 63 }] } (withPart userImg)) := by decide +kernel
theorem witness_taskReady_dependency : let d : TaskDecl := { waits := [.ctr 15 63 1] }
    let s := on63 { decl := d }
    let s : State := { s with sch := { s.sch with ctrFailed := [(1023, true)] } }
    WaitingOk 5 0 s ∧ (s.task 5 0).decl.waits.all (s.reached none 5) = false ∧ (s.task 5 0).decl.waits.any (s.doomed none 5) = true := by
  decide
theorem witness_yieldPoint : (on63 { phase := .running }).running (63 : Fin 64).val = some (5, 0) ∧
    ((on63 { phase := .running }).task 5 0).waitSince = none := by decide
theorem witness_tokenWaitDone : let s := on63 { phase := .running, waitSince := some 0, yWaits := [.ctr 15 63 0] }
    s.running (63 : Fin 64).val = some (5, 0) ∧ (s.task 5 0).waitSince.isSome = true ∧
    (s.task 5 0).yWaits.all (s.reached (some ((63 : Fin 64).val / 4)) 5) = true := by decide
theorem witness_yieldWaitTimeout : let s : State := { State.reset with sch := {
      parts := [(1, { userImg with saveSlots := 2, priv := true, domes := 0x8000 })]
      jobs := [(5, { live := true, part := 1, mbx := 1, tasks := [{ phase := .running, waitSince := some 9 }, { phase := .ready }] })]
      spires := [(60, { stopped := true }), (61, { stopped := true }), (62, { stopped := true }), (63, { job := some (5, 0) })] } }
    s.running (63 : Fin 64).val = some (5, 0) ∧ (s.task 5 0).waitSince = some 9 ∧
    (s.nextTask (s.job 5).part (63 : Fin 64).val).isSome = true ∧ s.firstFree (s.job 5).part (s.task 5 0).decl.shadow = none ∧
    (s.spire (63 : Fin 64).val).retry = none := by
  decide +kernel
theorem witness_saveDone : SavingOk 63 5 0 (on63 { phase := .saving }) := by decide
theorem witness_taskEnd : let s := on63 { phase := .running }
    s.running (63 : Fin 64).val = some (5, 0) ∧ (s.task 5 0).waitSince = none ∧ (s.spire (63 : Fin 64).val).retry = none := by decide
theorem witness_taskOverrun : let s := on63 { phase := .running }
    s.running (63 : Fin 64).val = some (5, 0) ∧ (s.task 5 0).overran = false := by decide
theorem witness_overrunAbort : let s := on63 { phase := .running, overran := true } { userImg with report := true }
    s.running (63 : Fin 64).val = some (5, 0) ∧ (s.task 5 0).overran = true ∧ (s.part (s.job 5).part).report = true := by decide
theorem witness_spireFllRelock : (State.reset.spire (63 : Fin 64).val).retry = none ∧ (State.reset.spire (63 : Fin 64).val).keep = false := by
  decide
theorem witness_windowStart : let s : State := { golden63 with sch := { golden63.sch with frame := { windows := [(1, 5, 9)] } } }
    (s.sch.frame.windows.find? fun w => w.1 = (1 : Fin 16).val) = some (1, 5, 9) ∧ (s.part (1 : Fin 16).val).golden.isSome = true := by decide
theorem witness_slackStart : ({ State.reset with sch := { frame := { owner := some 1 } } } : State).sch.frame.owner = some 1 := rfl
theorem witness_budgetExhausted : let s := on63 { phase := .running } { userImg with priv := true }
    s.running (63 : Fin 64).val = some (5, 0) ∧ (s.part (s.job 5).part).priv = true ∧ (s.spire (63 : Fin 64).val).throttled = false := by
  decide
theorem witness_frameMarkEnd : ({ State.reset with frameMark := true } : State).frameMark = true := rfl
theorem witness_reclaimLead : (golden63.part (1 : Fin 16).val).live = true ∧ (golden63.part (1 : Fin 16).val).golden.isSome = true := by decide
theorem witness_reclaimLead_strict : let s := withPart { user with strict := true }
    (s.part (1 : Fin 16).val).live = true ∧ (s.part (1 : Fin 16).val).strict = true ∧ (s.part (1 : Fin 16).val).priv = false := by decide
theorem witness_goldenTileSlot : (golden63.part (1 : Fin 16).val).live = true ∧ (golden63.part (1 : Fin 16).val).golden.isSome = true := by
  decide
theorem witness_goldenTileSignature : (golden63.spire (63 : Fin 64).val).goldenRun = true ∧ (golden63.spire (63 : Fin 64).val).held = some 1 ∧
    (golden63.part 1).golden = some { image := 0, task := 0, gtUs := 10, sig := 7 } := by decide
theorem witness_goldenTileSlotEnd : (golden63.part (1 : Fin 16).val).golden = some { image := 0, task := 0, gtUs := 10, sig := 7 } ∧
    (1 : Fin 16).val ∈ golden63.sch.frame.golden := by decide

/-- Spire 63 runs a stripe of rows 0 to 65534 of token 63 of Dome 15, which also consumes row ring 62 there. -/
def stripe : State := on63 { phase := .running, decl := { tokens := [(15, 63, 0, 65535)], reads := [(15, 62, 0)] } }

theorem witness_rowTokenAdvance : tabWf 0 stripe.sch.tokens = true ∧ 65535 < 2 ^ 16 ∧ BandDone 15 63 65535 63 5 0 stripe := by decide +kernel
theorem witness_tokenShadowUpdate : let s : State := { State.reset with sch := { tokens := [(1023, 65535)] } }
    tabWf 0 s.sch.shadows = true ∧ 65535 < 2 ^ 16 ∧ tget 0 s.sch.shadows (shadowKey (0 : Fin 16).val (15 : Fin 16).val (63 : Fin 64).val) < 65535 ∧
    65535 ≤ tget 0 s.sch.tokens (64 * (15 : Fin 16).val + (63 : Fin 64).val) := by decide
theorem witness_tokenShadowUpdate_late : 0 ≤ tget 0 State.reset.sch.shadows (shadowKey (0 : Fin 16).val (15 : Fin 16).val (63 : Fin 64).val) ∧
    tget 0 State.reset.sch.tokens (64 * (15 : Fin 16).val + (63 : Fin 64).val) < 1 := by decide
theorem witness_ringReadTokenAdvance : tabWf 0 stripe.sch.reads = true ∧ RingReadsDone 15 62 63 5 0 stripe := by decide +kernel

/-! ### Tiles, sorts, gathers, appends, steps -/

/-- A tile that computes the signature of nothing. -/
def nilTile : TileOp := .signature [] 0

/-- An open sequence in a step, one token appended, whose first page is in the pool. -/
def stepSeq : Seq := { seq0 with appended := 1, a := 1 }

/-- Spire 0 runs task 0 of job 5; job 6 is a step with that sequence. -/
def stepping (g : List Gather) : State :=
  store 0x100300000 (by_ 4 0x80040040) { State.reset with
    sch := {
      parts := [(1, userKv)]
      jobs := [(5, { live := true, part := 1, mbx := 1, tasks := [{ phase := .running }] }),
        (6, { live := true, kind := .step, part := 1, wants := [{ handle := 0, tokens := 1 }] })]
      spires := [(0, { job := some (5, 0) })] }
    seq := { seqs := [(0, stepSeq)], gathers := [(0, g)] } }

/-- Spire 0 runs task 0 of that step. -/
def steppingIn : State := { stepping [] with sch := { (stepping []).sch with
  jobs := [(6, { live := true, kind := .step, part := 1, tasks := [{ phase := .running }], wants := [{ handle := 0, tokens := 1 }] })]
  spires := [(0, { job := some (6, 0) })] } }

/-- A RAW gather of position 0 into a ring of two tiles, counters 1 and 2. -/
def rawDesc : List W64 := [1 * 2 ^ 8 + 2 * 2 ^ 2, 1, 0, 2 * 2 ^ 48]

/-- That gather of Spire 0. -/
def rawGather : Gather := { sp := 0, desc := rawDesc, wf := .int8, tensor := 0, task := (5, 0, 0) }

/-- A SORT_DESC that ranks one FP32 score of the partition's region into it. -/
def sortDesc : List Nat := [0x100400000, 0x100400040, 0, 0, 0]

theorem witness_tileComplete : TileOk 63 5 0 (on63 { phase := .running }) := by decide
theorem witness_tileRetryDone : let s := on63 { phase := .running } userImg { retry := some ⟨nilTile, 0⟩ }
    let t := (s.elapse 7).settle (63 : Fin 64).val
    RetryOk 63 5 0 ⟨nilTile, 0⟩ s ∧ ({} : TileFaults).storeUe = false ∧ tileMismatch nilTile {} = false ∧
    (t.spire (63 : Fin 64).val).mismatch = false := by decide +kernel
theorem witness_tileRetryDone_fails : RetryOk 63 5 0 ⟨nilTile, 0⟩ (on63 { phase := .running } userImg { retry := some ⟨nilTile, 0⟩ }) ∧
    ({ dup := true } : TileFaults).storeUe = false ∧ tileMismatch nilTile { dup := true } = true ∧
    ({ storeUe := true } : TileFaults).storeUe = true := by decide

/-- Spire 63 runs a task of a partition whose region starts at 4 GiB. -/
def runs63 : State := on63 { phase := .running }

theorem witness_detReduction : ∃ t, ReadsOk 63 ([0x100400000, 0x100400040].map fun a => (a, 4 * 1)) t runs63 :=
  ⟨_, by decide, pair_of (by decide +kernel)⟩
theorem witness_arrivalOrderAdd : ∃ t, runs63.saf.det = false ∧ ReadsOk 63 [(0x100400000, 4)] t runs63 :=
  ⟨_, rfl, by decide, pair_of (by decide +kernel)⟩
theorem witness_arrivalOrderAdd_det : ({ State.reset with saf := { det := true } } : State).saf.det = true := rfl
theorem witness_atomicOp : AtomicOk (.spire 63) .addF32 0x100400000 runs63 ∧ AtomicOk (.engine 1) .maxI32 (hostBase + 4) { State.reset with
    host := { eps := [(1, { linkUp := true })] } } := by decide +kernel
theorem witness_sortRequest : let s := on63 { phase := .running }
    s.running (63 : Fin 64).val = some (5, 0) ∧ (s.task 5 0).waitSince = none ∧
    tget false s.saf.sorterOut ((63 : Fin 64).val / 4) = false := by decide

/-- A sort request of the task on Spire 63. -/
def sort63 : SortReq := { sp := 63, da := 0x100500000, task := (5, 0, 0) }

/-- It waits in its Dome's sorter. -/
def sorting : State :=
  { store 0x100500000 (ws sortDesc) (on63 { phase := .running, spire := 63 }) with sorters := [(15, { queue := [sort63] })] }

theorem witness_sortStart : ∃ t, SortStartOk 15 sort63 [] 63 t sorting :=
  ⟨_, by decide, by decide, by decide, by decide, by decide, by decide, by decide, rfl, by decide +kernel⟩
theorem witness_sortDone : let s : State := { State.reset with sorters := [(15, { cur := some (sort63, []) })] }
    (s.sorter (15 : Fin 16).val).cur = some (sort63, []) ∧ (s.sorter (15 : Fin 16).val).again = false := by decide
theorem witness_sortRepeatDone : let s : State := { State.reset with sorters := [(15, { cur := some (sort63, []), again := true })] }
    (s.sorter (15 : Fin 16).val).cur = some (sort63, []) ∧ (s.sorter (15 : Fin 16).val).again = true := by decide
theorem witness_gatherRequest : let s := stepping []
    s.running (0 : Fin 64).val = some (5, 0) ∧ (s.task 5 0).waitSince = none ∧
    s.gatherOk (s.job 5).part ((0 : Fin 64).val / 4) (gatherFields rawDesc) .int8 = true := by decide +kernel
theorem witness_gatherTileWritten : ∃ t u, GatherTileOk 0 0 rawGather t [0x100100000] u (stepping [rawGather]) :=
  ⟨_, _, by decide +kernel, by decide +kernel, by decide +kernel, by decide +kernel, pair_of (by decide +kernel), pair_of (by decide +kernel)⟩
theorem witness_gatherTileRelease : let g := { rawGather with tile := 1 }
    let s := stepping [g]
    s.running (0 : Fin 64).val = some (5, 0) ∧ (s.task 5 0).waitSince = none ∧
    ((s.gathers ((0 : Fin 64).val / 4)).findIdx? fun g => decide (g.task = (5, 0, (s.task 5 0).run)) && decide (g.rel < g.tile)) = some 0 ∧
    (s.gathers ((0 : Fin 64).val / 4))[0]? = some g := by decide
theorem witness_appendWrite : ∃ t, AppendOk 0 0 0 0 (z 576) 6 0 t 0x40040 steppingIn :=
  ⟨_, by decide, by decide, by decide, by decide, by decide, by decide, by decide, by decide, by decide +kernel, pair_of (by decide +kernel)⟩
theorem witness_appendCounterAdvance : let s : State := { stepping [] with seq := { seqs := [(0, { stepSeq with layers := [(0, [0])] })] } }
    s.inStep (0 : Fin 4096).val = true ∧ (tget [] (s.sq (0 : Fin 4096).val).layers 0).length = (s.sq (0 : Fin 4096).val).nl ∧
    (s.sq (0 : Fin 4096).val).nl ≠ 0 := by decide
theorem witness_pageWalkDone : ∃ t, let s := stepping [rawGather]
    ((s.gathers (0 : Fin 16).val).findIdx? fun g => decide (slotOf (gatherFields g.desc).handle = (0 : Fin 4096).val) && s.liveRun g.task &&
      decide (s.running g.sp = some (g.task.1, g.task.2.1))) = some 0 ∧ (s.gathers (0 : Fin 16).val)[0]? = some rawGather ∧
    s.translate rawGather.sp (0 : Fin 4096).val 0 = (t, .page 0x40040) :=
  ⟨_, by decide +kernel, by decide, pair_of (by decide +kernel)⟩
theorem witness_stepBuild : StepBuildOk 1 0 1 (0, 1, none, 0) [] { withSeq seq0 with sch := {
    parts := [(1, userKv)], jobs := [(5, { live := true, kind := .stepLaunch, part := 1, wants := [{ handle := 0, tokens := 1 }] })] } } := by
  decide +kernel
theorem witness_tlbInvalidationAck : ((withSeq { seq0 with inval := 0x80000 }).sq (0 : Fin 4096).val).inval.getLsbD (19 : Fin 20).val = true := by
  decide
theorem witness_copyOnWriteDone : ((withSeq { seq0 with copies := [(0, 1, 2)] }).sq (0 : Fin 4096).val).copies ≠ [] ∧
    ((withSeq { seq0 with copies := [(0, 1, 2)] }).sq (0 : Fin 4096).val).st = sqOpen := by decide
theorem witness_swapOutCopyDone : ((withSeq { seq0 with st := 3, copies := [(0, 1, 2)] }).sq (0 : Fin 4096).val).copies ≠ [] ∧
    ((withSeq { seq0 with st := 3, copies := [(0, 1, 2)] }).sq (0 : Fin 4096).val).st = sqSwapOut := by decide
theorem witness_swapInCopyDone : ((withSeq { seq0 with st := 5, copies := [(0, 1, 2)] }).sq (0 : Fin 4096).val).copies ≠ [] ∧
    ((withSeq { seq0 with st := 5, copies := [(0, 1, 2)] }).sq (0 : Fin 4096).val).st = sqSwapIn := by decide
theorem witness_stepComplete : let s := withJob { live := true, kind := .step, cause := some causeOk }
    (s.job 5).live = true ∧ (s.job 5).kind = .step ∧ (s.job 5).cause = some causeOk := by decide

/-! ### The Planning Engines -/

/-- Engine 1 runs this search. -/
def search (c : Search) (s : State := State.reset) : State := { s with plan := { eng := [(1, { cur := some c })] } }

theorem witness_planSearchStart : let s : State := { State.reset with plan := { eng := [(1, { queue := [{ id := 3 }, {}] })] } }
    SearchStartOk 1 { id := 3 } [{}] s := by decide
theorem witness_proposerBatchSend : let r : PlanReq := { desc := [0, 0, 0x100000000] }
    BatchOk 1 0 { req := r, heap := [], batch := [0], expansions := 1, nodes := [{}] } .batch
      (search { req := r, heap := [(0, 0)], nodes := [{}] }) ∧
    ({ req := r, heap := [], batch := [0], expansions := 1, nodes := [{}] } : Search).batch ≠ [] := ⟨⟨_, rfl, rfl, rfl, rfl⟩, by decide⟩
theorem witness_proposerBatchSend_goal : BatchOk 1 0 { heap := [], goal := 0, nodes := [{ goal := true }] } (.goal 0)
    (search { heap := [(0, 0)], nodes := [{ goal := true }] }) := ⟨_, rfl, rfl, rfl, rfl⟩
theorem witness_proposerBatchSend_stop : BatchOk 1 0 { peFault := true } (.stop 4) (search { peFault := true }) := ⟨_, rfl, rfl, rfl, rfl⟩
theorem witness_proposerComplete : let s := search { out := [⟨0, 5, [0], 5⟩] } (withJob { live := true, kind := .proposer, cause := some causeOk })
    ProposerOk 1 { out := [⟨0, 5, [0], 5⟩] } ⟨0, 5, [0], 5⟩ s ∧ (s.job 5).proposerBad = false := by decide
theorem witness_proposerComplete_bad :
    let s := search { out := [⟨0, 5, [0], 5⟩] } (withJob { live := true, kind := .proposer, cause := some causeFault })
    ProposerOk 1 { out := [⟨0, 5, [0], 5⟩] } ⟨0, 5, [0], 5⟩ s ∧ (s.job 5).proposerBad = true ∧
    ({ out := [] } : Search).idle = true := by decide

/-- A request in FREE mode. -/
def freeReq : PlanReq := { desc := [0, 0, 2 ^ 19] }

theorem witness_candidateCheckDone : CheckOk 1 { kids := [(0, [])] } (search { kids := [(0, [])] }) ∧ ({} : PlanReq).isFree = false := by
  decide
theorem witness_candidateCheckDone_free : CheckOk 1 { req := freeReq, kids := [(0, []), (0, [])] }
    (search { req := freeReq, kids := [(0, []), (0, [])] }) ∧ freeReq.isFree = true := by decide
theorem witness_planDeadline : DeadlineOk 1 { req := { desc := [0, 7] } } (search { req := { desc := [0, 7] } }) := by decide
theorem witness_pathRecheckDone : ∃ ps, RecheckOk 1 { phase := .recheckPlain, nodes := [{}] } ps
    (search { phase := .recheckPlain, nodes := [{}] }) := ⟨_, rfl, rfl, rfl, by decide⟩
theorem witness_pathRecheckDone_smooth : ∃ ps, SmoothOk 1 { phase := .recheckSmooth, nodes := [{}] } ps
    (search { phase := .recheckSmooth, nodes := [{}] }) := ⟨_, rfl, rfl, rfl, by decide⟩
theorem witness_publishRound : let s := search { phase := .round }
    (s.eng (1 : Fin 2).val).cur = some { phase := .round } ∧ ({ phase := .round } : Search).phase = .round ∧
    (s.eng (1 : Fin 2).val).world.epoch = ({ phase := .round } : Search).v := by decide
theorem witness_publishRound_check : let c : Search := { phase := .round }
    let s : State := { State.reset with plan := { eng := [(1, { cur := some c, world := { epoch := 1, cover := 1 } })] } }
    RoundOk 1 c (c.pubCheck (s.eng (1 : Fin 2).val).world) s ∧ (c.pubCheck (s.eng (1 : Fin 2).val).world).ran = true := by decide
theorem witness_publishLocked : let c : Search := { phase := .locked }
    LockedOk 1 c (c.pubCheck ((search c).eng (1 : Fin 2).val).world) (search c) := by decide
theorem witness_publishLocked_fallback : FallbackOk 1 { phase := .locked, fallback := true, mustFull := true }
    (search { phase := .locked, fallback := true, mustFull := true }) := by decide
theorem witness_resultPublished : ResultOk 1 { phase := .written } (search { phase := .written }) := by decide
theorem witness_worldUpdateApply : let s : State := { State.reset with plan := { eng := [(1, { updates := [[.clearAll]] })] } }
    (s.eng (1 : Fin 2).val).updates = [.clearAll] :: [] ∧ s.engOut (1 : Fin 2).val = false ∧
    (∀ c, (s.eng (1 : Fin 2).val).cur = some c → c.phase ≠ .locked) := ⟨by decide, by decide, fun _ h => nomatch h⟩

/-! ### Memory -/

theorem witness_memoryRead : AccessOk (.cupola 0) 0x1000FFFC0 64 false State.reset ∧
    (readOf (.cupola 0) 0x1000FFFC0 64 [] State.reset).anyBad (reqDa (.cupola 0) 0x1000FFFC0) 64 = false :=
  ⟨⟨by decide, by decide, by decide, by decide, fun _ h => nomatch h⟩, by decide +kernel⟩
theorem witness_memoryRead_engine : AccessOk (.engine 1) hostBase 1 false hostUp :=
  ⟨by decide, by decide, by decide, by decide, fun _ _ => by decide⟩
theorem witness_memoryRead_poisoned : let s : State := { hostUp with mem := { bad := [(hostBase / 8, true)] } }
    AccessOk (.lantern 1) hostBase 1 false s ∧ (readOf (.lantern 1) hostBase 1 [] s).anyBad (reqDa (.lantern 1) hostBase) 1 = true :=
  ⟨⟨by decide, by decide, by decide, by decide, fun _ h => nomatch h⟩, by decide +kernel⟩
theorem witness_memoryRead_transfer : TransferOk (.cupola 0) 0x1000FFFC0 64 false [.single, .bad] State.reset ∧ EccCond.ctrl ∈ [EccCond.ctrl] :=
  ⟨⟨⟨by decide, by decide, by decide, by decide, fun _ h => nomatch h⟩, by decide⟩, by decide⟩
theorem witness_noAccess : State.reset.acts (.spire 63) = false := by decide
theorem witness_memoryRead_refused : State.reset.acts (.cupola 1) = true ∧ State.reset.kindRange (2 * hostBase - 1) 2 ≠ some .unit ∧
    State.reset.allowed (.cupola 1) (2 * hostBase - 1) 2 false = false ∧ ∀ e, Requester.cupola 1 = .engine e → 2 * hostBase - 1 < ownBase :=
  ⟨by decide, by decide, by decide, fun _ h => nomatch h⟩
theorem witness_memoryWrite : AccessOk (.cupola 0) hostBase (z 64).length true hostUp ∧
    (hostUp.store (hostUp.origin (.cupola 0)) (reqDa (.cupola 0) hostBase) (z 64) []).blocked (reqDa (.cupola 0) hostBase) (z 64).length = none :=
  ⟨⟨by decide, by decide, by decide, by decide, fun _ h => nomatch h⟩, by decide +kernel⟩
theorem witness_memoryWrite_bad : let s : State := { hostUp with mem := { bad := [(hostBase / 8, true)] } }
    AccessOk (.engine 1) (hostBase + 1) (z 1).length true s ∧ ((s.store (s.origin (.engine 1)) (reqDa (.engine 1) (hostBase + 1)) (z 1) []).blocked
      (reqDa (.engine 1) (hostBase + 1)) (z 1).length).isSome = true :=
  ⟨⟨by decide, by decide, by decide, by decide, fun _ _ => by decide⟩, by decide +kernel⟩
theorem witness_writeThenRead : Memory.wf hostUp.mem.bytes ∧ WholeOk (.engine 1) hostBase (z 8) hostUp :=
  ⟨by decide, ⟨by decide, by decide, by decide, by decide, fun _ _ => by decide⟩, by decide, by decide, by decide⟩
theorem witness_memoryWrite_refused : State.reset.acts (.lantern 0) = true ∧ State.reset.kindRange (2 * hostBase) (z 8).length ≠ some .unit ∧
    State.reset.allowed (.lantern 0) (2 * hostBase) (z 8).length true = false := by decide

/-- One row of 4 bytes within the partition's region. -/
def dmaWs : List W64 := [0x100400000, 0x100400040, 0, 3 * 2 ^ 28]

theorem witness_dmaDescriptor : DescOk 15 63 5 0 runs63 := by decide
theorem witness_dmaDescriptor_ok : runs63.dmaOk dmaWs (dmaFields dmaWs) (runs63.job 5).part (63 : Fin 64).val = true := by
  decide +kernel
theorem witness_dmaDescriptor_bad : runs63.dmaOk [] (dmaFields []) (runs63.job 5).part (63 : Fin 64).val = false := by decide +kernel
theorem witness_dmaComplete : ∃ t, DmaOk 15 3 { ws := dmaWs, sp := 63, part := 1, task := some (5, 0, 0) } t
    { runs63 with mem := { dma := [(63, { running := some { ws := dmaWs, sp := 63, part := 1, task := some (5, 0, 0) } })] } } :=
  ⟨_, by decide, ⟨_, rfl, by decide⟩, pair_of (by decide +kernel)⟩

/-- Channel 63 with these queues and state, its Tower out of reset. -/
def withChan (c : Chan) : State := { State.reset with saf := { identOk := true }, mem := { chans := [(63, c)] } }

/-- A read of line 0 by the system partition. -/
def req0 : DramReq := {}

theorem witness_dramRequestIssue : IssueOk 63 (some req0) (withChan { rq := [req0], rows := [(0, 1)], debt := 127, credit := [(0, 256)] }) ∧
    req0.write = false ∧ ({ req0 with write := true }).write = true ∧
    IssueOk 63 (some { req0 with write := true }) (withChan { wq := [{ req0 with write := true }], debt := 127 }) := by decide
theorem witness_dramRequestIssue_none : IssueOk 63 none (withChan { debt := 127 }) := by decide
theorem witness_refreshInterval : (withChan {}).chanUp (63 : Fin 64).val = true := by decide
theorem witness_forcedRefab : (withChan { debt := 128 }).chanUp (63 : Fin 64).val = true ∧ 128 ≤ ((withChan { debt := 128 }).chan (63 : Fin 64).val).debt := by decide
theorem witness_linkEccCountRead : 1 ≠ 0 ∧ (withChan {}).chanUp (63 : Fin 64).val = true := by decide
theorem witness_dramPatrolScrub : let s := withChan {}
    let a := (s.chan (63 : Fin 64).val).scrub * 64
    let u := (s.modChan (63 : Fin 64).val Chan.nextScrub).lineAccess (63 : Fin 64).val a (scrubOrigin (srcChan (63 : Fin 64).val))
    s.chanUp (63 : Fin 64).val = true ∧ ((s.modChan (63 : Fin 64).val Chan.nextScrub).chanDa (63 : Fin 64).val a).any (fun da => !u.isBad da) = true := by
  decide +kernel
theorem witness_sramScrub : 1295 < 1296 := by decide
theorem witness_bankPowerUp : tget false ({ State.reset with mem := { bankOff := [(15, true)] } } : State).mem.bankOff (15 : Fin 16).val = true := by
  decide

/-! ### Time, safety, redundancy -/

/-- SYNC_IN is claimed with a PERIOD of 1 ms. -/
def syncIn (c : Clock) : State := { State.reset with clk := { c with periodMs := 1 }, claims := [{ res := 1, inst := 0, mbx := 1, part := 1 }] }

theorem witness_syncInEdge : (syncIn {}).claimed 1 = true ∧ (syncIn {}).clk.periodMs ≠ 0 := by decide
theorem witness_syncInEdge_unclaimed : State.reset.claimed 1 = false := by decide
theorem witness_syncMissed : SyncOk 0 (syncIn { lastEdge := some 0 }) := by decide
theorem witness_twinTimeExchange : (paired 1).tw.st = 1 ∧ (paired 1).clk.align = false ∧
    (paired 1 { State.reset with clk := { align := true } }).tw.st = 1 ∧ (paired 1 { State.reset with clk := { align := true } }).clk.align = true := by
  decide
theorem witness_twinValidLoss : 10 ≤ ({ State.reset with clk := { missExch := 10 } } : State).clk.missExch := by decide
theorem witness_clockMonitorWindow_spire : ClockOffOk 63 4899 State.reset ∧ ¬ ClockOffOk 63 4900 State.reset := by decide
theorem witness_clockMonitorWindow_dome : 10000 < ((2 * 4899 : Nat) - (10000 : Int)).natAbs * 50 ∧
    ((2 * 4900 : Nat) - (State.reset.setCount (.dome 15) : Int)).natAbs * 50 ≤ State.reset.setCount (.dome 15) := by decide
theorem witness_clockMonitorWindow_tower : 14000 < ((2 * 6859 : Nat) - (14000 : Int)).natAbs * 50 ∧
    ((2 * 6860 : Nat) - (14000 : Int)).natAbs * 50 ≤ 14000 := by decide
theorem witness_lanternIn : LanternIn 0 State.reset ∧ LanternIn 1 State.reset := by decide
theorem witness_hbLost : let s : State := { State.reset with saf := { lanterns := [(1, { miss := [(3, 3)] })] } }
    LanternIn 1 s ∧ 3 ≤ tget 0 (s.lantern (1 : Fin 2).val).miss (3 : Fin 4).val := by decide
theorem witness_hbLost_cupola : let s : State := { State.reset with saf := { lanterns := [(1, { miss := [(5, 3)] })] } }
    LanternIn 1 s ∧ 3 ≤ tget 0 (s.lantern (1 : Fin 2).val).miss (4 + (1 : Fin 2).val) ∧ tget false s.saf.cupolaOut (1 : Fin 2).val = false ∧
    (s.saf.takeover = true → (1 : Fin 2).val ≠ s.saf.active) := by decide
theorem witness_peerSilent : let s : State := { State.reset with saf := { lanterns := [(1, { cwMiss := 3 })] } }
    LanternIn 1 s ∧ (s.lantern (1 : Fin 2).val).peerLost = false ∧ 3 ≤ (s.lantern (1 : Fin 2).val).cwMiss := by decide
theorem witness_lanternDecision_partition : LanternIn 1 (withPart user) ∧ ((withPart user).part (1 : Fin 16).val).live = true := by decide
theorem witness_lanternDecision_tower : LanternIn 1 State.reset ∧ tget false State.reset.saf.towerQ (3 : Fin 4).val = false := by decide
theorem witness_lantHbToggle : (({ State.reset with saf := { lanterns := [(1, { toggling := true })] } } : State).lantern (1 : Fin 2).val).toggling =
    true := by decide
theorem witness_lockstepMismatch_addrGen : (State.reset.spire (63 : Fin 64).val).quarantined = false := by decide
theorem witness_lockstepMismatch_domeSched : tget false State.reset.saf.domeOut (15 : Fin 16).val = false := by decide
theorem witness_lockstepMismatch_other : srcUsed 0x80 = true ∧ State.reset.silentUnit 0x80 = false ∧ 64 ≤ 0x80 := by decide
theorem witness_cupolaTakeover : let s : State := { State.reset with saf := { takeover := true, bbActive := 1 } }
    TakeoverOk s ∧ s.saf.bbActive ≠ s.saf.active := by decide
theorem witness_cupolaTakeover_builder : let s : State := { State.reset with saf := { takeover := true } }
    TakeoverOk s ∧ s.saf.bbActive = s.saf.active ∧ tget false s.saf.bbOut (1 - s.saf.active) = false := by decide
theorem witness_cupolaTakeover_none : let s : State := { State.reset with saf := { takeover := true, cupolaOut := [(1, true)] } }
    s.saf.takeover = true ∧ tget false s.saf.cupolaOut (1 - s.saf.active) = true := by decide
theorem witness_dualSignature : let s := withJob { live := true, dual := 2 }
    (s.job 5).live = true ∧ ((s.job 5).dual = 1 ∨ (s.job 5).dual = 2) ∧ (s.job 5).compared = false := by decide
theorem witness_dualArbitration : let s := withPart { user with dual := { arb := true } }
    (s.part (1 : Fin 16).val).live = true ∧ (s.part (1 : Fin 16).val).dual.arb = true := by decide
theorem witness_selftestSlot : let s : State := { State.reset with saf := { test := { slot := 198 } } }
    s.saf.test.enabled = true ∧ s.saf.test.slot < 199 := by decide
theorem witness_configAudit : LanternIn 1 State.reset ∧ tget 0 State.reset.saf.audit (1 : Fin 2).val + 1 < (sourcesFrom 0).length := by decide +kernel
theorem witness_laneFailure : (1 : Fin 4).val < edgeModules (.io 1 1) ∧ (State.reset.lostMask (.io 1 1)).testBit (1 : Fin 4).val = false ∧
    (3 : Fin 4).val < edgeModules (.cw 3) ∧ (State.reset.lostMask (.cw 3)).testBit (3 : Fin 4).val = false := by decide
theorem witness_testWindow : let s : State := { State.reset with saf := { test := { slot := 96 } } }
    TestUnit.engine 0 ∉ s.saf.test.windows ∧ s.windowDue (.engine 0) = true := by decide +kernel
theorem witness_testWindow_closes : TestUnit.engine 1 ∈ ({ State.reset with saf := { test := { windows := [.engine 1] } } } : State).saf.test.windows := by
  decide

/-! ### Cameras, displays, the East I3C role -/

/-- The binding of that STREAM_BIND payload. -/
def bind0 (flags : Nat) : Binding := { pl := bindPl flags, mbx := 1, part := 1 }

/-- Slot 255 is this. -/
def slot255 (x : Stream) (s : State := withPart userImg) : State := { s with cam := { s.cam with streams := [(255, x)] } }

theorem witness_csiFrameStart : let s := slot255 { bind := some (bind0 0) }
    BoundOk 15 15 (bind0 0) s ∧ (s.stream (slotOfVc 15 15)).unbind = false ∧ (s.stream (slotOfVc 15 15)).next = none ∧
    (s.stream (slotOfVc 15 15)).frame = none := by decide +kernel
theorem witness_csiFrameStart_unbind : let s := slot255 { bind := some (bind0 0), unbind := true }
    tget false s.saf.portOut (15 : Fin 16).val = false ∧ (s.stream (slotOfVc 15 15)).unbind = true := by decide +kernel
theorem witness_csiPacket_bad : let p : CsiPkt := { dt := 0x2C, crcOk := false }
    FrameOk 15 15 (bind0 0) {} (slot255 { bind := some (bind0 0), frame := some {} }) ∧
    (p.header = .bad ∨ (p.header = .clean ∧ p.dt ≠ 2 ∧ p.dt ≠ 3 ∧ p.crcOk = false)) := by decide +kernel
theorem witness_csiPacket_image : let p : CsiPkt := { dt := 0x2C, data := [1, 2, 3] }
    FrameOk 15 15 (bind0 0) {} (slot255 { bind := some (bind0 0), frame := some {} }) ∧ GoodPkt p ∧ p.dt = (bind0 0).f 3 1 ∧ p.dt ≠ 0x12 := by
  decide +kernel
theorem witness_csiPacket_other : let p : CsiPkt := { dt := 0x2A }
    FrameOk 15 15 (bind0 0) {} (slot255 { bind := some (bind0 0), frame := some {} }) ∧ GoodPkt p ∧ p.dt ≠ (bind0 0).f 3 1 ∧ p.dt ≠ 0x12 := by
  decide +kernel
theorem witness_csiFrameEnd : FrameReleaseOk 15 15 (bind0 0) { buf := some 1, lines := 1 } 1
    (slot255 { bind := some (bind0 0), frame := some { buf := some 1, lines := 1 } }) := by decide +kernel
theorem witness_streamSilent : SilentOk 15 15 (bind0 0) (slot255 { bind := some (bind0 0) }) := by decide +kernel
theorem witness_responseVerified : let s := slot255 { bind := some (bind0 2), verify := some (z 372, 9) }
    (s.stream (slotOfVc 15 15)).bind = some (bind0 2) ∧ (s.stream (slotOfVc 15 15)).verify = some (z 372, 9) := ⟨rfl, rfl⟩
theorem witness_reauthChallenge : ReauthOk 15 15 (bind0 2) 7 (slot255 { bind := some (bind0 2), trust := 2, reauthAt := some 7 }) := by
  decide +kernel
theorem witness_challengeNonceReceive : (slot255 {} (paired 1)).tw.st = 1 := rfl

/-- Transmit port 3 is this. -/
def port3 (x : Display) (s : State := withPart userImg) : State := { s with cam := { s.cam with ports := [(3, x)] } }

/-- The binding of that DISPLAY_BIND payload. -/
def disp0 : Binding := { pl := dispPl, mbx := 1, part := 1 }

/-- One whose layer 0 is enabled. -/
def disp1 : Binding := { disp0 with pl := dispPl.set 0x3C 1 }

theorem witness_displayFrameStart_first : let s := port3 { next := some disp0 }
    tget false s.cam.portOff (3 : Fin 4).val = false ∧ (s.display (3 : Fin 4).val).bind = none ∧
    (s.display (3 : Fin 4).val).next = some disp0 := by decide +kernel
theorem witness_displayFrameStart : DisplayOk 3 disp0 (port3 { bind := some disp0 }) := by decide +kernel
theorem witness_displayLineSend : LineOk 3 disp1 (port3 { bind := some disp1, frames := 1 }) := by decide +kernel
theorem witness_layerDisabled : LayerOk 3 0 disp1 (port3 { bind := some disp1 }) := by decide +kernel
theorem witness_loopbackTestDone : (({ State.reset with claims := [{ res := 3, inst := 0, mbx := 1, part := 1 }] } : State).claimOf 3 0).isSome =
    true := by decide
theorem witness_i3cHandoffAccepted : let c : Claim := { res := 5, inst := 0, mbx := 1, part := 1, value := 3 }
    let s := mb1 { wait := some .i3cHandoff } { State.reset with cam := { role := 1, roleClaim := some c } }
    s.cam.role = 1 ∧ s.cam.roleClaim = some c ∧ s.waits .i3cHandoff = true := by decide
theorem witness_camSbBulkExpiry : let c : Claim := { res := 5, inst := 0, mbx := 1, part := 1, until_ := some 7 }
    ({ State.reset with claims := [c] } : State).claimOf 5 0 = some c := by decide
theorem witness_i3cRoleReturn : ({ State.reset with cam := { role := 3 } } : State).cam.role = 3 := rfl

/-! ### Resets and boot -/

/-- The strap words and received words of a consistent package. -/
def straps : List Nat := [0, 1, 2, 3, 0, 4] ++ [1, 3, 0, 2, 0, 4, 3, 1, 4, 0, 2, 0] ++ [0, 3, 1, 2]

theorem witness_powerOn : ({ State.reset with bs := { powered := false } } : State).bs.powered = false := rfl
theorem witness_resetInNPulse : 10000 ≤ 10000 ∧ 999 < 1000 := by decide
theorem witness_delayedWarmReset : ({ State.reset with bs := { delayed := some (2, 7), lcTo := some 3 } } : State).bs.delayed = some (2, 7) ∧
    ({ State.reset with bs := { delayed := some (2, 7) } } : State).bs.lcTo = none := ⟨rfl, rfl⟩

/-- Both Lanterns hear each other. -/
def hears : LanternsHear := ⟨true, true⟩

theorem witness_pkgIdentCheck : IdentDue State.reset ∧ LanternsGood State.reset ∧
    State.reset.identFound State.reset.saf.prevStraps straps hears = [] ∧ State.reset.otp.lc ≠ 5 ∧
    ({ State.reset with otp := { State.reset.otp with lc := 5 } } : State).otp.lc = 5 := by decide
theorem witness_pkgIdentCheck_fails : IdentDue State.reset ∧
    State.reset.identFound State.reset.saf.prevStraps (straps.set 3 2) hears = [(0, 3, 3), (1, 3, 3)] ∧
    State.reset.identFound State.reset.saf.prevStraps straps ⟨true, false⟩ = [(1, 7, 5)] := by decide
theorem witness_towerResetDone : let s := mb1 { wait := some (.towerReset 3) } { State.reset with saf := { prevStraps := straps.take 6 } }
    s.waits (.towerReset (3 : Fin 4).val) = true ∧ s.pkgIdent 0 = false ∧ s.pkgIdent 1 = false ∧
    s.identFound s.saf.prevStraps (towerStraps 3 straps s ++ straps.drop 6) hears = [] ∧
    s.identFound s.saf.prevStraps (towerStraps 3 (straps.set 3 2) s ++ straps.drop 6) hears ≠ [] := by decide +kernel
theorem witness_dramWipeDone : ({ State.reset with saf := { identOk := true } } : State).saf.identOk = true := rfl
theorem witness_bootGo : let s : State := { State.reset with bs := { stage := stWaitImage, lenB := 65536, prefer := true } }
    s.bootOpen = true ∧ s.slotLen s.firstSlot ≠ 0 := by decide
theorem witness_imageFetchDone : ({ State.reset with bs := { stage := stFetch } } : State).bs.stage = stFetch := rfl
theorem witness_noImage : let s : State := { State.reset with bs := { stage := stWaitImage } }
    s.bs.stage = stWaitImage ∧ s.bs.goEp = none := by decide
theorem witness_recoveryVerifyDone : let s : State := { State.reset with bs := { rcvBy := some 1, rcvState := 3 } }
    s.bs.rcvBy = some 1 ∧ s.bs.rcvState = 3 := by decide
theorem witness_lanternSectionCheck : SectionOk 1 {} { State.reset with bs := { fw := some {}, stage := stLoad, lantFw := [(1, some [])] } } := by
  decide
theorem witness_unitInitDone : ({ State.reset with bs := { stage := stUnitInit } } : State).bs.stage = stUnitInit ∧
    [0xFFFF].filter srcUsed = [] ∧ [63].filter srcUsed ≠ [] := by decide
theorem witness_lmpReady : let s : State := { State.reset with bs := { fw := some {}, stage := stConfig, wiped := true } }
    s.bs.fw = some {} ∧ s.bs.stage = stConfig ∧ s.bs.wiped = true := by decide

/-! ### Power and heat -/

/-- A packet of the coolant hub: SEQ 7, nothing valid. -/
def hubPkt : List Byte := let b := [1, 7] ++ z 13; b ++ by_ 1 (crc8 7 0 b)

theorem witness_sensors_two : kept (some (-200)) = some (-200) ∧ kept (some 600) = some 600 := by decide
theorem witness_sensorRead : (govern (35 : Fin 36).val (some 500) (some 524)).2.2 = false := by decide
theorem witness_sensorFaultPersist : ConditionOk 35 { State.reset with heat := { spots := [(35, { cond := true })] } } := by decide
theorem witness_thermalCeilingUpdate :
    let u := State.reset.elapse ((State.reset.tower (3 : Fin 4).val).at_ - State.reset.clk.elapsed)
    let n := (u.tower (3 : Fin 4).val).next (u.hottest (towerSpots (3 : Fin 4).val)) (u.hottest (baseSpots (3 : Fin 4).val)) u.clk.elapsed
    State.reset.heat.towersOff = false ∧ n.1.ceil < n.1.told + 2 ∧ n.1.told < n.1.ceil + 2 := by decide +kernel
theorem witness_thermalCeilingUpdate_reports : let s : State := { State.reset with heat := { towers := [(3, { told := 2 })] } }
    let u := s.elapse ((s.tower (3 : Fin 4).val).at_ - s.clk.elapsed)
    let n := (u.tower (3 : Fin 4).val).next (u.hottest (towerSpots (3 : Fin 4).val)) (u.hottest (baseSpots (3 : Fin 4).val)) u.clk.elapsed
    s.heat.towersOff = false ∧ (n.1.ceil + 2 ≤ n.1.told ∨ n.1.told + 2 ≤ n.1.ceil) := by decide +kernel
theorem witness_baseDieOverheat : (({ State.reset with heat := { towers := [(3, { hotSince := some 7 })] } } : State).tower (3 : Fin 4).val).hotSince =
    some 7 := by decide
theorem witness_thermalTrip : (3 : Fin 8).val < 4 := by decide
theorem witness_avsVoltageConfirmed (t n : Nat) : vReq t n + 5 ≤ vReq t n + 5 ∧ vReq t n ≤ vReq t n + 5 + 5 := by omega
theorem witness_hubSampleRead : ∃ t c, SampleOk hubPkt t c State.reset :=
  ⟨_, _, rfl, by decide +kernel, rfl, by decide +kernel, by decide +kernel⟩
theorem witness_heatBalanceWindow : let s : State := { State.reset with heat := { cool := { winN := 37, winSum := 768000 } } }
    let den : Int := (384 * s.heat.cool.winN : Nat)
    WindowOk s ∧ 4 * ((s.heat.cool.winSum * 370 - ((0 : Nat) : Int) * den).natAbs : Int) ≤ ((0 : Nat) : Int) * den + 80000 * den := by
  decide +kernel
theorem witness_towersOff : let s : State := { State.reset with heat := { cool := { survival := some (7, 1) } } }
    SurvivalOk 7 1 s ∧ s.heat.cool.flows = [] := by decide
theorem witness_powerDomainSwitch : tget false State.reset.heat.domainOff (domainKey (.planEngine 1)) = false ∧
    State.reset.mayOff (.planEngine 1) = true ∧ tget false State.reset.heat.domainOff (domainKey (.spireLogic 63)) = false ∧
    State.reset.mayOff (.spireLogic 63) = true := by decide +kernel
theorem witness_powerDomainSwitch_on : let s : State := { State.reset with heat := { domainOff := [(175, true)] } }
    tget false s.heat.domainOff (domainKey (.csiPhy 1)) = true ∧ s.heat.towersOff = false := by decide

/-! ### The machine as a whole -/

theorem reset_canonical : Canonical State.reset := ⟨by decide, by decide, by decide, by decide, by decide⟩
theorem witness_stepTakesFront : ({ State.reset with pending := [.syncMissed, .holdover] } : State).pending = .syncMissed :: [.holdover] := rfl
theorem witness_idleStep : State.reset.pending = [] := rfl
theorem witness_queueKept : ∃ t, exec .syncMissed { State.reset with pending := [.holdover] } = .next t := ⟨_, rfl⟩
theorem witness_step : ∃ t, Canonical State.reset ∧ step State.reset = .next t := ⟨_, reset_canonical, rfl⟩
theorem witness_mailboxWindowsClosed : State.reset.bs.lmpReady = false ∧ 0xFFF < 0x1000 := by decide

/-- A full queue of 64 entries. -/
def fullQ : SpillQ :=
  { enable := true, size := 64, head := List.replicate 16 (0, false), mid := List.replicate 64 0, tail := List.replicate 16 0, stalled := [5] }

theorem witness_fullQueues : Full (.plan 1) (withQ 18 fullQ) ∧ tabWf ({} : SpillQ) (withQ 18 fullQ).queues = true := by decide +kernel
theorem witness_fullQueues_evq : Full .evq (withQ 0 { fullQ with drop := true }) := by decide +kernel
theorem witness_fullQueues_popped : let s := withQ 18 { fullQ with head := List.replicate 15 (0, false) }
    (s.q (QueueId.plan 1).key).stalled = 5 :: [] ∧ (s.q (QueueId.plan 1).key).enable = true ∧
    (s.q (QueueId.plan 1).key).linkLost = false ∧ (s.q (QueueId.plan 1).key).count < (s.q (QueueId.plan 1).key).size + 32 := by decide +kernel
theorem witness_handlesAndPages : 4095 < 4096 ∧ ((withSeq { seq0 with gen := 255 }).sq 0).gen < 256 ∧ 0x3BFFFF < 0x3C0000 ∧
    0x400000 ≤ 0xFFFFFF ∧ 0xFFFFFF < 0x1000000 := by decide
theorem witness_ballMap : (OnGrid 10 19 ∧ InSignals 10 19) ∧ (OnGrid 73 73 ∧ ¬ InSignals 73 73 ∧ (73 + 73) % 2 = 0) ∧
    (OnGrid 6 67 ∧ ¬ InSignals 6 67 ∧ (6 + 67) % 2 = 1 ∧ InBands 6 67 ∧ 6 = min (min 6 67) (min (74 - 6) (74 - 67))) ∧
    (OnGrid 63 38 ∧ (63 + 38) % 2 = 1 ∧ InCores 63 38) ∧
    (OnGrid 37 44 ∧ ¬ InSignals 37 44 ∧ ¬ InBands 37 44 ∧ ¬ InCores 37 44 ∧ (37 + 44) % 2 = 1) := by omega

/-! ### The manual's worked examples -/

/-- 02, "order inside a block": the block value is exactly 2⁻¹⁸. -/
theorem test_blockOrder : (([(0x7E, 0x7E), (0x7E, 0xFE), (1, 1)].foldl (fun x (p : Nat × Nat) =>
    x.step .e4m3 .e4m3 (decodeFmt .e4m3 p.1) (decodeFmt .e4m3 p.2)) ({} : BlockSum)).value .e4m3 .e4m3 127 127).code = 0x36800000 := by
  decide +kernel

/-- 02, "an MXFP4 output block": 10.0, −2.6, 0.2, 0.6 and 28 zeros. -/
theorem test_mxfp4 : let vs : List FV := ([0x41200000#32, 0xC0266666#32, 0x3E4CCCCD#32, 0x3F19999A#32] ++ List.replicate 28 0#32).map ofF32
    let r := mxBlock .mxFp4 false (fun _ => none) vs
    r.1 = 0x80 ∧ r.2.1.take 4 = [0x6, 0xB, 0x0, 0x1] ∧ r.2.2.1 = 0 ∧ (packRow .mxFp4 r.2.1).take 2 = [0xB6, 0x10] := by decide +kernel

/-- 03, "ties and eligibility": four of six scores, in rank order. -/
theorem test_topk : let d := sortFields [0x1000, 0x2000, 0, 0x3F000000 * 2 ^ 32 + 4, 3 * 2 ^ 20 + 5]
    (store 0x1000 ([0x3F666666, 0x7FC00000, 0x3F333333, 0x80000000, 0x3F333333, 0x3F666666].flatMap (by_ 4)) State.reset).sortResult d 0 =
      ([(0, 0x3F666666#32), (5, 0x3F666666#32), (2, 0x3F333333#32), (4, 0x3F333333#32)], 0) := by decide +kernel

/-- 01, "an unequal Tower-local layout": 4, 2, 2 and 0 GiB local. -/
theorem test_layout : let m : MemSys := { local_ := [(0, 4), (1, 2), (2, 2)] }
    m.lmax = 4 ∧ m.g = 44 ∧ m.localStart 1 * gib = 0xC00000000 ∧ m.localStart 2 * gib = 0xC80000000 ∧ m.dramEnd = 0xD00000000 := by decide

/-- 07, "one address to one cell". -/
theorem test_cell : globalMap 0x12345678 = (32, 0x48D178) ∧ rowOf 0x48D178 = 145 ∧ bankOf 0x48D178 = 11 ∧ lineOf 0x48D178 = 5 ∧
    checkOf 0x48D178 = (30729, 148) ∧ (globalMap 0x12345700).1 = 33 := by decide +kernel

/-- 08, "three partials of a bias gradient". -/
theorem test_reduction : detReduce [0x4B800000, 0x3F800000, 0x3F800000] = 0x4B800000#32 ∧
    fadd (fadd (fadd 0 0x3F800000#32) 0x3F800000#32) 0x4B800000#32 = 0x4B800001#32 := by decide +kernel

/-- 06, "two clients on one Dome": charges, and what a task of half its WCET returns. -/
theorem test_virtualTime : vtCharge 96 3 = 2097152 ∧ vtCharge 96 1 = 6291456 ∧ vtCorrect 6291456 48 96 1 = 6291456 - 3145728 := by decide

/-- 14, "an activated slot that no longer matches": BOOT_STATUS at the end. -/
theorem test_bootStatus : ({ State.reset with bs := { timeUs := 104000, err := 0x400A, cause := 3, lmpReady := true, stage := 0x0A } } :
    State).bootStatus = 0x00019640400A390A := by decide

/-- 15, "a hose comes off": the third sample decides, the second does not. -/
theorem test_hose : let s (l : List (Nat × Option Nat)) : State := { State.reset with heat := { cool := { flows := l, flowAt := 20000000 } } }
    (s [(20000000, some 120), (10000000, some 310), (0, some 1980)]).flowLost.isSome = true ∧ (s [(10000000, some 310), (0, some 1980)]).flowLost = none := by
  decide

/-- 16, "finding balls". -/
theorem test_balls : ballFunction 66 25 = .signal (.csiRx 11 3 true) ∧ ballFunction 65 41 = .signal (.xtal 1 false) ∧
    ballFunction 2 1 = .rail .vdd2h ∧ ballFunction 39 12 = .rail .base ∧ ballFunction 45 12 = .rail (.spire 1) := by decide

/-- The check values the catalogues of the named codes give for "123456789". -/
theorem test_crc : crc8 7 0 (ascii "123456789") = 0xF4 ∧ crc32 (ascii "123456789") = 0xCBF43926 ∧
    crc64 (ascii "123456789") = 0x6C40DF5F0B497347 := by decide +kernel

/-- SHAKE256 of nothing (FIPS 202). -/
theorem test_shake256 : (shake256 [] 8) = [0x46, 0xb9, 0xdd, 0x2b, 0x0b, 0xa8, 0x8d, 0x13] := by
  decide +kernel

/-- No word spells a command (log 1). -/
theorem test_decode : decodeTableWord 64 0 = none ∧ State.reset.withFetchWord 64 0 = State.reset := ⟨rfl, rfl⟩

/-! ### Well-formedness: for each check a term it refuses -/

/-- Of bytes and registers. -/
theorem smoke_registers : ([.registerWrite (.bar0 0 (2 ^ 24) true) 0,
      .registerWrite (.bar0 0 4 true) 0,
      .registerWrite (.bar0 0 2 false) 0,
      .registerWrite (.bar4 0 (2 ^ 16)) 0,
      .registerWrite (.bar4 0 4) 0,
      .registerWrite (.sq .evq 0x40) 0,
      .registerWrite (.sq .evq 4) 0,
      .registerWrite (.other (2 ^ 52)) 0,
      .registerWrite (.other 4) 0,
      .sqRefillDone .evq [8],
      .bar2Access 0 (2 ^ 36) (.read 1) [],
      .bar2Access 0 0 (.read 0) [],
      .bar2Access 0 0 (.read 4097) [],
      .bar2Access 0 0 (.write []) [],
      .bar2Access 0 0 (.write (z 513)) []] : List Instr).all (fun i => !i.wf) = true := by
  decide +kernel

/-- Of host memory. -/
theorem smoke_host : ([.hostReadCompletion 0 (.lantern 0) (2 ^ 47 - 1) .ok (z 1),
      .hostReadCompletion 0 (.lantern 0) (2 ^ 48) .ok (z 1),
      .hostReadCompletion 0 (.lantern 0) (2 ^ 47) .ok (z 4097),
      .hostReadCompletion 0 (.lantern 0) (2 ^ 47) .ok [],
      .hostReadCompletion 0 (.lantern 0) (2 ^ 47) .aborted (z 1),
      .hostReadTimeout 0 (.lantern 0) (2 ^ 47 - 1),
      .hostReadTimeout 0 (.lantern 0) (2 ^ 48)] : List Instr).all (fun i => !i.wf) = true := by
  decide +kernel

/-- Of tasks. -/
theorem smoke_tasks : ([.imageLoad 1 { graphs := [(0, [0])] },
      .imageLoad 1 { tasks := [{ wcetUs := 0 }] },
      .imageLoad 1 { tasks := [{ wcetUs := 2 ^ 24 }] },
      .imageLoad 1 { tasks := [{ yields := [[]] }] },
      .imageLoad 1 { tasks := [{ yields := [[(0, 16385)]] }] },
      .imageLoad 1 { tasks := [{ yields := [[(65535, 2)]] }] },
      .imageLoad 1 { tasks := [{ tokens := [(0, 0, 2, 1)] }] },
      .imageLoad 1 { tasks := [{ ring := some { rows := 0, win := [], h := 1, bands := [], height := 1, tok := (0, 0) } }] },
      .imageLoad 1 { tokenBudget := 0 },
      .imageLoad 1 { tokenBudget := 65537 },
      .imageLoad 1 { tokenBudget := 4, prefillChunk := 5 },
      .yieldPoint 0 0 [] [.band { dome := 0, tok := 0, win := [], h := 1, b0 := 0, b1 := 1, r0 := 0, r1 := 1 }] 0,
      .yieldPoint 0 0 [] [.ctr 0 0 (2 ^ 16)] 0,
      .yieldPoint 0 0 [] [.token 0 0 (2 ^ 16)] 0,
      .yieldPoint 0 0 [] [.read 0 0 (2 ^ 16)] 0,
      .tileComplete 0 (.mat { aFmt := .int8, bFmt := .int8, m := 0, n := 1, k := 1, a := 0, aPitch := 0, b := 0, bPitch := 0, out := 0, outPitch := 0, outFmt := .int32 }) {} 0,
      .tileComplete 0 (.mat { aFmt := .int8, bFmt := .int8, m := 1, n := 0, k := 1, a := 0, aPitch := 0, b := 0, bPitch := 0, out := 0, outPitch := 0, outFmt := .int32 }) {} 0,
      .tileComplete 0 (.mat { aFmt := .int8, bFmt := .int8, m := 1, n := 1, k := 0, a := 0, aPitch := 0, b := 0, bPitch := 0, out := 0, outPitch := 0, outFmt := .int32 }) {} 0,
      .tileComplete 0 (.win { inDesc := [0], outDesc := [], winDesc := [0], pos0 := 0, npos := 1, oc0 := 0, noc := 1 }) {} 0,
      .tileComplete 0 (.win { inDesc := [], outDesc := [], winDesc := [], pos0 := 0, npos := 0, oc0 := 0, noc := 1 }) {} 0,
      .tileComplete 0 (.win { inDesc := [], outDesc := [], winDesc := [], pos0 := 0, npos := 1, oc0 := 0, noc := 0 }) {} 0,
      .tileComplete 0 (.compare 0 0 0 0 0 0) {} 0,
      .tileComplete 0 (.signature [] 0) {} 0,
      .rowTokenAdvance 0 0 (2 ^ 16),
      .tokenShadowUpdate 0 0 0 (2 ^ 16),
      .ringReadTokenAdvance 0 0 (some (2 ^ 16)) 0,
      .ringReadTokenAdvance 0 0 none (2 ^ 16 - 1),
      .sortRequest 0 (2 ^ 52),
      .gatherRequest 0 [] .int8 0,
      .appendWrite 0 (2 ^ 20) 0 0 (z 1),
      .appendWrite 0 0 0 0 []] : List Instr).all (fun i => !i.wf) = true := by
  decide +kernel

/-- Of memory. -/
theorem smoke_memory : ([.dmaDescriptor 0 0 [] 0,
      .memoryRead (.lantern 0) 0 0 [],
      .memoryRead (.lantern 0) (2 ^ 52 + 2 ^ 22) 1 [],
      .memoryWrite (.lantern 0) 0 [] [],
      .memoryWrite (.lantern 0) (2 ^ 52 + 2 ^ 22) (z 1) [],
      .sramScrub 1296 [],
      .detReduction ⟨0, [0]⟩ 0 1,
      .detReduction ⟨0, List.replicate 4097 0⟩ 0 1,
      .detReduction ⟨0, [0, 0]⟩ 0 0,
      .arrivalOrderAdd 0 2 0,
      .atomicOp (.engine 0) .addI32 2 0] : List Instr).all (fun i => !i.wf) = true := by
  decide +kernel

/-- Of safety and twin. -/
theorem smoke_safetyTwin : ([.dualArbitration 0 [64],
      .selftestSlot [2 ^ 16],
      .twinPair 0 [],
      .twinRole 0 [0xFFFF] true,
      .twinFlitReceive 0 { seq := 2 ^ 12 },
      .twinFlitReceive 0 { ack := 2 ^ 12 },
      .twinFlitReceive 0 { msgSeq := 2 ^ 32 },
      .pairingAuth [] (z 114) 0 0,
      .pairingAuth (z 32) [] 0 0,
      .pairingAuth (z 32) (z 114) 1 0] : List Instr).all (fun i => !i.wf) = true := by
  decide +kernel

/-- Of cameras and displays. -/
theorem smoke_cameras : ([.streamBind 1 (2 ^ 256),
      .csiFrameStart 0 0 (2 ^ 16),
      .csiPacket 0 0 { dt := 64 } 0,
      .csiPacket 0 0 { dt := 0 } (2 ^ 256),
      .reauthChallenge 0 0 (2 ^ 256),
      .challengeNonceReceive 0 0 (2 ^ 256),
      .displayLineSend 0 [(4, 0)],
      .loopbackTestDone [4],
      .i3cRoleReturn [2 ^ 256]] : List Instr).all (fun i => !i.wf) = true := by
  decide +kernel

/-- Of I3C, boot and power. -/
theorem smoke_i3cBoot : ([.i3cPrivateWrite 0 false [],
      .i3cPrivateRead 0 false 0,
      .i3cCcc 0 (.entdaa 128),
      .i3cCcc 0 (.setdasa 128 0),
      .i3cCcc 0 (.setdasa 0 128),
      .i3cCcc 0 (.enec 256),
      .i3cCcc 0 (.disec 256),
      .pkgIdentCheck [] hears,
      .pkgIdentCheck (8 :: straps.tail) hears,
      .towerResetDone 0 [] hears [],
      .towerResetDone 0 (8 :: straps.tail) hears [],
      .towerResetDone 0 straps hears [2 ^ 16],
      .unitInitDone [2 ^ 16],
      .hubSampleRead true [] 0] : List Instr).all (fun i => !i.wf) = true := by
  decide +kernel

/-- And terms at the bounds are accepted. -/
theorem smoke_accepts : ([.pkgIdentCheck straps hears, .sramScrub 1295 [], .registerWrite (.sq .evq 0x38) 0, .csiFrameStart 0 0 65535,
      .twinPair 0 (z 32), .detReduction ⟨0, [0, 0]⟩ 0 1, .hello 0] : List Instr).all Instr.wf = true := by decide +kernel

/-- A packet's data has a 16-bit length. -/
theorem smoke_csiData (d : List Byte) (h : d.length = 65536) : (Instr.csiPacket 0 0 { dt := 0, data := d } 0).wf = false := by
  simp [Instr.wf, h]

end Sys2Proof.Tests
end

section
/-! Names of the attention memory: the fields of a sequence handle (04 R111) and the device address of a physical page
(04 R117). -/

namespace Sys2Proof.Machine

/-- A field of a number that fits a 64-bit word, as quotient and remainder. -/
theorem bits_ofNat_of_lt {x : Nat} (h : x < 2 ^ 64) (hi lo : Nat) :
    bits (BitVec.ofNat 64 x) hi lo = x / 2 ^ lo % 2 ^ (hi + 1 - lo) := by
  rw [bits, BitVec.toNat_ofNat, Nat.mod_eq_of_lt h, Nat.shiftRight_eq_div_pow]

/-! ### Sequence handles (04 R111) -/

section Handles
variable {s : State} {slot : Nat}

/-- Bits [31:20] of a handle are reserved, so it stays below 2 ^ 20. -/
theorem State.handleOf_lt (hs : slot < 4096) (hg : (s.sq slot).gen < 256) : s.handleOf slot < 2 ^ 20 := by
  rw [State.handleOf]
  omega

/-- Without its low 12 bits a handle is its slot's generation. -/
theorem State.handleOf_div (hs : slot < 4096) : s.handleOf slot / 4096 = (s.sq slot).gen := by
  rw [State.handleOf]
  omega

/-- A handle names the slot it was made for. -/
theorem slotOf_handleOf (hs : slot < 4096) : slotOf (s.handleOf slot) = slot := by
  rw [slotOf, State.handleOf]
  omega

/-- GEN, [19:12], is the slot's generation. -/
theorem State.bits_handleOf_gen (hs : slot < 4096) (hg : (s.sq slot).gen < 256) :
    bits (BitVec.ofNat 64 (s.handleOf slot)) 19 12 = (s.sq slot).gen := by
  have fits : s.handleOf slot < 2 ^ 64 := (State.handleOf_lt hs hg).trans (by decide)
  calc bits (BitVec.ofNat 64 (s.handleOf slot)) 19 12
      = s.handleOf slot / 4096 % 256 := bits_ofNat_of_lt fits 19 12
    _ = (s.sq slot).gen % 256 := by rw [State.handleOf_div hs]
    _ = (s.sq slot).gen := Nat.mod_eq_of_lt hg

/-- SLOT, [11:0], is the slot. -/
theorem State.bits_handleOf_slot (hs : slot < 4096) (hg : (s.sq slot).gen < 256) :
    bits (BitVec.ofNat 64 (s.handleOf slot)) 11 0 = slot := by
  have fits : s.handleOf slot < 2 ^ 64 := (State.handleOf_lt hs hg).trans (by decide)
  calc bits (BitVec.ofNat 64 (s.handleOf slot)) 11 0
      = s.handleOf slot / 1 % 4096 := bits_ofNat_of_lt fits 11 0
    _ = slotOf (s.handleOf slot) := by rw [Nat.div_one, slotOf]
    _ = slot := slotOf_handleOf hs

end Handles

/-! ### Physical pages (04 R117) -/

/-- Below the host's page numbers a page lies in DRAM at its number times the page size. -/
theorem ppnDa_of_lt {ppn : Nat} (h : ppn < hostPpn) : ppnDa ppn = ppn * pageBytes := if_pos h

/-- From the host's first page number on, pages lie one after another from the base of host memory. -/
theorem ppnDa_of_le {ppn : Nat} (h : hostPpn ≤ ppn) : ppnDa ppn = hostBase + (ppn - hostPpn) * pageBytes :=
  if_neg (Nat.not_lt.mpr h)

/-- The last page a 24-bit number can name ends at bus address 192 GiB. -/
theorem ppnDa_host_end_le {ppn : Nat} (h : hostPpn ≤ ppn) (h24 : ppn < 2 ^ 24) :
    ppnDa ppn + pageBytes ≤ hostBase + 192 * 2 ^ 30 := by
  rw [ppnDa_of_le h]
  simp only [hostPpn, hostBase, pageBytes] at h ⊢
  omega

/-! ### The statement -/

/-- Settles O59: the fields of a handle are the digits of `gen * 4096 + slot`, and a page's address is one of the two arms of
04 R117. -/
theorem handlesAndPages : Obligations.HandlesAndPages := by
  refine ⟨fun s slot hs hg => ⟨State.handleOf_lt hs hg, State.bits_handleOf_gen hs hg, State.bits_handleOf_slot hs hg,
    slotOf_handleOf hs⟩, fun ppn h => ppnDa_of_lt ?_, fun ppn h h24 => ⟨ppnDa_of_le h, ppnDa_host_end_le h h24⟩⟩
  exact h.trans (by decide : 0x3C0000 < hostPpn)

end Sys2Proof.Machine
end

section
/-! A Spill Queue at the edge of its room (07 R268, R271): what a push into a full queue does, and when the push that waits is
accepted. -/

namespace Sys2Proof.Machine

open Sys2Proof.Certs

/-! ### Room (07 R268) -/

section Room
variable {q : SpillQ}

theorem SpillQ.room_eq_zero_of_full (full : q.size + 32 ≤ q.count) : q.room = 0 := by
  rw [SpillQ.room, Nat.sub_eq_zero_of_le full, ite_self]

theorem SpillQ.one_le_room (link : q.linkLost = false) (space : q.count < q.size + 32) : 1 ≤ q.room := by
  have room : q.room = q.size + 32 - q.count := by simp [SpillQ.room, link]
  omega

/-! ### A push into a queue without room (07 R271) -/

theorem SpillQ.push_of_drop (w : W64) (room : q.room = 0) (drop : q.drop = true) :
    q.push w = { q with dropped := satAdd 32 q.dropped 1, overflow := true } := by
  simp [SpillQ.push, room, drop]

theorem SpillQ.push_of_stall (w : W64) (room : q.room = 0) (stall : q.drop = false) :
    q.push w = { q with stalled := q.stalled ++ [w] } := by
  simp [SpillQ.push, room, stall]

end Room

section Pushes
variable {s : State} {q : QueueId} (w : W64)

/-- A queue other than the Event Queue takes a push as `SpillQ.push` says. -/
theorem State.sqPush_of_plain (plain : Plain q) : s.sqPush q w = s.setQ q.key ((s.q q.key).push w) := by
  cases q with
  | evq => exact absurd rfl plain
  | ingress | plan | stream => rfl

/-- An event group the queue has no room for is dropped whole (12 R429). -/
theorem State.pushGroup_of_no_room {ws : List W64} (noRoom : (s.q 0).room < ws.length) :
    s.pushGroup ws = s.setQ 0 { s.q 0 with
      overflow := (s.q 0).overflow || (s.q 0).enable
      dropped := satAdd 32 (s.q 0).dropped ws.length
      lost := satAdd 32 (s.q 0).lost 1 } := by
  have group : ¬ ws.length ≤ (s.q 0).room := by omega
  have groupAfterLost : ¬ ws.length + 1 ≤ (s.q 0).room := by omega
  simp [State.pushGroup, group, groupAfterLost]

/-- The vector an urgent event sends leaves the queue as the push left it. -/
theorem State.sqPush_evq_q : (s.sqPush .evq w).q 0 = (s.pushGroup [w]).q 0 := by
  simp only [State.sqPush]
  split
  · rfl
  · rfl

/-- The Event Queue without room drops a push as `SpillQ.push` says, and counts the group it loses (12 R429). -/
theorem State.sqPush_evq_q_of_drop (room : (s.q 0).room = 0) (enable : (s.q 0).enable = true) (drop : (s.q 0).drop = true)
    (wf : tabWf ({} : SpillQ) s.queues) :
    (s.sqPush .evq w).q 0 = { (s.q 0).push w with lost := satAdd 32 (s.q 0).lost 1 } := by
  have noRoom : (s.q 0).room < [w].length := room.trans_lt Nat.zero_lt_one
  have overflow : ((s.q 0).overflow || (s.q 0).enable) = true := by rw [enable, Bool.or_true]
  rw [State.sqPush_evq_q, State.pushGroup_of_no_room noRoom, State.setQ_q _ _ _ wf, SpillQ.push_of_drop w room drop, overflow,
    List.length_singleton]

/-- Every full queue, the Event Queue among them, takes a push as `SpillQ.push` says, but for the count of groups the Event Queue
loses. -/
theorem State.sqPush_q_of_full (full : Full q s) (wf : tabWf ({} : SpillQ) s.queues) :
    ∃ lost, (s.sqPush q w).q q.key = { (s.q q.key).push w with lost := lost } := by
  obtain ⟨enable, noSpace, evqDrops⟩ := full
  by_cases evq : q = .evq
  · subst evq
    exact ⟨_, State.sqPush_evq_q_of_drop w (SpillQ.room_eq_zero_of_full noSpace) enable (evqDrops rfl) wf⟩
  · exact ⟨((s.q q.key).push w).lost, by rw [State.sqPush_of_plain w evq, State.setQ_q _ _ _ wf]⟩

/-! ### The push that waits (07 R271) -/

variable {w}

theorem execSqStalledPushAccept_of_no_room (room : (s.q q.key).room = 0) : execSqStalledPushAccept q s = .next s := by
  rw [execSqStalledPushAccept]
  cases (s.q q.key).stalled with
  | nil => rfl
  | cons oldest rest => simp [room]

theorem execSqStalledPushAccept_of_room {rest : List W64} (waits : (s.q q.key).stalled = w :: rest)
    (enable : (s.q q.key).enable = true) (room : 1 ≤ (s.q q.key).room) :
    execSqStalledPushAccept q s = .next (s.setQ q.key { (s.q q.key).accept w with stalled := rest }) := by
  simp only [execSqStalledPushAccept, waits, enable, room, and_self, if_true]

end Pushes

/-! ### The statement -/

/-- Settles O58: a full queue has no room, so a push takes the arm of its FULL_POLICY, and the push that waits finds none until a pop
makes some. -/
theorem fullQueues : Obligations.FullQueues := by
  refine ⟨fun q pl po s full wf => ⟨_, rfl, ?_⟩, fun q s full => ?_, fun q w rest s waits enable link space => ?_⟩
  · have ⟨_, noSpace, _⟩ := full
    have room := SpillQ.room_eq_zero_of_full noSpace
    obtain ⟨lost, pushed⟩ := State.sqPush_q_of_full (sqWord pl.toNat po) full wf
    rw [pushed]
    cases policy : (s.q q.key).drop with
    | true =>
      rw [SpillQ.push_of_drop _ room policy]
      exact ⟨rfl, rfl, rfl, rfl, rfl, rfl⟩
    | false =>
      rw [SpillQ.push_of_stall _ room policy]
      exact ⟨rfl, rfl, rfl, rfl, rfl, rfl⟩
  · exact execSqStalledPushAccept_of_no_room (SpillQ.room_eq_zero_of_full full)
  · exact execSqStalledPushAccept_of_room waits enable (SpillQ.one_le_room link space)

end Sys2Proof.Machine
end

section
/-! The mailbox windows of BAR0 (12 R409): an access at an offset of mailbox m's page reaches that mailbox, and before LMP_READY the
mailbox is closed (12 R412). -/

namespace Sys2Proof.Machine

/-! ### Where the windows lie (12 R409) -/

section Windows
variable {m off : Nat} (hm : m < 64) (hoff : off < 0x1000)
include hm hoff

/-- A mailbox's page lies in the range of the mailboxes, and its number and the offset in it are what BAR0's decoder takes out. -/
theorem mbxWindow_decode :
    (0x10000 ≤ 0x10000 + 0x1000 * m + off ∧ 0x10000 + 0x1000 * m + off < 0x50000) ∧
      (0x10000 + 0x1000 * m + off - 0x10000) / 0x1000 = m ∧ (0x10000 + 0x1000 * m + off) % 0x1000 = off := by
  omega

theorem State.bar0Read_mbxWindow (s : State) (ep : Nat) :
    s.bar0Read ep (0x10000 + 0x1000 * m + off) = s.mbxReg m off := by
  obtain ⟨inMbx, page, inPage⟩ := mbxWindow_decode hm hoff
  unfold State.bar0Read
  rw [if_neg (by omega), if_neg (by omega), if_neg (by omega), if_neg (by omega), if_neg (by omega), if_pos inMbx, page, inPage]

theorem State.bar0Write_mbxWindow (s : State) (ep : Nat) (wide : Bool) (v : W64) :
    s.bar0Write ep (0x10000 + 0x1000 * m + off) wide v = s.mbxWrite m ep off wide v := by
  obtain ⟨inMbx, page, inPage⟩ := mbxWindow_decode hm hoff
  rw [State.bar0Write, if_neg (by omega), if_neg (by omega), if_neg (by omega), if_neg (by omega), if_pos inMbx, page, inPage]

end Windows

/-! ### A closed mailbox (12 R412) -/

section Closed
variable {s : State} (closed : s.bs.lmpReady = false)
include closed

theorem State.mbxReg_of_closed (m off : Nat) : s.mbxReg m off = 0 := by
  simp [State.mbxReg, closed]

theorem State.mbxWrite_of_closed (m ep off : Nat) (wide : Bool) (v : W64) : s.mbxWrite m ep off wide v = s := by
  simp [State.mbxWrite, closed]

theorem State.mbxState_of_closed (m next : Nat) : s.mbxState m next = s := by
  simp [State.mbxState, closed]

theorem State.mbxGo_of_closed (m ep : Nat) : s.mbxGo m ep = s := by
  simp [State.mbxGo, closed]

end Closed

/-! ### The statement -/

/-- Settles O57: an access at an offset of a mailbox's page is an access to that mailbox, which is closed, and so are the rows of
STATE and GO. -/
theorem mailboxWindowsClosed : Obligations.MailboxWindowsClosed := by
  intro m ep off s closed hoff
  refine ⟨?read, fun wide v => ?write, ?filling, ?free, ?go⟩
  case read => rw [State.bar0Read_mbxWindow m.isLt hoff, State.mbxReg_of_closed closed]
  case write =>
    calc exec (.registerWrite (.bar0 ep (0x10000 + 0x1000 * m.val + off) wide) v) s
        = .next (s.bar0Write ep.val (0x10000 + 0x1000 * m.val + off) wide v) := rfl
      _ = .next s := by rw [State.bar0Write_mbxWindow m.isLt hoff, State.mbxWrite_of_closed closed]
  case filling => exact congrArg Host.Outcome.next (State.mbxState_of_closed closed m.val mbFilling)
  case free => exact congrArg Host.Outcome.next (State.mbxState_of_closed closed m.val mbFree)
  case go => exact congrArg Host.Outcome.next (State.mbxGo_of_closed closed m.val ep.val)

end Sys2Proof.Machine
end

section
/-! The ball map (16 R510): the regions in the table's order, each with the function of its balls. -/

namespace Sys2Proof.Machine

open Sys2Proof.Certs

/-- The column of the West half that column `c` mirrors (16 R511). -/
def westColumn (c : Nat) : Nat := if c < 37 then c else 74 - c

/-- How far a ball lies from the nearer middle line of the package, `m` of 16 R510. -/
def middleDistance (c r : Nat) : Nat := min (max c 37 - min c 37) (max r 37 - min r 37)

/-- The model's table, its guards read as the regions of 16 R510. -/
theorem ballFunction_eq (c r : Nat) :
    ballFunction c r =
      if InSignals c r then
        if r % 2 = 0 then .vss else fieldBall (if c < 37 then 0 else 1) ((r - 19) / 2) (westColumn c)
      else if (c + r) % 2 = 0 then .vss
      else if InBands c r then
        let d := min (min c r) (min (74 - c) (74 - r))
        .rail (if d ≤ 2 then .vdd2h else if d ≤ 4 then .vddq else if d = 5 then .vdd2l else .vdd1)
      else if (19 ≤ r ∧ r ≤ 55) ∧ westColumn c ≤ 18 then
        if westColumn c ≤ 12 then .rail (if r ≤ 37 then .phy085 else .phy12)
        else if r ≤ 22 then .rail (.lant (!decide (c < 37)))
        else if r ≤ 26 then .rail .gpio
        else .rail .io
      else if middleDistance c r ≤ 6 then .rail .base
      else .rail (.spire (if c < 37 then if r < 37 then 0 else 3 else if r < 37 then 1 else 2)) := by
  simp only [ballFunction, InSignals, InBands, westColumn, middleDistance, Bool.and_eq_true, Bool.or_eq_true, decide_eq_true_eq]
  rfl

section Regions
variable {c r : Nat}

theorem westColumn_eq_min : westColumn c = min c (74 - c) := by
  rw [westColumn]
  split
  · omega
  · omega

/-- Once the signal fields are taken out, the model's guard of the third region is the two I/O die cores. -/
theorem coreGuard_iff (grid : OnGrid c r) (signals : ¬ InSignals c r) :
    (19 ≤ r ∧ r ≤ 55) ∧ westColumn c ≤ 18 ↔ InCores c r := by
  rw [westColumn_eq_min]
  omega

theorem middleDistance_le_six_iff : middleDistance c r ≤ 6 ↔ (31 ≤ c ∧ c ≤ 43) ∨ (31 ≤ r ∧ r ≤ 43) := by
  rw [middleDistance]
  omega

theorem ballFunction_of_signals (signals : InSignals c r) :
    ballFunction c r = if r % 2 = 0 then .vss
      else if c ≤ 10 then fieldBall 0 ((r - 19) / 2) c else fieldBall 1 ((r - 19) / 2) (74 - c) := by
  rw [ballFunction_eq, if_pos signals]
  obtain ⟨west | east, -⟩ := signals
  · have half : c < 37 := by omega
    simp only [westColumn, if_pos half, if_pos west]
  · have half : ¬ c < 37 := by omega
    have field : ¬ c ≤ 10 := by omega
    simp only [westColumn, if_neg half, if_neg field]

theorem ballFunction_of_even (signals : ¬ InSignals c r) (even : (c + r) % 2 = 0) : ballFunction c r = .vss := by
  rw [ballFunction_eq, if_neg signals, if_pos even]

theorem ballFunction_of_bands {d : Nat} (signals : ¬ InSignals c r) (odd : (c + r) % 2 = 1) (bands : InBands c r)
    (depth : d = min (min c r) (min (74 - c) (74 - r))) :
    ballFunction c r = .rail (if d ≤ 2 then .vdd2h else if d ≤ 4 then .vddq else if d = 5 then .vdd2l else .vdd1) := by
  subst depth
  rw [ballFunction_eq, if_neg signals, if_neg (by omega), if_pos bands]

theorem ballFunction_of_cores (grid : OnGrid c r) (odd : (c + r) % 2 = 1) (cores : InCores c r) :
    ballFunction c r = .rail (
      if c = 11 ∨ c = 12 ∨ c = 62 ∨ c = 63 then (if r ≤ 37 then .phy085 else .phy12)
      else if r ≤ 22 then .lant (decide (56 ≤ c)) else if r ≤ 26 then .gpio else .io) := by
  have signals : ¬ InSignals c r := by omega
  have bands : ¬ InBands c r := by omega
  have outer : westColumn c ≤ 12 ↔ c = 11 ∨ c = 12 ∨ c = 62 ∨ c = 63 := by rw [westColumn_eq_min]; omega
  have east : (!decide (c < 37)) = decide (56 ≤ c) := by rw [← decide_not, decide_eq_decide]; omega
  rw [ballFunction_eq, if_neg signals, if_neg (by omega), if_neg bands, if_pos ((coreGuard_iff grid signals).mpr cores), east]
  simp only [outer, apply_ite Ball.rail]

theorem ballFunction_of_towers (grid : OnGrid c r) (signals : ¬ InSignals c r) (bands : ¬ InBands c r) (cores : ¬ InCores c r)
    (odd : (c + r) % 2 = 1) :
    ballFunction c r = .rail (
      if (31 ≤ c ∧ c ≤ 43) ∨ (31 ≤ r ∧ r ≤ 43) then .base
      else if c < 37 then (if r < 37 then .spire 0 else .spire 3) else if r < 37 then .spire 1 else .spire 2) := by
  rw [ballFunction_eq, if_neg signals, if_neg (by omega), if_neg bands, if_neg (mt (coreGuard_iff grid signals).mp cores)]
  simp only [middleDistance_le_six_iff, apply_ite Ball.rail, apply_ite Supply.spire]

end Regions

/-! ### The statement -/

/-- Settles O60: one clause for the signal fields, one for the ground balls outside them, and one for the supply balls of each later
region. -/
theorem ballMap : Obligations.BallMap :=
  ⟨fun _ _ _ signals => ballFunction_of_signals signals,
    fun _ _ _ signals even => ballFunction_of_even signals even,
    fun _ _ _ _ signals odd bands depth => ballFunction_of_bands signals odd bands depth,
    fun _ _ grid odd cores => ballFunction_of_cores grid odd cores,
    fun _ _ grid signals bands cores odd => ballFunction_of_towers grid signals bands cores odd⟩

end Sys2Proof.Machine
end

section
/-! What every step keeps: the lemmas of Laws/Keeps*.lean, one per command, put together over the commands. -/

namespace Sys2Proof.Machine

/-- Every command keeps what `Keeps` names: the queue of waiting commands, the canonical form of the tables, and what is fused. -/
theorem exec_keeps (i : Instr) (s : State) : OutKeeps s (exec i s) := by
  cases i with
  | hello m => exact execHello_keeps m s (Keeps.refl s)
  | capsGet m => exact execCapsGet_keeps m s (Keeps.refl s)
  | mbxAssign m => exact execMbxAssign_keeps m s (Keeps.refl s)
  | partitionCreate m => exact execPartitionCreate_keeps m s (Keeps.refl s)
  | partitionDestroy m => exact execPartitionDestroy_keeps m s (Keeps.refl s)
  | partitionReset m => exact execPartitionReset_keeps m s (Keeps.refl s)
  | partitionSetShare m => exact execPartitionSetShare_keeps m s (Keeps.refl s)
  | imageLoad m img => exact execImageLoad_keeps m img s (Keeps.refl s)
  | imageUnload m => exact execImageUnload_keeps m s (Keeps.refl s)
  | launch m => exact execLaunch_keeps m s (Keeps.refl s)
  | launchAt m => exact execLaunchAt_keeps m s (Keeps.refl s)
  | taskAbort m => exact execTaskAbort_keeps m s (Keeps.refl s)
  | seqOpen m => exact execSeqOpen_keeps m s (Keeps.refl s)
  | seqClose m => exact execSeqClose_keeps m s (Keeps.refl s)
  | seqFork m => exact execSeqFork_keeps m s (Keeps.refl s)
  | pageTableEdit m => exact execPageTableEdit_keeps m s (Keeps.refl s)
  | seqSwapPolicy m => exact execSeqSwapPolicy_keeps m s (Keeps.refl s)
  | seqSwapWatermarks m => exact execSeqSwapWatermarks_keeps m s (Keeps.refl s)
  | streamBind m nonce => exact execStreamBind_keeps m nonce s (Keeps.refl s)
  | streamUnbind m => exact execStreamUnbind_keeps m s (Keeps.refl s)
  | displayBind m => exact execDisplayBind_keeps m s (Keeps.refl s)
  | worldUpdate m => exact execWorldUpdate_keeps m s (Keeps.refl s)
  | planRequest m => exact execPlanRequest_keeps m s (Keeps.refl s)
  | planCancel m => exact execPlanCancel_keeps m s (Keeps.refl s)
  | detMode m => exact execDetMode_keeps m s (Keeps.refl s)
  | majorFrameUs m => exact execMajorFrameUs_keeps m s (Keeps.refl s)
  | rhT1 m => exact execRhT1_keeps m s (Keeps.refl s)
  | rhT2 m => exact execRhT2_keeps m s (Keeps.refl s)
  | dual m => exact execDual_keeps m s (Keeps.refl s)
  | selftestRotation m => exact execSelftestRotation_keeps m s (Keeps.refl s)
  | towerReset m => exact execTowerReset_keeps m s (Keeps.refl s)
  | warmReset m => exact execWarmReset_keeps m s (Keeps.refl s)
  | errorsRead src => exact execErrorsRead_keeps src s (Keeps.refl s)
  | errorsClear src => exact execErrorsClear_keeps src s (Keeps.refl s)
  | selftestStatus src => exact execSelftestStatus_keeps src s (Keeps.refl s)
  | twinPair m nonce => exact execTwinPair_keeps m nonce s (Keeps.refl s)
  | twinRole m diff det => exact execTwinRole_keeps m diff det s (Keeps.refl s)
  | standDown m => exact execStandDown_keeps m s (Keeps.refl s)
  | twinHandover m => exact execTwinHandover_keeps m s (Keeps.refl s)
  | configRootGet src => exact execConfigRootGet_keeps src s (Keeps.refl s)
  | attest src => exact execAttest_keeps src s (Keeps.refl s)
  | lifecycleAdvance m => exact execLifecycleAdvance_keeps m s (Keeps.refl s)
  | timeSyncStep m => exact execTimeSyncStep_keeps m s (Keeps.refl s)
  | timeSyncSlew m => exact execTimeSyncSlew_keeps m s (Keeps.refl s)
  | syncSet m => exact execSyncSet_keeps m s (Keeps.refl s)
  | resourceClaim m => exact execResourceClaim_keeps m s (Keeps.refl s)
  | resourceRelease m => exact execResourceRelease_keeps m s (Keeps.refl s)
  | accountingRead m => exact execAccountingRead_keeps m s (Keeps.refl s)
  | thermalPolicy m => exact execThermalPolicy_keeps m s (Keeps.refl s)
  | fwStage m ok => exact execFwStage_keeps m ok s (Keeps.refl s)
  | fwActivate m => exact execFwActivate_keeps m s (Keeps.refl s)
  | mbxStateFilling m ep => exact execMbxStateFilling_keeps m ep s (Keeps.refl s)
  | mbxStateFree m ep => exact execMbxStateFree_keeps m ep s (Keeps.refl s)
  | mbxGo m ep => exact execMbxGo_keeps m ep s (Keeps.refl s)
  | registerWrite tgt v => exact execRegisterWrite_keeps tgt v s (Keeps.refl s)
  | sqPush q payload poison => exact execSqPush_keeps q payload poison s (Keeps.refl s)
  | sqStalledPushAccept q => exact execSqStalledPushAccept_keeps q s (Keeps.refl s)
  | sqPop q wide flip => exact execSqPop_keeps q wide flip s (Keeps.refl s)
  | sqRefillDone q poison => exact execSqRefillDone_keeps q poison s (Keeps.refl s)
  | sqSpill q toHead ending => exact execSqSpill_keeps q toHead ending s (Keeps.refl s)
  | sqDroppedRead q => exact execSqDroppedRead_keeps q s (Keeps.refl s)
  | sqCtrlWrite q v => exact execSqCtrlWrite_keeps q v s (Keeps.refl s)
  | sqConfigWrite q isSize v => exact execSqConfigWrite_keeps q isSize v s (Keeps.refl s)
  | evqIrqWrite ep v => exact execEvqIrqWrite_keeps ep v s (Keeps.refl s)
  | evqHoldoffExpiry => exact execEvqHoldoffExpiry_keeps s (Keeps.refl s)
  | winCtrlWrite ep w v => exact execWinCtrlWrite_keeps ep w v s (Keeps.refl s)
  | bar2Access ep off acc conds => exact execBar2Access_keeps ep off acc conds s (Keeps.refl s)
  | pcieLinkDown ep => exact execPcieLinkDown_keeps ep s (Keeps.refl s)
  | pcieLinkUp ep => exact execPcieLinkUp_keeps ep s (Keeps.refl s)
  | perst ep low => exact execPerst_keeps ep low s (Keeps.refl s)
  | functionLevelReset ep => exact execFunctionLevelReset_keeps ep s (Keeps.refl s)
  | hostReadCompletion ep req da st data => exact execHostReadCompletion_keeps ep req da st data s (Keeps.refl s)
  | hostReadTimeout ep req da => exact execHostReadTimeout_keeps ep req da s (Keeps.refl s)
  | ctcLowRead ep => exact execCtcLowRead_keeps ep s (Keeps.refl s)
  | syncInEdge dt => exact execSyncInEdge_keeps dt s (Keeps.refl s)
  | syncMissed => exact execSyncMissed_keeps s (Keeps.refl s)
  | holdover => exact execHoldover_keeps s (Keeps.refl s)
  | twinTimeExchange offsetPs missing => exact execTwinTimeExchange_keeps offsetPs missing s (Keeps.refl s)
  | twinValidLoss => exact execTwinValidLoss_keeps s (Keeps.refl s)
  | launchAtStart job => exact execLaunchAtStart_keeps job s (Keeps.refl s)
  | majorFrameStart => exact execMajorFrameStart_keeps s (Keeps.refl s)
  | windowStart p => exact execWindowStart_keeps p s (Keeps.refl s)
  | slackStart => exact execSlackStart_keeps s (Keeps.refl s)
  | reclaimLead p => exact execReclaimLead_keeps p s (Keeps.refl s)
  | goldenTileSlot p => exact execGoldenTileSlot_keeps p s (Keeps.refl s)
  | goldenTileSignature sp sig => exact execGoldenTileSignature_keeps sp sig s (Keeps.refl s)
  | goldenTileSlotEnd p => exact execGoldenTileSlotEnd_keeps p s (Keeps.refl s)
  | budgetExhausted sp => exact execBudgetExhausted_keeps sp s (Keeps.refl s)
  | taskReady job idx => exact execTaskReady_keeps job idx s (Keeps.refl s)
  | taskDispatch sp => exact execTaskDispatch_keeps sp s (Keeps.refl s)
  | yieldPoint sp y ctx w dt => exact execYieldPoint_keeps sp y ctx w dt s (Keeps.refl s)
  | saveDone sp dt => exact execSaveDone_keeps sp dt s (Keeps.refl s)
  | yieldWaitTimeout sp => exact execYieldWaitTimeout_keeps sp s (Keeps.refl s)
  | taskEnd sp dt => exact execTaskEnd_keeps sp dt s (Keeps.refl s)
  | taskOverrun sp => exact execTaskOverrun_keeps sp s (Keeps.refl s)
  | overrunAbort sp => exact execOverrunAbort_keeps sp s (Keeps.refl s)
  | tileComplete sp op faults dt => exact execTileComplete_keeps sp op faults dt s (Keeps.refl s)
  | tileRetryDone sp faults dt => exact execTileRetryDone_keeps sp faults dt s (Keeps.refl s)
  | taskFailover sp => exact execTaskFailover_keeps sp s (Keeps.refl s)
  | spireFllRelock sp => exact execSpireFllRelock_keeps sp s (Keeps.refl s)
  | rowTokenAdvance dome t b1 => exact execRowTokenAdvance_keeps dome t b1 s (Keeps.refl s)
  | tokenShadowUpdate dome src t v => exact execTokenShadowUpdate_keeps dome src t v s (Keeps.refl s)
  | tokenWaitDone sp => exact execTokenWaitDone_keeps sp s (Keeps.refl s)
  | ringReadTokenAdvance dome t lo hi => exact execRingReadTokenAdvance_keeps dome t lo hi s (Keeps.refl s)
  | sortRequest sp da => exact execSortRequest_keeps sp da s (Keeps.refl s)
  | sortStart dome => exact execSortStart_keeps dome s (Keeps.refl s)
  | sortDone dome mismatch => exact execSortDone_keeps dome mismatch s (Keeps.refl s)
  | sortRepeatDone dome mismatch => exact execSortRepeatDone_keeps dome mismatch s (Keeps.refl s)
  | gatherRequest sp desc wf tensor => exact execGatherRequest_keeps sp desc wf tensor s (Keeps.refl s)
  | gatherTileWritten dome mismatch => exact execGatherTileWritten_keeps dome mismatch s (Keeps.refl s)
  | gatherTileRelease sp => exact execGatherTileRelease_keeps sp s (Keeps.refl s)
  | appendWrite sp handle layer pos data => exact execAppendWrite_keeps sp handle layer pos data s (Keeps.refl s)
  | appendCounterAdvance slot pos => exact execAppendCounterAdvance_keeps slot pos s (Keeps.refl s)
  | pageWalkDone dome slot vpn parity => exact execPageWalkDone_keeps dome slot vpn parity s (Keeps.refl s)
  | tlbInvalidationAck unit slot => exact execTlbInvalidationAck_keeps unit slot s (Keeps.refl s)
  | stepBuild p image phase => exact execStepBuild_keeps p image phase s (Keeps.refl s)
  | copyOnWriteDone slot => exact execCopyOnWriteDone_keeps slot s (Keeps.refl s)
  | stepComplete job => exact execStepComplete_keeps job s (Keeps.refl s)
  | swapOutCopyDone slot => exact execSwapOutCopyDone_keeps slot s (Keeps.refl s)
  | swapInCopyDone slot => exact execSwapInCopyDone_keeps slot s (Keeps.refl s)
  | planSearchStart v => exact execPlanSearchStart_keeps v s (Keeps.refl s)
  | proposerBatchSend e => exact execProposerBatchSend_keeps e s (Keeps.refl s)
  | proposerComplete e fault => exact execProposerComplete_keeps e fault s (Keeps.refl s)
  | candidateCheckDone e otherDiffers => exact execCandidateCheckDone_keeps e otherDiffers s (Keeps.refl s)
  | planDeadline e => exact execPlanDeadline_keeps e s (Keeps.refl s)
  | pathRecheckDone v => exact execPathRecheckDone_keeps v s (Keeps.refl s)
  | publishRound v => exact execPublishRound_keeps v s (Keeps.refl s)
  | publishLocked v => exact execPublishLocked_keeps v s (Keeps.refl s)
  | resultPublished e => exact execResultPublished_keeps e s (Keeps.refl s)
  | worldUpdateApply e => exact execWorldUpdateApply_keeps e s (Keeps.refl s)
  | memoryRead req da n conds => exact execMemoryRead_keeps req da n conds s (Keeps.refl s)
  | memoryWrite req da data conds => exact execMemoryWrite_keeps req da data conds s (Keeps.refl s)
  | sramScrub bank conds => exact execSramScrub_keeps bank conds s (Keeps.refl s)
  | bankPowerUp bank => exact execBankPowerUp_keeps bank s (Keeps.refl s)
  | dmaDescriptor dome ch words sp => exact execDmaDescriptor_keeps dome ch words sp s (Keeps.refl s)
  | dmaComplete dome ch => exact execDmaComplete_keeps dome ch s (Keeps.refl s)
  | dramRequestIssue ch cond link => exact execDramRequestIssue_keeps ch cond link s (Keeps.refl s)
  | refreshInterval ch => exact execRefreshInterval_keeps ch s (Keeps.refl s)
  | forcedRefab ch => exact execForcedRefab_keeps ch s (Keeps.refl s)
  | mr4Read ch rate => exact execMr4Read_keeps ch rate s (Keeps.refl s)
  | linkEccCountRead ch n => exact execLinkEccCountRead_keeps ch n s (Keeps.refl s)
  | rhWindowStart => exact execRhWindowStart_keeps s (Keeps.refl s)
  | creditRefill => exact execCreditRefill_keeps s (Keeps.refl s)
  | dramPatrolScrub ch cond => exact execDramPatrolScrub_keeps ch cond s (Keeps.refl s)
  | detReduction src out n => exact execDetReduction_keeps src out n s (Keeps.refl s)
  | arrivalOrderAdd sp da v => exact execArrivalOrderAdd_keeps sp da v s (Keeps.refl s)
  | atomicOp req op da v => exact execAtomicOp_keeps req op da v s (Keeps.refl s)
  | supplyExcursion rail => exact execSupplyExcursion_keeps rail s (Keeps.refl s)
  | clockMonitorWindow isl count => exact execClockMonitorWindow_keeps isl count s (Keeps.refl s)
  | towerMonitorHeartbeat t l ok => exact execTowerMonitorHeartbeat_keeps t l ok s (Keeps.refl s)
  | cupolaHeartbeat side l ok => exact execCupolaHeartbeat_keeps side l ok s (Keeps.refl s)
  | hbLost src l => exact execHbLost_keeps src l s (Keeps.refl s)
  | crossWatchSend l => exact execCrossWatchSend_keeps l s (Keeps.refl s)
  | crossWatchFrame l ok level => exact execCrossWatchFrame_keeps l ok level s (Keeps.refl s)
  | peerSilent l => exact execPeerSilent_keeps l s (Keeps.refl s)
  | lanternDecision l rep => exact execLanternDecision_keeps l rep s (Keeps.refl s)
  | lockstepMismatch unit cfgParity => exact execLockstepMismatch_keeps unit cfgParity s (Keeps.refl s)
  | cupolaTakeover => exact execCupolaTakeover_keeps s (Keeps.refl s)
  | dualSignature job shadow sigs => exact execDualSignature_keeps job shadow sigs s (Keeps.refl s)
  | dualArbitration p bad => exact execDualArbitration_keeps p bad s (Keeps.refl s)
  | selftestSlot fails => exact execSelftestSlot_keeps fails s (Keeps.refl s)
  | configAudit l leafOk rootOk => exact execConfigAudit_keeps l leafOk rootOk s (Keeps.refl s)
  | twinRootCompare port frame roots diff => exact execTwinRootCompare_keeps port frame roots diff s (Keeps.refl s)
  | towerLinkCrcRetry e => exact execTowerLinkCrcRetry_keeps e s (Keeps.refl s)
  | laneFailure e mdl repaired => exact execLaneFailure_keeps e mdl repaired s (Keeps.refl s)
  | twinFlitReceive port f => exact execTwinFlitReceive_keeps port f s (Keeps.refl s)
  | twinIdleFlit port => exact execTwinIdleFlit_keeps port s (Keeps.refl s)
  | twinPortDown port split => exact execTwinPortDown_keeps port split s (Keeps.refl s)
  | pairingAuth nonce sig vmin vmax => exact execPairingAuth_keeps nonce sig vmin vmax s (Keeps.refl s)
  | twinPairTimeout => exact execTwinPairTimeout_keeps s (Keeps.refl s)
  | launchLogAck p step => exact execLaunchLogAck_keeps p step s (Keeps.refl s)
  | launchLogTimeout p => exact execLaunchLogTimeout_keeps p s (Keeps.refl s)
  | sharedConfigApply imgs => exact execSharedConfigApply_keeps imgs s (Keeps.refl s)
  | mirrorAck p cut => exact execMirrorAck_keeps p cut s (Keeps.refl s)
  | publishedMark p step => exact execPublishedMark_keeps p step s (Keeps.refl s)
  | takeover mask => exact execTakeover_keeps mask s (Keeps.refl s)
  | takeoverRerunDone job => exact execTakeoverRerunDone_keeps job s (Keeps.refl s)
  | twinLaunchAtForward m p step payload late => exact execTwinLaunchAtForward_keeps m p step payload late s (Keeps.refl s)
  | twinLaunchAtTimeout m => exact execTwinLaunchAtTimeout_keeps m s (Keeps.refl s)
  | dualCompareSignatures job sigs => exact execDualCompareSignatures_keeps job sigs s (Keeps.refl s)
  | csiFrameStart port vc n => exact execCsiFrameStart_keeps port vc n s (Keeps.refl s)
  | csiPacket port vc pkt nonce => exact execCsiPacket_keeps port vc pkt nonce s (Keeps.refl s)
  | responseVerified port vc => exact execResponseVerified_keeps port vc s (Keeps.refl s)
  | reauthChallenge port vc nonce => exact execReauthChallenge_keeps port vc nonce s (Keeps.refl s)
  | challengeNonceReceive port vc nonce => exact execChallengeNonceReceive_keeps port vc nonce s (Keeps.refl s)
  | csiFrameEnd port vc => exact execCsiFrameEnd_keeps port vc s (Keeps.refl s)
  | streamSilent port vc => exact execStreamSilent_keeps port vc s (Keeps.refl s)
  | displayFrameStart port => exact execDisplayFrameStart_keeps port s (Keeps.refl s)
  | displayLineSend port late => exact execDisplayLineSend_keeps port late s (Keeps.refl s)
  | layerDisabled port layer => exact execLayerDisabled_keeps port layer s (Keeps.refl s)
  | loopbackTestDone fails => exact execLoopbackTestDone_keeps fails s (Keeps.refl s)
  | i3cHandoffAccepted ok => exact execI3cHandoffAccepted_keeps ok s (Keeps.refl s)
  | camSbBulkExpiry => exact execCamSbBulkExpiry_keeps s (Keeps.refl s)
  | i3cRoleReturn nonces => exact execI3cRoleReturn_keeps nonces s (Keeps.refl s)
  | i3cRoleRequestRetry => exact execI3cRoleRequestRetry_keeps s (Keeps.refl s)
  | i3cPrivateWrite l recovery data => exact execI3cPrivateWrite_keeps l recovery data s (Keeps.refl s)
  | i3cPrivateRead l recovery n => exact execI3cPrivateRead_keeps l recovery n s (Keeps.refl s)
  | i3cCcc l code => exact execI3cCcc_keeps l code s (Keeps.refl s)
  | rcvData l b => exact execRcvData_keeps l b s (Keeps.refl s)
  | rcvGo l => exact execRcvGo_keeps l s (Keeps.refl s)
  | recoveryVerifyDone => exact execRecoveryVerifyDone_keeps s (Keeps.refl s)
  | powerOn => exact execPowerOn_keeps s (Keeps.refl s)
  | powerLoss => exact execPowerLoss_keeps s (Keeps.refl s)
  | resetInNPulse ns => exact execResetInNPulse_keeps ns s (Keeps.refl s)
  | delayedWarmReset => exact execDelayedWarmReset_keeps s (Keeps.refl s)
  | pkgIdentCheck words hears => exact execPkgIdentCheck_keeps words hears s (Keeps.refl s)
  | towerResetDone t words hears fails => exact execTowerResetDone_keeps t words hears fails s (Keeps.refl s)
  | dramWipeDone => exact execDramWipeDone_keeps s (Keeps.refl s)
  | bootGo ep => exact execBootGo_keeps ep s (Keeps.refl s)
  | imageFetchDone ok => exact execImageFetchDone_keeps ok s (Keeps.refl s)
  | noImage => exact execNoImage_keeps s (Keeps.refl s)
  | fetchTimeout => exact execFetchTimeout_keeps s (Keeps.refl s)
  | lanternSectionCheck l ok => exact execLanternSectionCheck_keeps l ok s (Keeps.refl s)
  | unitInitDone fails => exact execUnitInitDone_keeps fails s (Keeps.refl s)
  | lmpReady => exact execLmpReady_keeps s (Keeps.refl s)
  | entropyHealthFail side => exact execEntropyHealthFail_keeps side s (Keeps.refl s)
  | sensorRead spot a b => exact execSensorRead_keeps spot a b s (Keeps.refl s)
  | sensorFaultPersist spot => exact execSensorFaultPersist_keeps spot s (Keeps.refl s)
  | thermalCeilingUpdate t => exact execThermalCeilingUpdate_keeps t s (Keeps.refl s)
  | baseDieOverheat t => exact execBaseDieOverheat_keeps t s (Keeps.refl s)
  | thermalTrip t spot => exact execThermalTrip_keeps t spot s (Keeps.refl s)
  | avsVoltageConfirmed t mv => exact execAvsVoltageConfirmed_keeps t mv s (Keeps.refl s)
  | avsCurrentRead t ma => exact execAvsCurrentRead_keeps t ma s (Keeps.refl s)
  | regulatorNoAnswer t => exact execRegulatorNoAnswer_keeps t s (Keeps.refl s)
  | hubSampleRead ok words pmeas => exact execHubSampleRead_keeps ok words pmeas s (Keeps.refl s)
  | hubSilent => exact execHubSilent_keeps s (Keeps.refl s)
  | heatBalanceWindow pMeas => exact execHeatBalanceWindow_keeps pMeas s (Keeps.refl s)
  | towersOff => exact execTowersOff_keeps s (Keeps.refl s)
  | life => exact execLife_keeps s (Keeps.refl s)
  | powerDomainSwitch dom on => exact execPowerDomainSwitch_keeps dom on s (Keeps.refl s)
  | partitionZeroingDone p => exact execPartitionZeroingDone_keeps p s (Keeps.refl s)
  | lantHbToggle l => exact execLantHbToggle_keeps l s (Keeps.refl s)
  | frameMarkEnd => exact execFrameMarkEnd_keeps s (Keeps.refl s)
  | referenceClockLoss => exact execReferenceClockLoss_keeps s (Keeps.refl s)
  | d3hot ep on => exact execD3hot_keeps ep on s (Keeps.refl s)
  | hotJoin side => exact execHotJoin_keeps side s (Keeps.refl s)
  | testWindow unit opens => exact execTestWindow_keeps unit opens s (Keeps.refl s)

/-- A step keeps what `Keeps` names of the state with the front of the queue taken off: a command that runs keeps it, and so does the
1 ns of an empty queue. -/
theorem step_keeps {s t : State} (h : step s = .next t) : Keeps { s with pending := s.pending.tail } t := by
  cases front : s.pending with
  | nil =>
    have idle : step s = .next (s.elapse 1) := by rw [step, front]
    have unqueued : { s with pending := [] } = s := by rw [← front]
    rw [List.tail_nil, unqueued, ← Host.Outcome.next.inj (idle.symm.trans h)]
    exact State.elapse_keeps s 1 (Keeps.refl s)
  | cons c rest =>
    have runs : step s = exec c { s with pending := rest } := by rw [step, front]
    exact Keeps.of_next (runs.symm.trans h) (exec_keeps c _)

/-- Settles O53: of what every command keeps, the queue. -/
theorem queueKept : Obligations.QueueKept :=
  ⟨fun c s _ h => (Keeps.of_next h (exec_keeps c s)).pending, fun _ _ h => (step_keeps h).pending⟩

/-- The queue of waiting commands is no table, so taking its front off leaves the tables canonical. -/
theorem Canonical.takeFront {s : State} (w : Canonical s) (rest : List Instr) : Canonical { s with pending := rest } :=
  ⟨w.mem, w.queues, w.tokens, w.shadows, w.reads⟩

/-- Settles O54: of what every step keeps, the canonical form. -/
theorem tablesCanonical : Obligations.TablesCanonical :=
  fun s _ w h => (step_keeps h).canon (w.takeFront s.pending.tail)

/-- Settles O55: of what every step keeps, OTP. -/
theorem fusesKept : Obligations.FusesKept := by
  intro s t h
  obtain ⟨uid, seed, fwKey, revoked, oemRoot, rollback, count⟩ := (step_keeps h).otp
  exact ⟨uid, seed, fwKey, revoked, oemRoot, rollback, count⟩

end Sys2Proof.Machine
end

section
/-! The queue of waiting commands and the state after reset. -/

namespace Sys2Proof.Machine

/-- Settles O51: the arm of `step` for a queue with a front. -/
theorem stepTakesFront : Obligations.StepTakesFront := by
  intro c rest s front
  rw [step, front]

/-- Time that passes is counted, whatever slew is in progress. -/
theorem Clock.elapse_elapsed (c : Clock) (dt : Nat) : (c.elapse dt).elapsed = c.elapsed + dt := by
  unfold Clock.elapse
  split
  · rfl
  · split <;> rfl

/-- Settles O52: the arm of `step` for an empty queue. -/
theorem idleStep : Obligations.IdleStep := by
  intro s idle
  exact ⟨by rw [step, idle], Clock.elapse_elapsed s.clk 1⟩

/-- Settles O56: every table of the state after reset is empty but that of the queues, which lists the Event Queue alone. -/
theorem resetState : Obligations.ResetState :=
  ⟨⟨rfl, rfl, rfl, rfl, rfl⟩, rfl, rfl, rfl, rfl, rfl, fun _ => ⟨rfl, rfl, rfl, rfl⟩, rfl, rfl, rfl, rfl, rfl, rfl, rfl,
    fun _ _ => rfl, rfl, rfl, rfl, rfl, fun _ => rfl⟩

end Sys2Proof.Machine
end

section
/-! How a command that firmware takes ends (12 R419, R420, 13 R435, R438): its body runs once on the state that took it from its mailbox,
and its result is the answer. A command on a section both twin members hold is answered by `onShare` (10 R356, R360). -/

namespace Sys2Proof.Machine

open Sys2Proof.Certs

/-! ### What taking a command leaves alone

Proved by rewriting, not by `rfl`: `simp` then renews the `Decidable` instances of the conditions it rewrites in. -/

section TakeMbx
variable (s : State) (m : Nat)

@[simp] theorem State.takeMbx_clk : (s.takeMbx m).clk = s.clk := by rw [State.takeMbx_frame]
@[simp] theorem State.takeMbx_recs : (s.takeMbx m).recs = s.recs := by rw [State.takeMbx_frame]
@[simp] theorem State.takeMbx_mem : (s.takeMbx m).mem = s.mem := by rw [State.takeMbx_frame]
@[simp] theorem State.takeMbx_sch : (s.takeMbx m).sch = s.sch := by rw [State.takeMbx_frame]
@[simp] theorem State.takeMbx_saf : (s.takeMbx m).saf = s.saf := by rw [State.takeMbx_frame]
@[simp] theorem State.takeMbx_bs : (s.takeMbx m).bs = s.bs := by rw [State.takeMbx_frame]
@[simp] theorem State.takeMbx_tw : (s.takeMbx m).tw = s.tw := by rw [State.takeMbx_frame]
@[simp] theorem State.takeMbx_seq : (s.takeMbx m).seq = s.seq := by rw [State.takeMbx_frame]
@[simp] theorem State.takeMbx_plan : (s.takeMbx m).plan = s.plan := by rw [State.takeMbx_frame]
@[simp] theorem State.takeMbx_claims : (s.takeMbx m).claims = s.claims := by rw [State.takeMbx_frame]
@[simp] theorem State.takeMbx_cam : (s.takeMbx m).cam = s.cam := by rw [State.takeMbx_frame]
@[simp] theorem State.takeMbx_otp : (s.takeMbx m).otp = s.otp := by rw [State.takeMbx_frame]
@[simp] theorem State.takeMbx_heat : (s.takeMbx m).heat = s.heat := by rw [State.takeMbx_frame]
@[simp] theorem State.takeMbx_cfgEpoch : (s.takeMbx m).cfgEpoch = s.cfgEpoch := by rw [State.takeMbx_frame]
@[simp] theorem State.takeMbx_free : (s.takeMbx m).free = s.free := by rw [State.takeMbx_frame]
@[simp] theorem State.takeMbx_part (p : Nat) : (s.takeMbx m).part p = s.part p := by rw [State.takeMbx_frame]; rfl
@[simp] theorem State.takeMbx_users : (s.takeMbx m).users = s.users := by rw [State.takeMbx_frame]; rfl
@[simp] theorem State.takeMbx_named (p : Nat) : (s.takeMbx m).named p = s.named p := by rw [State.takeMbx_frame]; rfl
@[simp] theorem State.takeMbx_mirrored (p : Nat) : (s.takeMbx m).mirrored p = s.mirrored p := by rw [State.takeMbx_frame]; rfl
@[simp] theorem State.takeMbx_publishes (p : Nat) : (s.takeMbx m).publishes p = s.publishes p := by rw [State.takeMbx_frame]; rfl
@[simp] theorem State.takeMbx_twp (p : Nat) : (s.takeMbx m).twp p = s.twp p := by rw [State.takeMbx_frame]; rfl
@[simp] theorem State.takeMbx_memberOf (r : List Byte) : (s.takeMbx m).memberOf r = s.memberOf r := by rw [State.takeMbx_frame]; rfl
@[simp] theorem State.takeMbx_noEntropy : (s.takeMbx m).noEntropy = s.noEntropy := by rw [State.takeMbx_frame]; rfl
@[simp] theorem State.ctx_m : (s.ctx m).m = m := rfl

end TakeMbx

/-! ### The answer of a command that is taken -/

section Taken
variable {m : Fin 64} {op : Nat} {s : State} {isRow : Nat → Ctx → Bool} {body : Ctx → State → LmpRes}

theorem isOp_self (c : Ctx) : isOp op op c = true := decide_eq_true rfl

theorem State.lmp_of_taken (taken : Taken m op s) (row : isRow op (s.ctx m.val) = true) :
    s.lmp m.val isRow body = (((body (s.ctx m.val) (s.takeMbx m.val)).counted op).apply m.val).rejectHeaders 64 := by
  obtain ⟨serves, next, rfl, header, scope⟩ := taken
  exact State.lmp_runs s m.val isRow body serves next row header scope

/-- A body that ends with another status than ST_E_STALE is the whole answer. -/
theorem State.lmp_done {st d : Nat} {out : List Byte} {u : State} (taken : Taken m op s) (row : isRow op (s.ctx m.val) = true)
    (fresh : st ≠ stStale) (runs : body (s.ctx m.val) (s.takeMbx m.val) = .done st d out u) :
    s.lmp m.val isRow body = (u.complete m.val st d out).rejectHeaders 64 := by
  rw [State.lmp_of_taken taken row, runs, LmpRes.counted, if_neg fresh, LmpRes.apply]

theorem lmp_ends {out : List Byte} {u : State} (taken : Taken m op s) (row : isRow op (s.ctx m.val) = true)
    (runs : body (s.ctx m.val) (s.takeMbx m.val) = .done stOk 0 out u) :
    (.next (s.lmp m.val isRow body) : Answer) = ended m out u :=
  congrArg _ (State.lmp_done taken row (by decide) runs)

theorem lmp_fails {st d : Nat} {u : State} (taken : Taken m op s) (row : isRow op (s.ctx m.val) = true)
    (fresh : st ≠ stStale) (runs : body (s.ctx m.val) (s.takeMbx m.val) = .done st d [] u) :
    (.next (s.lmp m.val isRow body) : Answer) = failed m st d u :=
  congrArg _ (State.lmp_done taken row fresh runs)

theorem lmp_holds {w : Wait} {u : State} (taken : Taken m op s) (row : isRow op (s.ctx m.val) = true)
    (runs : body (s.ctx m.val) (s.takeMbx m.val) = .wait w u) :
    (.next (s.lmp m.val isRow body) : Answer) = waiting m w u := by
  rw [State.lmp_of_taken taken row, runs, LmpRes.counted, LmpRes.apply, waiting]

/-- A body that waits or completes. -/
theorem lmp_holds_or_ends {p : Prop} [Decidable p] {w : Wait} {out : List Byte} {u t : State} (taken : Taken m op s)
    (row : isRow op (s.ctx m.val) = true)
    (runs : body (s.ctx m.val) (s.takeMbx m.val) = if p then .wait w u else .done stOk 0 out t) :
    (.next (s.lmp m.val isRow body) : Answer) = if p then waiting m w u else ended m out t := by
  by_cases h : p
  · rw [if_pos h] at runs ⊢
    exact lmp_holds taken row runs
  · rw [if_neg h] at runs ⊢
    exact lmp_ends taken row runs

/-- A command on a shared section that would complete here. -/
theorem lmp_shared_ends {of : Ctx → Option Nat} {out : List Byte} {u : State} (taken : Taken m op s)
    (row : isRow op (s.ctx m.val) = true) (runs : body (s.ctx m.val) (s.takeMbx m.val) = .done stOk 0 out u) :
    (.next (s.lmp m.val isRow (shared op of body)) : Answer) = onShare op (of (s.ctx m.val)) m s (ended m out u) := by
  have fate : (s.takeMbx m.val).shareOf (of (s.ctx m.val)) = s.shareOf (of (s.ctx m.val)) := rfl
  unfold onShare
  cases share : s.shareOf (of (s.ctx m.val)) with
  | here => exact lmp_ends taken row (by simp only [shared, fate, share, runs])
  | refuse =>
    exact lmp_fails taken row (by decide) (by simp only [shared, fate, share, runs]; rfl)
  | forward =>
    exact lmp_holds taken row (by simp only [shared, fate, share, runs]; rfl)

/-- A command on a shared section that would wait here. -/
theorem lmp_shared_holds {of : Ctx → Option Nat} {w : Wait} {u : State} (taken : Taken m op s)
    (row : isRow op (s.ctx m.val) = true) (runs : body (s.ctx m.val) (s.takeMbx m.val) = .wait w u) :
    (.next (s.lmp m.val isRow (shared op of body)) : Answer) = onShare op (of (s.ctx m.val)) m s (waiting m w u) := by
  have fate : (s.takeMbx m.val).shareOf (of (s.ctx m.val)) = s.shareOf (of (s.ctx m.val)) := rfl
  unfold onShare
  cases share : s.shareOf (of (s.ctx m.val)) with
  | here => exact lmp_holds taken row (by simp only [shared, fate, share, runs])
  | refuse => exact lmp_fails taken row (by decide) (by simp only [shared, fate, share, runs, LmpRes.refuseShared])
  | forward => exact lmp_holds taken row (by simp only [shared, fate, share, runs])

end Taken

end Sys2Proof.Machine
end

section
/-! HELLO, CAPS_GET, MBX_ASSIGN (13 R439), images (13 R442, R443) and launches (13 R444; 08 R289 to R300). -/

namespace Sys2Proof.Machine

open Sys2Proof.Certs

section Commands
variable {m : Fin 64} {s : State}

/-! ### Protocol (13 R439) -/

/-- A range that holds version 1 agrees on it: this firmware speaks no other. -/
theorem helloBody_of_helloOk (ok : HelloOk m s) :
    helloBody (s.ctx m.val) (s.takeMbx m.val) = .done stOk 0
      (le 1 1 ++ le 1 ((s.takeMbx m.val).mbx m.val).gen ++ le 1 (if m.val = 0 then 0 else ((s.takeMbx m.val).mbx m.val).partition) ++ le 5 0)
      ((s.takeMbx m.val).modMbx m.val fun b => { b with version := some 1 }) := by
  obtain ⟨-, pad, least, most⟩ := ok
  have agreed : min ((s.ctx m.val).u8 1) lmpMax = 1 := Nat.min_eq_right most
  have inRange : ¬ 1 < (s.ctx m.val).u8 0 := least.not_gt
  simp only [helloBody, agreed]
  exact checked_runs (by simp [firstBad, pad]) (by simp [firstHit, inRange, lmpMin])

theorem mbxAssignBody_of_mbxAssignOk (ok : MbxAssignOk m s) :
    let c := s.ctx m.val
    let t := (s.takeMbx m.val).assign (c.u8 0) (c.u8 1) (c.u16 2)
    mbxAssignBody c (s.takeMbx m.val) = .done stOk 0 (le 1 (t.mbx (c.u8 0)).gen ++ le 7 0) t := by
  obtain ⟨-, least, most, client, share, pad, notSubmitted, notBusy⟩ := ok
  generalize s.ctx m.val = c at *
  generalize s.takeMbx m.val = u at *
  simp only [mbxAssignBody]
  refine checked_runs ?_ ?_
  · rcases client with none | ⟨first, last, live⟩
    · simp [firstBad, least, most, none, share, pad]
    · simp [firstBad, least, most, first, last, live, share, pad]
  · simp [firstHit, notSubmitted, notBusy]

/-! ### Images (13 R442, R443) -/

theorem imageLoadBody_of_imageLoadOk {f : ImageFacts} (ok : ImageLoadOk m f s) :
    let c := s.ctx m.val
    let u := s.takeMbx m.val
    let x := u.part c.part
    let bytes := u.rd (c.u64 0) (c.u32 0x10)
    let i := x.freeImage.getD 0
    let g := x.takesGolden f i
    let w := u.writeCells (c.u64 8) bytes (if u.kind (c.u64 8) = some .dram then 64 else 8) (c.u32 0x10 + 1)
    imageLoadBody f c u =
      .done stOk 0 (le 1 i ++ le 1 ((if f.golden.isSome then 1 else 0) + if g.isSome then 2 else 0) ++ le 6 0 ++ shake256 bytes 32)
        (w.modPart c.part fun y => { y with
          images := tput none y.images i (some { dest := c.u64 8, bytes := c.u32 0x10, meas := shake256 bytes 32, facts := f })
          golden := if g.isSome then g else y.golden }) := by
  obtain ⟨-, srcDa, source, dstDa, lines, dest, least, most, pad, formed, target, reads, readable, whole, conds⟩ := ok
  generalize s.ctx m.val = c at *
  generalize s.takeMbx m.val = u at *
  have from_ : (decide (u.kindRange (c.u64 0) (max 1 (c.u32 0x10)) = some .host) || (u.part c.part).inRegion (c.u64 0) (c.u32 0x10)) =
      true := by simpa using source
  simp only [imageLoadBody, whole, Bool.false_eq_true, if_false]
  refine checked_runs ?_ ?_
  · simp only [firstBad, srcDa, from_, dstDa, lines, dest, least, most, pad]
    rfl
  · simpa [firstHit, formed, target, reads, readable] using conds

theorem imageUnloadBody_of_imageUnloadOk (ok : ImageUnloadOk m s) :
    imageUnloadBody (s.ctx m.val) (s.takeMbx m.val) = .done stOk 0 [] ((s.takeMbx m.val).modPart (s.ctx m.val).part fun y =>
      { y with images := tput none y.images ((s.ctx m.val).u8 0) none }) := by
  obtain ⟨-, loaded, pad, jobs, seqs, streams, golden⟩ := ok
  generalize s.ctx m.val = c at *
  generalize s.takeMbx m.val = u at *
  have noJob : ((u.jobsOf c.part).any fun j => decide ((u.job j).image = c.u8 0)) = false := by simpa using jobs
  have noSeq : (u.liveSlots.any fun k => decide ((u.sq k).part = c.part) && decide ((u.sq k).image = c.u8 0)) = false := by
    simpa [imp_iff_not_or] using seqs
  have unheld : (decide (1 ≤ (u.part c.part).cls) && decide ((u.part c.part).golden.map (·.image) = some (c.u8 0))) = false := by
    rcases golden with qm | other
    · simp [qm]
    · simp [other]
  simp only [imageUnloadBody]
  refine checked_runs ?_ ?_
  · simp only [firstBad, loaded, pad]
    rfl
  · simp only [firstHit, noJob, noSeq, streams, unheld]
    rfl

/-! ### Launches (13 R444; 08 R289 to R300) -/

/-- A launch that passes its checks is accepted here, completing or, where its partition is mirrored, waiting for the standby. -/
theorem lmp_launch_accepted {at_ : Bool} (ok : LaunchOk m at_ false s) :
    (.next (s.lmp m.val (isOp (if at_ then 0x31 else 0x30)) (launchBody at_)) : Answer) =
      accepted m (if at_ then 0x31 else 0x30) (if at_ then some ((s.ctx m.val).u64 0x10) else none) s := by
  obtain ⟨taken, ⟨fields, conds⟩, alone⟩ := ok
  refine lmp_holds_or_ends (body := launchBody at_) taken (isOp_self _) ?_
  simp only [launchBody, checked_runs fields conds, alone, Bool.false_eq_true, if_false]

/-- A launch for both members waits for the partner's answer (08 R299). -/
theorem lmp_launch_twin (ok : LaunchOk m true true s) :
    (.next (s.lmp m.val (isOp 0x31) (launchBody true)) : Answer) =
      let c := s.ctx m.val
      let u := (s.takeMbx m.val).takeStep c
      waiting m (.launchTwin c.part (u.2.getD (2 ^ 64 - 1)))
        (u.1.send (.launchAt (Fin.ofNat 16 c.part) (Fin.ofNat 64 c.m) (u.2.getD (2 ^ 64 - 1)) c.pl)) := by
  obtain ⟨taken, ⟨fields, conds⟩, both⟩ := ok
  exact lmp_holds taken (isOp_self _) ((checked_runs fields conds).trans (if_pos both))

theorem taskAbortBody_of_taskAbortOk {j : Nat} (ok : TaskAbortOk m j s) :
    taskAbortBody (s.ctx m.val) (s.takeMbx m.val) = .done stOk 0 [] ((s.takeMbx m.val).abort j) := by
  obtain ⟨-, own, pad, named⟩ := ok
  have inRange : m.val ≤ 63 := Nat.le_of_lt_succ m.isLt
  simp only [taskAbortBody]
  rw [checked_runs (by simp [firstBad, own, inRange, pad]) rfl, named]

end Commands

/-- Settles O1: each body run under its conditions, as the answer of the command that is taken. -/
theorem protocolCommands : Obligations.ProtocolCommands :=
  ⟨fun _ _ ok => lmp_ends ok.1 (isOp_self _) (helloBody_of_helloOk ok), fun _ _ taken => lmp_ends taken (isOp_self _) rfl,
    fun _ _ ok => lmp_ends ok.1 (isOp_self _) (mbxAssignBody_of_mbxAssignOk ok)⟩

/-- Settles O3: each body run under its conditions, on a section both twin members hold. -/
theorem imageCommands : Obligations.ImageCommands :=
  ⟨fun _ _ _ ok => lmp_shared_ends ok.1 (isOp_self _) (imageLoadBody_of_imageLoadOk ok),
    fun _ _ ok => lmp_shared_ends ok.1 (isOp_self _) (imageUnloadBody_of_imageUnloadOk ok)⟩

/-- Settles O4: a launch passes its checks and is accepted, and one set for a time starts then. -/
theorem launchCommands : Obligations.LaunchCommands := by
  refine ⟨fun m s ok => lmp_launch_accepted ok, fun m s ok => lmp_launch_accepted ok, fun m s ok => lmp_launch_twin ok,
    fun m j s ok => lmp_ends ok.1 (isOp_self _) (taskAbortBody_of_taskAbortOk ok), fun job t s ⟨live, due, served⟩ => ?starts,
    fun job t s live due lost => ?holds⟩
  case starts =>
    rw [exec, execLaunchAtStart, live, due]
    exact if_neg (Bool.eq_false_iff.1 served)
  case holds =>
    rw [exec, execLaunchAtStart, live, due]
    exact if_pos lost
end Sys2Proof.Machine
end

section
/-! Creating, ending, sharing and zeroing partitions (13 R440; 06 R200 to R214). -/

namespace Sys2Proof.Machine

open Sys2Proof.Certs

section Partitions
variable {m : Fin 64} {s : State}

theorem partitionCreateBody_of_partitionCreateOk {p off : Nat} (ok : PartitionCreateOk m p off s) :
    let c := s.ctx m.val
    let t := (s.takeMbx m.val).layout
    let x := partitionOf c off
    let t1 := t.modPart p fun _ => x
    let t2 := (List.range 64).foldl (fun s sp =>
      if x.priv && x.domes.getLsbD (sp / 4) && (s.spire sp).job.isSome then s.modSpire sp fun y => { y with preempt := some .owner }
      else s) t1
    let want := walkClaims x.dmaList (decide (x.swapBytes ≠ 0)) (if x.priv then x.domes else ~~~ t.ownedDomes)
    partitionCreateBody c (s.takeMbx m.val) =
      .done stOk 0 (le 8 p) { t2 with claims := t2.claims ++ want.map fun w => { res := w.1, inst := w.2, mbx := 0, part := p } } := by
  obtain ⟨-, ⟨fields, conds⟩, lowest, slice⟩ := ok
  simp only [partitionCreateBody]
  rw [checked_runs fields conds, lowest, slice]

/-- DESTROY and RESET begin to end the partition alike; what is left of it afterwards tells them apart (06 R206). -/
theorem partitionEndBody_of_partitionEndOk {mode : Nat} (ok : PartitionEndOk m mode s) (known : mode ≤ 1) :
    partitionEndBody (s.ctx m.val) (s.takeMbx m.val) =
      .wait (.zero ((s.ctx m.val).u8 0)) ((s.takeMbx m.val).beginEnd ((s.ctx m.val).u8 0) (if mode = 1 then 3 else 4)) := by
  obtain ⟨-, rfl, pad, named, running⟩ := ok
  generalize s.takeMbx m.val = u at *
  simp only [partitionEndBody]
  exact checked_runs (by simp [firstBad, named, known, pad]) (by simp [firstHit, running])

theorem partitionSetShareBody_of_setShareOk (ok : SetShareOk m s) :
    partitionSetShareBody (s.ctx m.val) (s.takeMbx m.val) = .done stOk 0 [] ((s.takeMbx m.val).modPart ((s.ctx m.val).u8 0) fun x =>
      { x with
        share := if ((s.ctx m.val).u8 1).testBit 0 then (s.ctx m.val).u16 2 else x.share
        nextBudget := if ((s.ctx m.val).u8 1).testBit 1 then some ((s.ctx m.val).u32 4) else x.nextBudget }) := by
  obtain ⟨-, named, least, most, weight, budget⟩ := ok
  have frame : s.sch.frame.fUs = (s.takeMbx m.val).sch.frame.fUs := rfl
  rw [frame] at budget
  generalize s.ctx m.val = c at *
  generalize s.takeMbx m.val = u at *
  have weightOk : (!(c.u8 1).testBit 0 || decide (1 ≤ c.u16 2)) = true := by simpa [imp_iff_not_or] using weight
  simp only [partitionSetShareBody]
  cases named' : (c.u8 1).testBit 1 with
  | false =>
    refine checked_runs ?_ ?_
    · simp only [firstBad, named, least, most, weightOk]
      rfl
    · rfl
  | true =>
    obtain ⟨low, high, golden, room⟩ := budget named'
    have fits : (!(u.part (c.u8 0)).priv && decide (u.sch.frame.fUs < u.windowSum (c.u8 0) + c.u32 4)) = false := by
      rcases room with spatial | room
      · simp [spatial]
      · simp [room]
    refine checked_runs ?_ ?_
    · simp only [firstBad, named, least, most, weightOk, low, high, golden]
      rfl
    · simp only [firstHit, Bool.true_and, fits]
      rfl

theorem execPartitionZeroingDone_of_zeroedOk {p : Fin 16} (ok : ZeroedOk p s) :
    execPartitionZeroingDone p s = .next
      ((((s.zeroPartition p.val).modPart p.val fun x => { x with step := 0 }).release p.val).finishAll (.zero p.val) stOk 0 []) := by
  obtain ⟨live, ending, noSeq⟩ := ok
  have none : ¬ (s.liveSlots.any fun i => (s.sq i).part = p.val) = true := by simpa using noSeq
  rw [execPartitionZeroingDone]
  dsimp only
  rw [if_pos ⟨live, by rw [ending]; decide, none⟩, if_neg (by rw [ending]; decide)]

end Partitions

/-- Settles O2: each body run under its conditions, on a section both twin members hold. -/
theorem partitionCommands : Obligations.PartitionCommands := by
  refine ⟨fun m p off s ok => ?create, fun m s ok => ?destroy, fun m s ok => ?reset, fun m s ok => ?share,
    fun _ _ ok => execPartitionZeroingDone_of_zeroedOk ok⟩
  case create => exact lmp_shared_ends ok.1 (isOp_self _) (partitionCreateBody_of_partitionCreateOk ok)
  case destroy =>
    have body := partitionEndBody_of_partitionEndOk ok (Nat.zero_le 1)
    rw [if_neg Nat.zero_ne_one] at body
    exact lmp_shared_holds (of := ofNamed) ok.1 (by simp [ok.2.1]) body
  case reset =>
    have body := partitionEndBody_of_partitionEndOk ok le_rfl
    rw [if_pos rfl] at body
    exact lmp_shared_holds (of := ofNamed) ok.1 (by simp [ok.2.1]) body
  case share => exact lmp_shared_ends (of := ofNamed) ok.1 (isOp_self _) (partitionSetShareBody_of_setShareOk ok)

end Sys2Proof.Machine
end

section
/-! The sequence commands (13 R447; 04 R112 to R145). -/

namespace Sys2Proof.Machine

open Sys2Proof.Certs

section Sequences
variable {m : Fin 64} {s : State}

theorem seqOpenBody_of_seqOpenOk {slot base : Nat} (ok : SeqOpenOk m slot base s) :
    let c := s.ctx m.val
    let u := s.takeMbx m.val
    let tpp := tppOf (c.u8 1) (c.u8 3)
    let t := (u.modSeq slot fun q => {
      st := sqOpen, gen := q.gen, part := c.part, image := c.u8 0, policy := c.u8 4, lfmt := c.u8 1, nl := c.u8 2, dc64 := c.u8 3
      tpp := tpp, maxLen := c.u32 8, ptBase := base, share := if c.u16 6 = 0 then (u.part c.part).share else c.u16 6
      ptLen := c.u32 12, reserve := if c.u8 4 = 1 then c.u8 2 * ceilDiv (c.u32 8) (max 1 tpp) else 0 }).zero base
        (2 * ptCopyBytes (c.u32 12))
    seqOpenBody c u = .done stOk 0 (le 8 (t.handleOf slot)) t := by
  obtain ⟨-, image, format, layers, layersMost, width, widthMost, policy, pad, fits, table, tableMost, free, pages, place⟩ := ok
  generalize s.ctx m.val = c at *
  generalize s.takeMbx m.val = u at *
  have policyOk : (decide (c.u8 4 ≤ 1) && (decide (c.u8 4 = 1) || (u.part c.part).maySwap)) = true := by
    rcases policy with resident | ⟨evictable, maySwap⟩
    · simp [resident]
    · simp [evictable, maySwap]
  simp only [seqOpenBody]
  rw [checked_runs ?fields ?conds, free, place]
  case fields => simp only [firstBad, image, format, layers, layersMost, width, widthMost, policyOk, pad, fits, table, tableMost]; rfl
  case conds => simp [firstHit, free, place, pages]

/-- A command that names a live sequence of the sender finds its handle in range and fresh. -/
theorem seqNamed_checked {op : Nat} {body : Unit → LmpRes} (ok : SeqNamedOk m op s) :
    checked (s.takeMbx m.val) [(decide ((s.ctx m.val).u32 0 < 2 ^ 20), 0), (decide ((s.ctx m.val).u32 4 = 0), 4)]
      [(!(s.takeMbx m.val).liveHandle (s.ctx m.val).part ((s.ctx m.val).u32 0), stStale, 0)] body = body () := by
  obtain ⟨-, handle, pad, live⟩ := ok
  exact checked_runs (by simp only [firstBad, handle, pad]; rfl) (by simp only [firstHit, live]; rfl)

theorem seqCloseBody_of_seqNamedOk (ok : SeqNamedOk m 0x41 s) :
    seqCloseBody (s.ctx m.val) (s.takeMbx m.val) =
      .wait (.seqClose (slotOf ((s.ctx m.val).u32 0))) (closed (slotOf ((s.ctx m.val).u32 0)) (s.takeMbx m.val)) := by
  simp only [seqCloseBody]
  exact seqNamed_checked ok

theorem seqForkBody_of_seqNamedOk (ok : SeqNamedOk m 0x42 s) :
    seqForkBody (s.ctx m.val) (s.takeMbx m.val) = .wait (.fork (slotOf ((s.ctx m.val).u32 0)) 0) (s.takeMbx m.val) := by
  simp only [seqForkBody]
  exact seqNamed_checked ok

theorem pageTableEditBody_of_pageTableEditOk {t : State} (ok : PageTableEditOk m t s) :
    let c := s.ctx m.val
    pageTableEditBody c (s.takeMbx m.val) =
      if ((s.takeMbx m.val).sq (slotOf (c.u32 0))).busyCopy then .wait (.editLate (slotOf (c.u32 0))) t
      else .wait (.edit (slotOf (c.u32 0))) (t.modSeq (slotOf (c.u32 0)) fun q => { q with pending := true }) := by
  obtain ⟨-, handle, least, most, length, pad, reserved, live, applied, open_, notOut, notSwapped, notIn⟩ := ok
  generalize s.ctx m.val = c at *
  generalize s.takeMbx m.val = u at *
  have clean : ((List.range (c.u16 4)).map fun i => (c.u32 (8 + 8 * i), c.u32 (12 + 8 * i))).findIdx?
      (fun e => !(decide (nbits e.2 30 24 = 0))) = none := by
    simpa [List.findIdx?_eq_none_iff] using reserved
  simp only [pageTableEditBody, clean, applied]
  rw [checked_runs ?fields ?conds]
  · exact if_neg (by simp [open_, notOut, notSwapped, notIn])
  case fields => simp only [firstBad, handle, least, most, length, pad]; rfl
  case conds => simp only [firstHit, live]; rfl

theorem seqSwapPolicyBody_of_swapPolicyOk (ok : SwapPolicyOk m s) :
    let c := s.ctx m.val
    let u := s.takeMbx m.val
    let slot := slotOf (c.u32 4)
    let q := u.sq slot
    seqSwapPolicyBody c u = .done stOk 0 [] (u.modSeq slot fun y => { y with
      policy := c.u8 1
      reserve := if c.u8 1 = 1 ∧ q.policy = 0 then q.nl * ceilDiv q.maxLen (max 1 q.tpp) - (u.alone slot).length
        else if c.u8 1 = 0 then 0 else y.reserve
      share := if c.u16 2 = 0 then y.share else c.u16 2 }) := by
  obtain ⟨-, form, handle, pad, tail, live, policy⟩ := ok
  generalize s.ctx m.val = c at *
  generalize s.takeMbx m.val = u at *
  simp only [seqSwapPolicyBody]
  rw [checked_runs ?fields ?conds]
  · simp only [Bool.and_eq_true, decide_eq_true_eq]
  case fields =>
    rcases policy with ⟨evictable, maySwap⟩ | ⟨resident, -⟩
    · simp only [firstBad, form, evictable, maySwap, handle, pad, tail]; rfl
    · simp only [firstBad, form, resident, handle, pad, tail]; rfl
  case conds =>
    rcases policy with ⟨evictable, -⟩ | ⟨resident, kept | ⟨pages, notOut, notSwapped, notIn⟩⟩
    · simp [firstHit, live, evictable]
    · simp [firstHit, live, resident, kept]
    · simp [firstHit, live, resident, pages, notOut, notSwapped, notIn]

theorem seqWatermarksBody_of_watermarksOk (ok : WatermarksOk m s) :
    seqWatermarksBody (s.ctx m.val) (s.takeMbx m.val) = .done stOk 0 [] ((s.takeMbx m.val).modPart (s.ctx m.val).part fun x =>
      { x with lowWm := (s.ctx m.val).u32 8, highWm := (s.ctx m.val).u32 12 }) := by
  obtain ⟨-, -, zero, pad, tail, least, low, order, high⟩ := ok
  generalize s.ctx m.val = c at *
  generalize s.takeMbx m.val = u at *
  simp only [seqWatermarksBody]
  exact checked_runs (by simp only [firstBad, zero, pad, tail, least, low, order, high]; rfl) rfl

end Sequences

/-- Settles O5: each body run under its conditions, on a section both twin members hold. -/
theorem sequenceCommands : Obligations.SequenceCommands := by
  refine ⟨fun m slot base s ok => ?open_, fun m s ok => ?close, fun m s ok => ?fork, fun m t s ok => ?edit, fun m s ok => ?policy,
    fun m s ok => ?watermarks⟩
  case open_ => exact lmp_shared_ends (of := ofClient) ok.1 (isOp_self _) (seqOpenBody_of_seqOpenOk ok)
  case close => exact lmp_shared_holds (of := ofClient) ok.1 (isOp_self _) (seqCloseBody_of_seqNamedOk ok)
  case fork => exact lmp_shared_holds (of := ofClient) ok.1 (isOp_self _) (seqForkBody_of_seqNamedOk ok)
  case edit =>
    have body := pageTableEditBody_of_pageTableEditOk ok
    dsimp only at body ⊢
    split at body
    · next busy =>
      rw [if_pos busy]
      exact lmp_shared_holds (of := ofClient) ok.1 (isOp_self _) body
    · next quiet =>
      rw [if_neg quiet]
      exact lmp_shared_holds (of := ofClient) ok.1 (isOp_self _) body
  case policy => exact lmp_shared_ends (of := ofClient) ok.1 (by simp [ok.2.1]) (seqSwapPolicyBody_of_swapPolicyOk ok)
  case watermarks => exact lmp_shared_ends (of := ofClient) ok.1 (by simp [ok.2.1]) (seqWatermarksBody_of_watermarksOk ok)

end Sys2Proof.Machine
end

section
/-! SAFETY_CONFIG (13 R451) and TIME_SYNC (13 R457). -/

namespace Sys2Proof.Machine

open Sys2Proof.Certs

section Settings
variable {m : Fin 64} {s : State}

/-! ### SAFETY_CONFIG -/

/-- The items that a SAFETY_CONFIG brings are applied, or the Tower it resets is wiped. -/
theorem safetyConfigBody_of_safetyOk {k : Nat} (ok : SafetyOk m k s) :
    safetyConfigBody (s.ctx m.val) (s.takeMbx m.val) =
      if k = 0x10 then .wait (.towerReset ((s.ctx m.val).u64 16)) ((s.takeMbx m.val).wipeTower ((s.ctx m.val).u64 16))
      else .done stOk 0 [] ((cfgItems (s.ctx m.val)).foldl (fun s i => s.applyItem i) (s.takeMbx m.val)) := by
  obtain ⟨-, rfl, least, most, length, pad, items, order, conds⟩ := ok
  generalize s.ctx m.val = c at *
  generalize s.takeMbx m.val = u at *
  have clean : ((cfgItems c).findIdx? fun i => !u.itemOk (c.u8 0) i) = none := by
    simpa [List.findIdx?_eq_none_iff] using items
  have ordered : (decide ((u.rhAfter (cfgItems c)).1 < (u.rhAfter (cfgItems c)).2) ||
      !((cfgItems c).any fun i => decide (i.key = 3) || decide (i.key = 4))) = true := by
    rcases order with less | untouched
    · simp [less]
    · have none_ : ((cfgItems c).any fun i => decide (i.key = 3) || decide (i.key = 4)) = false := by simpa using untouched
      simp [none_]
  simp only [safetyConfigBody, clean]
  exact checked_runs (by simp only [firstBad, length, least, most, pad, ordered]; rfl) conds

/-- A setting, whose key is below 0x10, is on a section both twin members hold. -/
theorem safetyRow_of_setting {k : Nat} {keys : Nat → Bool} (ok : SafetyOk m k s) (row : keys k = true) (setting : k < 0x10) :
    (.next (s.safetyRow m keys) : Answer) = onShare 0x70 none m s (applied m s) := by
  have body := safetyConfigBody_of_safetyOk ok
  obtain ⟨taken, rfl, -⟩ := ok
  rw [if_neg setting.ne] at body
  have isRow : (decide ((0x70 : Nat) = 0x70) && keys (firstKey (s.ctx m.val))) = true := by simpa using row
  have shares := lmp_shared_ends (of := fun _ => none) (isRow := fun o c => decide (o = 0x70) && keys (firstKey c)) taken isRow body
  rw [State.lmp_of_taken taken isRow] at shares
  rw [State.safetyRow, State.lmp_of_taken taken isRow, if_pos setting]
  exact shares

/-- An action, whose key is 0x10 or above, is this member's own. -/
theorem safetyRow_of_action {k : Nat} {keys : Nat → Bool} (ok : SafetyOk m k s) (row : keys k = true) (action : ¬ k < 0x10) :
    s.safetyRow m keys = (((safetyConfigBody (s.ctx m.val) (s.takeMbx m.val)).counted 0x70).apply m.val).rejectHeaders 64 := by
  obtain ⟨taken, rfl, -⟩ := ok
  rw [State.safetyRow, State.lmp_of_taken taken (by simpa using row), if_neg action]

theorem safetyRow_of_towerReset (ok : SafetyOk m 0x10 s) :
    (.next (s.safetyRow m fun k => decide (k = 0x10)) : Answer) =
      waiting m (.towerReset ((s.ctx m.val).u64 16)) ((s.takeMbx m.val).wipeTower ((s.ctx m.val).u64 16)) := by
  rw [safetyRow_of_action ok rfl (by decide), safetyConfigBody_of_safetyOk ok, if_pos rfl, LmpRes.counted, LmpRes.apply, waiting]

theorem safetyRow_of_warmReset (ok : SafetyOk m 0x11 s) :
    (.next (s.safetyRow m fun k => decide (k = 0x11)) : Answer) = applied m s := by
  rw [safetyRow_of_action ok rfl (by decide), safetyConfigBody_of_safetyOk ok, if_neg (by decide), LmpRes.counted,
    if_neg (by decide), LmpRes.apply, applied, ended]

/-! ### TIME_SYNC -/

theorem timeSyncBody_of_timeStepOk (ok : TimeStepOk m s) :
    timeSyncBody (s.ctx m.val) (s.takeMbx m.val) =
      .done stOk 0 (le 8 ((s.ctx m.val).u64 8)) ((s.takeMbx m.val).stepCtc ((s.ctx m.val).u64 8)) := by
  obtain ⟨-, op, pad, period, offset, primary, noUser⟩ := ok
  have primary : (s.takeMbx m.val).isSecondary = false := primary
  have noUser : (s.takeMbx m.val).users = [] := noUser
  simp only [timeSyncBody, op]
  exact checked_runs (by simp only [firstBad, timeSyncFields, op, pad, period, offset]; rfl) (by simp [firstHit, primary, noUser])

theorem timeSyncBody_of_timeSlewOk (ok : TimeSlewOk m s) :
    let left := s.clk.slew + toSigned 64 ((s.ctx m.val).u64 8) * 1000000000
    let r : Nat := (Config.freeValue s.free).toNat % 2 ^ 32 % 200000 + 1
    timeSyncBody (s.ctx m.val) (s.takeMbx m.val) = .done stOk 0 (le 8 s.clk.ctc) { s.takeMbx m.val with
      free := s.free + 1
      clk := { s.clk with
        slewed := true, slew := left, rate := if left = 0 then s.clk.base else if left < 0 then -(r : Int) else (r : Int) } } := by
  obtain ⟨-, op, pad, near, period, offset, primary⟩ := ok
  have primary : (s.takeMbx m.val).isSecondary = false := primary
  simp only [timeSyncBody, op]
  exact checked_runs (by simp only [firstBad, timeSyncFields, op, pad, near, period, offset]; rfl) (by simp [firstHit, primary])

theorem timeSyncBody_of_syncSetOk (ok : SyncSetOk m s) :
    timeSyncBody (s.ctx m.val) (s.takeMbx m.val) = .done stOk 0 (le 8 s.clk.ctc)
      { s.takeMbx m.val with clk := { s.clk with periodMs := (s.ctx m.val).u32 0x10, offsetNs := (s.ctx m.val).u32 0x14 } } := by
  obtain ⟨-, op, pad, zero, least, most, offset, claimed⟩ := ok
  have claimed : (s.takeMbx m.val).claimed 1 = true := claimed
  simp only [timeSyncBody, op]
  exact checked_runs (by simp only [firstBad, timeSyncFields, op, pad, zero, least, most, offset]; rfl) (by simp [firstHit, claimed])

end Settings

/-- Settles O6: a setting is shared, an action is not, and each item's effect is read off `applyItem`. -/
theorem safetyConfig : Obligations.SafetyConfig :=
  ⟨fun _ _ ok => safetyRow_of_setting ok rfl (by decide), fun _ _ ok => safetyRow_of_setting ok rfl (by decide),
    fun _ _ ok => safetyRow_of_setting ok rfl (by decide), fun _ _ ok => safetyRow_of_setting ok rfl (by decide),
    fun _ _ ok => safetyRow_of_setting ok rfl (by decide), fun _ _ ok => safetyRow_of_setting ok rfl (by decide),
    fun _ _ ok => safetyRow_of_towerReset ok, fun _ _ ok => safetyRow_of_warmReset ok,
    fun _ _ _ => ⟨rfl, rfl, rfl, rfl, rfl, rfl, rfl, rfl⟩⟩

/-- Settles O7: each form of the body under its conditions; the rate drawn for a slew lies within 200 ppm. -/
theorem timeSync : Obligations.TimeSync := by
  refine ⟨fun m s ok => ?step, fun m s ok => ?slew, fun m s ok => ?set⟩
  case step => exact lmp_ends ok.1 (by simp [ok.2.1]) (timeSyncBody_of_timeStepOk ok)
  case slew =>
    exact ⟨(Config.freeValue s.free).toNat % 2 ^ 32 % 200000 + 1, Nat.succ_pos _, Nat.mod_lt _ (by decide), lmp_ends ok.1 (by simp [ok.2.1]) (timeSyncBody_of_timeSlewOk ok)⟩
  case set => exact lmp_ends ok.1 (by simp [ok.2.1]) (timeSyncBody_of_syncSetOk ok)

end Sys2Proof.Machine
end

section
/-! Claims and accounts (11 R402, R404; 06 R233). -/

namespace Sys2Proof.Machine

open Sys2Proof.Certs

section Claims
variable {m : Fin 64} {s : State}

/-- A claim that `ClaimOk` allows is added, or where it is one of the two of the East I3C role waits for the handoff. -/
theorem resourceClaimBody_of_claimOk (ok : ClaimOk m s) :
    resourceClaimBody (s.ctx m.val) (s.takeMbx m.val) =
      let c := s.ctx m.val
      let u := s.takeMbx m.val
      let x : Claim := { res := c.u8 0, inst := c.u16 2, mbx := m.val, part := c.part, value := c.u32 4 }
      if c.u8 0 = 4 ∨ c.u8 0 = 5 then .wait .i3cHandoff { u with cam := { s.cam with role := 1, roleClaim := some x } }
      else .done stOk 0 [] { u with claims := s.claims ++ [x], cfgEpoch := (s.cfgEpoch + 1) % 2 ^ 32 } := by
  obtain ⟨-, fields, table, layout, unheld, free, role⟩ := ok
  have admin : ((decide ((s.ctx m.val).u8 0 = 7) || decide ((s.ctx m.val).u8 0 = 8)) && decide ((s.ctx m.val).m ≠ 0)) = false := by
    simpa using fun l => (layout l).1
  have noUsers : ((decide ((s.ctx m.val).u8 0 = 7) || decide ((s.ctx m.val).u8 0 = 8)) && !s.users.isEmpty) = false := by
    simpa using fun l => (layout l).2
  have unlocked : decide (0x10 ≤ (s.ctx m.val).u8 0) = false := by simpa using table
  simp only [resourceClaimBody, State.takeMbx_users, State.takeMbx_cam, admin, noUsers, unlocked, Bool.false_eq_true,
    if_false, checked, fields, firstHit, unheld, free]
  by_cases east : (s.ctx m.val).u8 0 = 4 ∨ (s.ctx m.val).u8 0 = 5
  · simp [east, role east]
  · simp [east, State.bump]

/-- A claim that the mailbox holds is dropped. -/
theorem resourceReleaseBody_of_releaseOk {x : Claim} (ok : ReleaseOk m x s) :
    resourceReleaseBody (s.ctx m.val) (s.takeMbx m.val) =
      .done stOk 0 [] ((s.takeMbx m.val).dropClaims fun x =>
        decide (x.res = (s.ctx m.val).u8 0) && decide (x.inst = (s.ctx m.val).u16 2)).bump := by
  obtain ⟨-, fields, table, held, mine, layout⟩ := ok
  have noUsers : ((decide ((s.ctx m.val).u8 0 = 7) || decide ((s.ctx m.val).u8 0 = 8)) && !s.users.isEmpty) = false := by
    simpa using layout
  have unlocked : decide (0x10 ≤ (s.ctx m.val).u8 0) = false := by simpa using table
  simp only [resourceReleaseBody, State.ctx_m, State.takeMbx_users, noUsers, unlocked, held, mine, decide_true, Bool.not_true,
    checked, fields, firstHit, Bool.false_eq_true, if_false]

/-- A record that the sender may read is answered, and starts anew where the request says so. -/
theorem accountingReadBody_of_accountingOk (ok : AccountingOk m s) :
    accountingReadBody (s.ctx m.val) (s.takeMbx m.val) =
      let c := s.ctx m.val
      let u := s.takeMbx m.val
      let a : Acct :=
        if c.u8 0 = 0 then tget ({} : Acct) s.sch.clients (c.u8 1) else if c.u8 0 = 1 then (s.part (c.u8 1)).acct else s.sch.system
      let z : Acct := { since := s.clk.ctc }
      .done stOk 0 a.bytes
        (if c.u8 2 = 0 then u
         else if c.u8 0 = 0 then { u with sch := { s.sch with clients := tput {} s.sch.clients (c.u8 1) z } }
         else if c.u8 0 = 1 then u.modPart (c.u8 1) fun x => { x with acct := z }
         else { u with sch := { s.sch with system := z } }) := by
  obtain ⟨-, record, clear, reserved⟩ := ok
  unfold accountingReadBody
  have admin (h : m.val = 0) : (m = 0) = True := eq_true (Fin.ext h)
  rcases record with ⟨client, inRange, zero | own⟩ | ⟨partition, named, zero | own⟩ | ⟨system, all, zero⟩
  · simp [client, inRange, admin zero, clear, reserved, checked, firstBad, firstHit]
  · simp [client, own, Nat.le_of_lt_succ m.isLt, clear, reserved, checked, firstBad, firstHit]
  · simp [partition, named, admin zero, clear, reserved, checked, firstBad, firstHit]
  · simp [partition, own, own ▸ named, clear, reserved, checked, firstBad, firstHit]
  · simp [system, all, admin zero, clear, reserved, checked, firstBad, firstHit]

end Claims

/-- Settles O8: each body run under its conditions, as the answer of the command that is taken. -/
theorem claimsAndAccounts : Obligations.ClaimsAndAccounts := by
  refine ⟨fun m s ok => ?claim, fun m x s ok => ?release, fun m s ok => ?read⟩
  case claim => exact lmp_holds_or_ends ok.1 (isOp_self _) (resourceClaimBody_of_claimOk ok)
  case release => exact lmp_ends ok.1 (isOp_self _) (resourceReleaseBody_of_releaseOk ok)
  case read => exact lmp_ends ok.1 (isOp_self _) (accountingReadBody_of_accountingOk ok)

end Sys2Proof.Machine
end

section
/-! The reports that a mailbox and a safety mailbox may ask for (12 R431, R432): error records (13 R452), SELFTEST_STATUS (R453),
configuration roots (R455) and ATTEST (R456). -/

namespace Sys2Proof.Machine

open Sys2Proof.Certs

/-! ### The answer of such a command -/

section AnySource
variable {src : CmdSrc} {op : Nat} {s : State}

@[simp] theorem anyState_recs : (anyState src s).recs = s.recs := by
  cases src with
  | mbx m => exact s.takeMbx_recs m.val
  | sm l => rfl

@[simp] theorem anyState_saf : (anyState src s).saf = s.saf := by
  cases src with
  | mbx m => exact s.takeMbx_saf m.val
  | sm l => rfl

@[simp] theorem anyState_bs : (anyState src s).bs = s.bs := by
  cases src with
  | mbx m => exact s.takeMbx_bs m.val
  | sm l => rfl

@[simp] theorem anyState_otp : (anyState src s).otp = s.otp := by
  cases src with
  | mbx m => exact s.takeMbx_otp m.val
  | sm l => rfl

@[simp] theorem anyState_cfgEpoch : (anyState src s).cfgEpoch = s.cfgEpoch := by
  cases src with
  | mbx m => exact s.takeMbx_cfgEpoch m.val
  | sm l => rfl

theorem lmpAny_ends {body : Ctx → State → LmpRes} {out : List Byte} {u : State} (taken : AnyTaken src op s)
    (runs : body (anyCtx src s) (anyState src s) = .done stOk 0 out u) :
    (.next (s.lmpAny src op body) : Answer) = anyEnded src out u := by
  cases src with
  | mbx m => exact lmp_ends taken (isOp_self _) runs
  | sm l =>
    obtain ⟨busy, opcode, length⟩ := taken
    have runs : body (s.smCtx l.val) s = .done stOk 0 out u := runs
    simp [State.lmpAny, State.smLmp, busy, opcode, length, runs, anyEnded]

/-! ### Error records and the self-test (13 R452, R453) -/

theorem errorsReadBody_of_errorsReadOk (ok : ErrorsReadOk src s) :
    let c := anyCtx src s
    let u := anyState src s
    let all := (sourcesFrom (c.u16 0)).filter fun x => decide (c.u8 3 = 0) || decide ((tget {} (u.mirror c) x).sticky ≠ 0)
    let got := all.take (c.u8 2)
    let next := if got.length < c.u8 2 then none else match got.getLast? with
      | some x => (sourcesFrom (x + 1)).head?
      | none => none
    errorsReadBody c u = .done stOk 0 (le 2 got.length ++ le 2 (next.getD 0xFFFF) ++ le 4 0 ++
        got.flatMap fun x => ((tget {} (u.mirror c) x).words x).flatMap fun w => le 8 w) u := by
  obtain ⟨-, single, least, most, filter, pad⟩ := ok
  generalize anyCtx src s = c at *
  simp only [errorsReadBody]
  refine checked_runs ?_ rfl
  cases wire : c.i3c with
  | true => simp [firstBad, single wire, filter, pad]
  | false => simp [firstBad, least, most, filter, pad]

theorem errorsClearBody_of_errorsClearOk (ok : ErrorsClearOk src s) :
    let c := anyCtx src s
    let u := anyState src s
    let seq := (s.recs.seq + 1) % 2 ^ 32
    let r := (u.errRec (c.u16 0)).clear (BitVec.ofNat 64 (c.u64 8)) (u.heldBits (c.u16 0)) seq
    errorsClearBody c u =
      .done stOk 0 (le 8 r.sticky.toNat ++ le 8 r.gen) (({ u with recs := { u.recs with seq := seq } }).putRec (c.u16 0) r) := by
  obtain ⟨-, used, pad, gen⟩ := ok
  have gen : (anyCtx src s).u8 2 = ((anyState src s).errRec ((anyCtx src s).u16 0)).gen := by
    rw [gen, State.errRec, State.errRec, anyState_recs]
  rw [← anyState_recs (src := src)]
  simp only [errorsClearBody]
  exact checked_runs (by simp [firstBad, used, pad]) (by simp [firstHit, gen])

end AnySource

/-- Settles O9: each body under its conditions, as the answer of the mailbox or the safety mailbox. -/
theorem errorReports : Obligations.ErrorReports := by
  refine ⟨fun src s ok => lmpAny_ends ok.1 (errorsReadBody_of_errorsReadOk ok),
    fun src s ok => lmpAny_ends ok.1 (errorsClearBody_of_errorsClearOk ok), fun src rot ctc res s taken last => ?status⟩
  exact lmpAny_ends taken (by simp only [selftestStatusBody, anyState_saf, last])

/-! ### Configuration roots and attestation (13 R455, R456) -/

section Roots
variable {src : CmdSrc} {s : State}

theorem configRootBody_of_rootGetOk {mode : Nat} (ok : RootGetOk src mode s) :
    let c := anyCtx src s
    let u := anyState src s
    let all := (u.holders (c.u8 1)).filter fun x => decide (c.u16 2 ≤ x)
    let k := if c.i3c then 2 else 100
    configRootBody c u = .done stOk 0
      (if mode = 0 then le 4 s.cfgEpoch ++ le 4 0 ++ u.croot
       else if mode = 1 then le 4 s.cfgEpoch ++ le 4 0 ++ u.croot ++ (List.range 17).flatMap u.sroot
       else le 2 (min k all.length) ++ le 2 ((all.drop k).headD 0xFFFF) ++ le 4 s.cfgEpoch ++
         (all.take k).flatMap fun x => le 2 x ++ le 6 0 ++ u.leaf x (c.u8 1)) u := by
  obtain ⟨-, rfl, section_, pad, form⟩ := ok
  rw [← anyState_cfgEpoch (src := src)]
  generalize anyCtx src s = c at *
  generalize anyState src s = u
  have formOk : (decide (c.u8 0 ≤ 2) && !(c.i3c && decide (c.u8 0 = 1))) = true := by
    rcases form with root | ⟨sections, mailbox⟩ | leaves
    · simp [root]
    · simp [sections, mailbox]
    · simp [leaves]
  simp only [configRootBody]
  rw [checked_runs ?fields rfl]
  case fields => simp only [firstBad, formOk, section_, pad]; rfl
  rw [apply_ite (fun out => LmpRes.done stOk 0 out u), apply_ite (fun out => LmpRes.done stOk 0 out u)]

/-- The report that ATTEST answers a part of, and the state that keeps it. -/
def State.attested (u : State) (nonce : List Byte) (l : Nat) : List Byte × State :=
  match u.bs.reports.find? fun r => decide (r.1 = nonce) with
  | some r => (r.2, u)
  | none =>
    let t := u.attestReport nonce l
    (t.1, { t.2 with bs := { t.2.bs with reports := (nonce, t.1) :: t.2.bs.reports } })

theorem attestBody_of_attestOk (ok : AttestOk src s) :
    let c := anyCtx src s
    let u := anyState src s
    let off := c.u16 0x10
    let n := if c.i3c then min 112 (258 - off) else 258 - off
    let t := u.attested (c.pl.take 16) (if c.i3c then c.m - 64 else u.poster)
    attestBody c u = .done stOk 0 (le 2 258 ++ le 2 off ++ le 2 n ++ le 2 0 ++ (t.1.drop off).take n) t.2 := by
  obtain ⟨-, within, pad, usable⟩ := ok
  rw [← anyState_otp (src := src)] at usable
  generalize anyCtx src s = c at *
  generalize anyState src s = u at *
  simp only [attestBody]
  exact checked_runs (by simp [firstBad, within, pad]) (by simp [firstHit, usable])

end Roots

/-- Settles O10: each body under its conditions; a nonce's report is made when the first command asks for it. -/
theorem rootsAndReports : Obligations.RootsAndReports := by
  refine ⟨fun src mode s ok => lmpAny_ends ok.1 (configRootBody_of_rootGetOk ok), fun src s ok => ?attest⟩
  have ends := lmpAny_ends ok.1 (attestBody_of_attestOk ok)
  dsimp only
  cases kept : s.bs.reports.find? fun r => decide (r.1 = (anyCtx src s).pl.take 16) with
  | some r =>
    simp only [State.attested, anyState_bs, kept] at ends
    exact ends
  | none =>
    simp only [State.attested, anyState_bs, kept] at ends
    exact ends

end Sys2Proof.Machine
end

section
/-! Firmware's own commands: the life-cycle, the thermal policy, staging and activation (13 R455, R460, R461). -/

namespace Sys2Proof.Machine

open Sys2Proof.Certs

section Firmware
variable {m : Fin 64} {s : State}

/-- A listed transition that a key of it signs is set, with the warm reset 1 ms later (14 R462, R480). -/
theorem lifecycleBody_of_signed {keys : List (List Byte)} (ok : LifecycleOk m keys s)
    (signed : (keys.any fun k => edVerify k [] (le 8 s.otp.uid ++ le 1 s.otp.lc ++ le 1 ((s.ctx m.val).u8 0))
      (((s.ctx m.val).pl.drop 8).take 114)) = true) :
    lifecycleBody (s.ctx m.val) (s.takeMbx m.val) = .done stOk 0 [] { s.takeMbx m.val with bs := { s.bs with
      delayed := some (2, s.clk.elapsed + 1000000), lcTo := some ((s.ctx m.val).u8 0) } } := by
  obtain ⟨-, target, pad, tail, listed, count, users⟩ := ok
  have listed' : (s.takeMbx m.val).transitionKeys ((s.ctx m.val).u8 0) = some keys := listed
  have fuses : s.otp.count < 15 ∨ (s.ctx m.val).u8 0 = 5 := count
  simp only [lifecycleBody, State.takeMbx_otp, State.takeMbx_users, listed', target, pad, tail, users, Option.getD_some, signed]
  rw [checked_runs (by simp [firstBad]) (by simpa [firstHit, or_iff_not_imp_left] using fuses)]
  rfl

/-- A listed transition that no key of it signs is refused (14 R480). -/
theorem lifecycleBody_of_unsigned {keys : List (List Byte)} (ok : LifecycleOk m keys s)
    (unsigned : (keys.any fun k => edVerify k [] (le 8 s.otp.uid ++ le 1 s.otp.lc ++ le 1 ((s.ctx m.val).u8 0))
      (((s.ctx m.val).pl.drop 8).take 114)) = false) :
    lifecycleBody (s.ctx m.val) (s.takeMbx m.val) = .refuse stAuth 0 (s.takeMbx m.val) := by
  obtain ⟨-, target, pad, tail, listed, -, -⟩ := ok
  have listed' : (s.takeMbx m.val).transitionKeys ((s.ctx m.val).u8 0) = some keys := listed
  simp only [lifecycleBody, State.takeMbx_otp, listed', target, pad, tail, Option.getD_some, unsigned]
  rfl

theorem thermalPolicyBody_of_thermalPolicyOk (ok : ThermalPolicyOk m s) :
    thermalPolicyBody (s.ctx m.val) (s.takeMbx m.val) = .done stOk 0
      (le 2 s.heat.cool.allow ++ le 1 (if s.heat.cool.survival.isSome then 1 else 0) ++ le 5 0)
      { s.takeMbx m.val with heat := { s.heat with cool := { s.heat.cool with
        newProtect := BitVec.ofNat 16 ((s.ctx m.val).u16 0), newNom := (s.ctx m.val).u16 2
        handover := decide ((s.ctx m.val).u8 4 = 1) } } } := by
  obtain ⟨-, mask, low, high, handover, pad⟩ := ok
  rw [thermalPolicyBody, checked_runs (by simp [firstBad, mask, low, high, handover, pad]) rfl]
  rfl

/-- An image that can be read is checked, and staged where every check passes (14 R474). -/
theorem fwStageBody_of_good {f : FwImage} (ok : FwStageOk m s)
    (good : (s.takeMbx m.val).checkImage ((s.takeMbx m.val).rd ((s.ctx m.val).u64 0) ((s.ctx m.val).u32 8)) = .inl f) :
    fwStageBody true (s.ctx m.val) (s.takeMbx m.val) = .done stOk 0 (le 4 f.version ++ le 4 f.rollback ++ f.meas)
      { s.takeMbx m.val with bs := { s.bs with staging := some ((s.ctx m.val).u8 0xC, f.meas, false) } } := by
  obtain ⟨-, base, limit, least, most, slot, pad, readable⟩ := ok
  simp only [fwStageBody]
  rw [checked_runs (by simp [firstBad, base, limit, least, most, slot, pad]) (by simp [firstHit, readable]), good]
  rfl

/-- The status of an image that fails a check is that of the check (14 R474). -/
theorem fwStageBody_of_bad {code : Nat} (ok : FwStageOk m s)
    (bad : (s.takeMbx m.val).checkImage ((s.takeMbx m.val).rd ((s.ctx m.val).u64 0) ((s.ctx m.val).u32 8)) = .inr code) :
    fwStageBody true (s.ctx m.val) (s.takeMbx m.val) =
      if code ≤ fwLifecycle then .refuse 0x0200 code (s.takeMbx m.val)
      else if code ≤ fwDigest then .refuse stAuth 0 (s.takeMbx m.val)
      else .refuse 0x0201 0 (s.takeMbx m.val) := by
  obtain ⟨-, base, limit, least, most, slot, pad, readable⟩ := ok
  simp only [fwStageBody]
  rw [checked_runs (by simp [firstBad, base, limit, least, most, slot, pad]) (by simp [firstHit, readable]), bad]

theorem fwActivateBody_of_fwActivateOk {meas : List Byte} {act : Bool} (ok : FwActivateOk m meas act s) :
    fwActivateBody (s.ctx m.val) (s.takeMbx m.val) = .done stOk 0 [] { s.takeMbx m.val with bs := { s.bs with
      staging := some ((s.ctx m.val).u8 0, meas, true), delayed := some (3, s.clk.elapsed + 1000000) } } := by
  obtain ⟨-, slot, pad, staged, idle⟩ := ok
  simp only [fwActivateBody, State.takeMbx_bs, State.takeMbx_tw, staged]
  rw [checked_runs (by simp [firstBad, slot, pad]) (by simpa [firstHit, or_iff_not_imp_left] using idle)]
  rfl

end Firmware

/-- Settles O11: each body run under its conditions, as the answer of the command that is taken. -/
theorem firmwareCommands : Obligations.FirmwareCommands := by
  refine ⟨fun m keys s ok => ⟨fun signed => ?signed, fun unsigned => ?unsigned⟩, fun m s ok => ?thermal, fun m s ok => ?stage,
    fun m meas act s ok => ?activate⟩
  case signed => exact lmp_ends ok.1 (isOp_self _) (lifecycleBody_of_signed ok signed)
  case unsigned => exact lmp_fails ok.1 (isOp_self _) (by decide) (lifecycleBody_of_unsigned ok unsigned)
  case thermal => exact lmp_ends ok.1 (isOp_self _) (thermalPolicyBody_of_thermalPolicyOk ok)
  case stage =>
    refine ⟨fun f good => ?_, fun code bad low => ?_, fun code bad low high => ?_, fun code bad high => ?_⟩
    · exact lmp_ends ok.1 (isOp_self _) (fwStageBody_of_good ok good)
    · exact lmp_fails ok.1 (isOp_self _) (by decide) ((fwStageBody_of_bad ok bad).trans (if_pos low))
    · exact lmp_fails ok.1 (isOp_self _) (by decide)
        ((fwStageBody_of_bad ok bad).trans ((if_neg low.not_ge).trans (if_pos high)))
    · have pastLifecycle : fwLifecycle < code := (by decide : fwLifecycle < fwDigest).trans high
      exact lmp_fails ok.1 (isOp_self _) (by decide)
        ((fwStageBody_of_bad ok bad).trans ((if_neg pastLifecycle.not_ge).trans (if_neg high.not_ge)))
  case activate => exact lmp_ends ok.1 (isOp_self _) (fwActivateBody_of_fwActivateOk ok)

end Sys2Proof.Machine
end

section
/-! The twin commands (10 R354, R357, R368, R370; 13 R454). -/

namespace Sys2Proof.Machine

open Sys2Proof.Certs

section Pair
variable {m : Fin 64} {s : State}

/-- A key that is presented changes what the boot registers hold of it alone (14 R477). -/
theorem State.presentRoot_frame (s : State) (key : List Byte) : s.presentRoot key = { s with bs := (s.presentRoot key).bs } := by
  unfold State.presentRoot
  split <;> rfl

/-- A record this member may accept: it is a member, and the root key is OTP's and no other than one presented before (14 R477). -/
theorem pairAllowed_iff {r : List Byte} :
    pairAllowed s r = true ↔ (s.memberOf r).isSome = true ∧ s.otp.rootOk (recRoot r) = true ∧
      ∀ k, s.bs.oemKey = some k → k = recRoot r := by
  unfold pairAllowed
  cases s.bs.oemKey <;> simp [and_assoc]

theorem twinPairBody_of_allowed {nonce : List Byte} (ok : TwinPairOk m s) (allowed : pairAllowed s (s.ctx m.val).pl = true) :
    let r := (s.ctx m.val).pl
    let u := (s.takeMbx m.val).presentRoot (recRoot r)
    twinPairBody nonce (s.ctx m.val) (s.takeMbx m.val) = .wait .pair (({ u with tw := { s.tw with
      record := some r, member := (s.memberOf r).getD 0, nonce := nonce, pairBy := s.clk.elapsed + 10000000000 } } : State).send
        (.auth nonce [])) := by
  obtain ⟨-, mode, form, entropy, unpaired⟩ := ok
  obtain ⟨known, root, same⟩ := pairAllowed_iff.1 allowed
  obtain ⟨i, member⟩ := Option.isSome_iff_exists.1 known
  simp only [twinPairBody]
  rw [checked_runs (by simp [firstBad, mode, form]) ?conditions, if_neg (by simpa using unpaired), State.presentRoot_frame]
  · rfl
  case conditions =>
    cases key : s.bs.oemKey with
    | none => simp [firstHit, key, member, root, entropy, unpaired]
    | some k => simp [firstHit, key, member, root, same k key, entropy, unpaired]

/-- A record this member may not accept fails the first condition (13 R454). -/
theorem twinPairBody_of_barred {nonce : List Byte} (ok : TwinPairOk m s) (barred : pairAllowed s (s.ctx m.val).pl = false) :
    twinPairBody nonce (s.ctx m.val) (s.takeMbx m.val) = .refuse stAuth 0 (s.takeMbx m.val) := by
  obtain ⟨-, mode, form, -, -⟩ := ok
  unfold pairAllowed at barred
  simp only [twinPairBody, checked]
  cases known : s.memberOf (s.ctx m.val).pl with
  | none => simp [firstBad, firstHit, mode, form, known]
  | some i =>
    cases root : s.otp.rootOk (recRoot (s.ctx m.val).pl) with
    | false => simp [firstBad, firstHit, mode, form, known, root]
    | true =>
      cases key : s.bs.oemKey with
      | none => simp [known, root, key] at barred
      | some k =>
        have other : k ≠ recRoot (s.ctx m.val).pl := by simpa [known, root, key] using barred
        simp [firstBad, firstHit, mode, form, known, root, key, other]

end Pair

/-- Settles O12: each body run under its conditions, as the answer of the command that is taken. -/
theorem twinCommands : Obligations.TwinCommands := by
  refine ⟨fun m nonce s ok => ⟨fun allowed => ?paired, fun barred => ?barred⟩, fun m diff det s ok => ?role, fun m s ok => ?standDown,
    fun m s ok => ?handover⟩
  case paired => exact lmp_holds ok.1 (isOp_self _) (twinPairBody_of_allowed ok allowed)
  case barred => exact lmp_fails ok.1 (isOp_self _) (by decide) (twinPairBody_of_barred ok barred)
  case role =>
    obtain ⟨taken, mode, act, mirror, home, pad, paired, primary, free⟩ := ok
    refine lmp_shared_ends taken (by simp [act]) ?_
    simp only [twinRoleBody]
    rw [checked_runs (by simp [-BitVec.getLsbD_eq_getElem, firstBad, mode, act, mirror, home, pad]) (by simp [firstHit, paired, primary, free])]
  case standDown =>
    obtain ⟨taken, mode, act, mirror, home, pad, lost⟩ := ok
    refine lmp_ends taken (by simp [act]) ?_
    rw [standDownBody, checked_runs (by simp [firstBad, mode, act, mirror, home, pad]) (by simp [firstHit, lost])]
    rfl
  case handover =>
    obtain ⟨taken, admin, soon, pad, paired, idle, ready⟩ := ok
    refine lmp_holds taken (isOp_self _) ?_
    simp only [twinHandoverBody]
    rw [checked_runs (by simp [-BitVec.getLsbD_eq_getElem, firstBad, admin, soon, pad]) (by simpa [firstHit, paired, idle] using ready)]
    rfl

end Sys2Proof.Machine
end

section
/-! Streams and displays (13 R448, R449; 11 R380 to R398), and the planning commands (13 R450; 05 R165, R176, R177). -/

namespace Sys2Proof.Machine

open Sys2Proof.Certs

section Bindings
variable {m : Fin 64} {s : State}

/-! ### Streams and displays -/

theorem streamUnbindBody_of_streamUnbindOk {x : Claim} (ok : StreamUnbindOk m x s) :
    let k := 16 * (s.ctx m.val).u8 0 + (s.ctx m.val).u8 1
    streamUnbindBody (s.ctx m.val) (s.takeMbx m.val) =
      .wait (.streamUnbind k) ((s.takeMbx m.val).modStream k fun x => { x with unbind := true }) := by
  obtain ⟨-, link, channel, pad, claim, holder⟩ := ok
  have claim : (s.takeMbx m.val).claimOf 0x20 (16 * (s.ctx m.val).u8 0 + (s.ctx m.val).u8 1) = some x := claim
  simp only [streamUnbindBody, claim, holder]
  exact checked_runs (by simp only [firstBad, link, channel, pad]; rfl) (by simp [firstHit])

theorem displayBindBody_of_displayBindOk (ok : DisplayBindOk m s) :
    let c := s.ctx m.val
    let b : Binding := { pl := c.pl, mbx := m.val, part := c.part }
    let t : State := { s.takeMbx m.val with claims := s.claims ++ [{ res := 0x21, inst := c.u8 0, mbx := m.val, part := c.part }] }
    displayBindBody c (s.takeMbx m.val) = .wait (.displayBind (c.u8 0))
      (t.modDisplay (c.u8 0) fun d => { d with next := some b, nextAt := s.clk.ctc + 1000000 }) := by
  obtain ⟨-, fields, unclaimed, noConflict, noChange⟩ := ok
  simp only [displayBindBody, unclaimed, noConflict, noChange, Bool.false_eq_true, if_false]
  exact checked_runs fields rfl

/-! ### Planning -/

theorem worldUpdateBody_of_worldUpdateOk (ok : WorldUpdateOk m s) :
    let c := s.ctx m.val
    let u := s.takeMbx m.val
    let es := (u.edits (c.u64 0) (c.u16 8)).1
    worldUpdateBody c u = .wait (.world ((((u.eng u.liveEngine).ahead u.detSearches).epoch + 1) % 2 ^ 32))
      ((List.range 2).foldl (fun s e => if s.engOut e then s else s.modEng e fun y => { y with updates := y.updates ++ [es] }) u) := by
  obtain ⟨-, owner, da, lines, least, most, pad, region, accepted⟩ := ok
  generalize s.ctx m.val = c at *
  generalize s.takeMbx m.val = u at *
  simp only [worldUpdateBody, owner, ne_eq, not_true_eq_false, if_false]
  rw [checked_runs ?fields rfl]
  case fields => simp only [firstBad, da, lines, pad, decide_eq_true (And.intro least most)]; rfl
  rw [region, accepted]
  rfl

theorem planRequestBody_of_planRequestOk {id : Nat} (ok : PlanRequestOk m id s) :
    let c := s.ctx m.val
    let u := s.takeMbx m.val
    let r : PlanReq := { mbx := m.val, part := c.part, desc := u.words (c.u64 0) 28 }
    let e := u.pickEngine r
    let g := tget 0 s.plan.gens id
    planRequestBody c u = .done stOk 0 (le 2 id ++ le 1 g ++ le 1 e ++ le 4 0)
      (u.modEng e fun x => { x with queue := x.queue ++ [{ r with id := id, gen := g }] }) := by
  obtain ⟨-, role, da, lines, region, free, formed, room, serves, dual⟩ := ok
  rw [← s.takeMbx_plan m.val]
  simp only [planRequestBody, role, if_false]
  rw [checked_runs ?fields rfl, free]
  case fields => simp only [firstBad, da, lines, region]; rfl
  refine checked_runs ?inner ?conds
  case inner => exact if_pos formed
  case conds =>
    have allowed (r : PlanReq) (dual : r.isDual = false ∨ (s.takeMbx m.val).holdsDual (s.ctx m.val).part = true) :
        ¬ (r.isDual && !(s.takeMbx m.val).holdsDual (s.ctx m.val).part) = true := by
      rcases dual with single | holds
      · rw [single]; simp
      · rw [holds]; simp
    exact (if_neg fun full => room.not_ge (of_decide_eq_true full)).trans ((if_neg (Bool.eq_false_iff.1 serves)).trans (if_neg (allowed _ dual)))

theorem planCancelBody_of_planCancelOk (ok : PlanCancelOk m s) :
    let c := s.ctx m.val
    let mine (r : PlanReq) : Bool := decide (r.id = c.u16 0) && decide (r.gen = c.u8 2) && decide (r.part = c.part)
    planCancelBody c (s.takeMbx m.val) = .done stOk 0 []
      (((s.takeMbx m.val).modEng 0 fun y => { y with queue := y.queue.filter fun r => !mine r }).endPlanId (c.u16 0)) := by
  obtain ⟨-, pad, tail, idle, waits⟩ := ok
  have idle : ((s.takeMbx m.val).eng 0).cur = none := idle
  have waits : ((s.takeMbx m.val).eng 0).queue.any (fun r => decide (r.id = (s.ctx m.val).u16 0) &&
    decide (r.gen = (s.ctx m.val).u8 2) && decide (r.part = (s.ctx m.val).part)) = true := waits
  generalize s.ctx m.val = c at *
  generalize s.takeMbx m.val = u at *
  have atZero (p : Nat → Bool) (here : p 0 = true) : (List.range 2).find? p = some 0 := by
    rw [List.range_succ_eq_map, List.find?_cons_of_pos here]
  simp only [planCancelBody]
  rw [checked_runs ?fields rfl, atZero _ (by rw [waits]; rfl)]
  case fields => simp only [firstBad, pad, tail]; rfl
  simp only [idle]

end Bindings

/-- Settles O13: each body under its conditions; a bound slot takes the binding as its next one. -/
theorem streamCommands : Obligations.StreamCommands := by
  refine ⟨fun m nonce s ⟨taken, fields, conds⟩ => ?bind, fun m x s ok => ?unbind, fun m s ok => ?display⟩
  case bind =>
    dsimp only
    cases bound : (s.stream (16 * (s.ctx m.val).u8 0 + (s.ctx m.val).u8 1)).bind with
    | some old =>
      have bound : ((s.takeMbx m.val).stream (16 * (s.ctx m.val).u8 0 + (s.ctx m.val).u8 1)).bind = some old := bound
      exact lmp_holds taken (isOp_self _) (by simp only [streamBindBody]; rw [checked_runs fields conds, bound]; rfl)
    | none =>
      have bound : ((s.takeMbx m.val).stream (16 * (s.ctx m.val).u8 0 + (s.ctx m.val).u8 1)).bind = none := bound
      exact lmp_ends taken (isOp_self _) (by simp only [streamBindBody]; rw [checked_runs fields conds, bound]; rfl)
  case unbind => exact lmp_holds ok.1 (isOp_self _) (streamUnbindBody_of_streamUnbindOk ok)
  case display => exact lmp_holds ok.1 (isOp_self _) (displayBindBody_of_displayBindOk ok)

/-- Settles O14: each body under its conditions; only the world is a section both twin members hold. -/
theorem planningCommands : Obligations.PlanningCommands :=
  ⟨fun _ _ ok => lmp_shared_holds (of := ofClient) ok.1 (isOp_self _) (worldUpdateBody_of_worldUpdateOk ok),
    fun _ _ _ ok => lmp_ends ok.1 (isOp_self _) (planRequestBody_of_planRequestOk ok),
    fun _ _ ok => lmp_ends ok.1 (isOp_self _) (planCancelBody_of_planCancelOk ok)⟩

end Sys2Proof.Machine
end

section
/-! The Twin Link's events (10 R352 to R377; 08 R299; 13 R454). -/

namespace Sys2Proof.Machine

open Sys2Proof.Certs

/-! ### Flits, ports and pairing -/

section Link
variable {s : State}

/-- A good flit in sequence is heard as `flitTaken` says. -/
theorem modTport_hear_of_fresh {port : Fin 2} {f : Flit} (inOrder : f.seq = (s.tport port.val).rxNext) :
    s.modTport port.val (fun p => p.hear f s.clk.elapsed (decide (f.seq = (s.tport port.val).rxNext))) = flitTaken port f s :=
  (congrArg (fun fresh => s.modTport port.val fun p => p.hear f s.clk.elapsed fresh) (decide_eq_true inOrder)).trans rfl

theorem execTwinFlitReceive_of_flitOk {port : Fin 2} {f : Flit} (ok : FlitOk port f s) :
    execTwinFlitReceive port f s = .next ((flitTaken port f s).deliver f.msg) := by
  obtain ⟨crc, cls, inOrder, paired⟩ := ok
  have paired : (flitTaken port f s).tw.st = 1 := paired
  simp only [execTwinFlitReceive, modTport_hear_of_fresh inOrder]
  simp [crc, cls, inOrder, paired]

/-- The message awaited is delivered at once when it comes and no other is held. -/
theorem State.drainControl_awaited {x : TwinMsg} (held : s.tw.ctlHeld = [(s.tw.ctlNext, x)]) :
    s.drainControl 1 = ({ s with tw := { s.tw with ctlNext := (s.tw.ctlNext + 1) % 2 ^ 32, ctlHeld := [] } } : State).deliver x := by
  simp [State.drainControl, held]

theorem execTwinFlitReceive_of_controlFlitOk {port : Fin 2} {f : Flit} (ok : ControlFlitOk port f s) :
    execTwinFlitReceive port f s = .next
      (({ flitTaken port f s with tw := { (flitTaken port f s).tw with
          ctlNext := (s.tw.ctlNext + 1) % 2 ^ 32, ctlHeld := [] } } : State).deliver f.msg) := by
  obtain ⟨crc, cls, inOrder, paired, awaited, noneHeld, range⟩ := ok
  have paired : (flitTaken port f s).tw.st = 1 := paired
  have noneHeld : (flitTaken port f s).tw.ctlHeld = [] := noneHeld
  have next : (flitTaken port f s).tw.ctlNext = s.tw.ctlNext := rfl
  have notOld : ¬ 2 ^ 31 ≤ (s.tw.ctlNext + 2 ^ 32 - s.tw.ctlNext) % 2 ^ 32 := by omega
  simp only [execTwinFlitReceive, modTport_hear_of_fresh inOrder, noneHeld, next, awaited, Nat.mod_eq_of_lt range]
  simp only [crc, cls, inOrder, paired, notOld]
  exact congrArg Host.Outcome.next (State.drainControl_awaited rfl)

theorem execTwinPortDown_of_up {port : Fin 2} (up : (s.tport port.val).down = false) :
    execTwinPortDown port false s = .next
      (((s.elapse ((s.tport port.val).lastGood + 30000 - s.clk.elapsed)).portDown port.val).record (srcIo port.val 6) 42 lvUnit {}) := by
  simp [execTwinPortDown, up, State.twinFault]

theorem State.pairAuth_of_record {nonce sig r : List Byte} {vmin vmax : Nat} (record : s.tw.record = some r) (unpaired : s.tw.st ≠ 1)
    (whole : s.tw.split = false) :
    let me := s.tw.member
    let prim := decide (leNat (recBytes r 8 1) = me)
    let np := if prim then s.tw.nonce else nonce
    let ns := if prim then nonce else s.tw.nonce
    let fw := s.bs.fw.getD {}
    let t := s.send (.auth s.tw.nonce (edSign s.otp.skId (ascii "AZL-TWIN") (pairMsg r np ns fw.twinMin fw.twinMax)))
    s.pairAuth nonce sig vmin vmax =
      (if (edVerify (recKey r (1 - me)) (ascii "AZL-TWIN") (pairMsg r np ns vmin vmax) sig &&
          edVerify (recRoot r) [] (recKey r (1 - me) ++ recUid r (1 - me)) (recCert r (1 - me)) && !s.noEntropy) = false then
        (t.record (srcIo 0 6) 42 lvUnit {}).finishAll .pair stAuth 0 []
      else if min fw.twinMax vmax < max fw.twinMin vmin then (t.record (srcIo 0 6) 42 lvUnit {}).finishAll .pair stVersion 0 []
      else t.enterPair r (min fw.twinMax vmax)) := by
  have refused (a b c : Bool) : (!a || !b || c) = true ↔ (a && b && !c) = false := by cases a <;> cases b <;> cases c <;> decide
  simp only [State.pairAuth, record, unpaired, whole, Bool.false_eq_true, or_self, if_false]
  simp only [refused]
  rfl

end Link

/-- Settles O15: a flit that is heard, a port that goes silent, and the exchange of 10 R355. -/
theorem twinLinkEvents : Obligations.TwinLinkEvents := by
  refine ⟨fun port f s ok => execTwinFlitReceive_of_flitOk ok, fun port f s ok => execTwinFlitReceive_of_controlFlitOk ok,
    fun port f s bad => ?garbled, fun port s up => ?idle, fun port s up => execTwinPortDown_of_up up,
    fun nonce sig vmin vmax r s record unpaired whole => congrArg _ (State.pairAuth_of_record record unpaired whole),
    fun s waits => if_pos waits⟩
  case garbled => exact if_pos (by rw [bad]; rfl)
  case idle => exact congrArg _ (if_neg (by simp [up]))

/-! ### Launches of a pair -/

section Launches
variable {s : State}

theorem execLaunchLogTimeout_of_waits {p : Fin 16} {m step : Nat} {out : List Byte} (range : m < 64)
    (waits : (s.mbx m).wait = some (.launchLog p.val step out)) :
    execLaunchLogTimeout p s = .next
      (((s.logDone fun q _ => decide (q = p.val)).modTwp p.val fun t => { t with ready := false }).postTwin 3 p.val) := by
  simp only [execLaunchLogTimeout]
  exact if_pos (List.any_eq_true.2 ⟨m, List.mem_range.2 range, by simp only [waits, decide_true]⟩)

end Launches

/-- Settles O16: each event under its condition. -/
theorem twinLaunchEvents : Obligations.TwinLaunchEvents := by
  refine ⟨fun _ _ _ => rfl, fun p m step out s range waits => execLaunchLogTimeout_of_waits range waits, fun _ _ => rfl,
    fun p cut s mirrored publishes => if_pos ⟨mirrored, publishes⟩, fun _ _ _ => rfl, fun m p step pl s paired => ?forward,
    fun m p step s waits => ?timeout⟩
  case forward => exact if_neg (by simp [paired])
  case timeout => simp only [exec, execTwinLaunchAtTimeout, waits]

/-! ### Takeover -/

section Takeover
variable {s : State}

theorem execTakeover_of_silence {mask : BitVec 16} (paired : s.tw.st = 1) (silent : s.bothDown = true) :
    let t := s.elapse (max (s.tport 0).lastGood (s.tport 1).lastGood + 300000 - s.clk.elapsed)
    execTakeover mask s = .next
      (((filterLow (fun p => (s.tw.mirror &&& ~~~s.tw.pub).getLsbD p) 16).foldl (fun s p => s.takeOver p false) t).losePartner) := by
  simp only [execTakeover, State.takeable, paired, silent]
  simp

theorem execTakeoverRerunDone_of_rerunOk {job p : Nat} {drop : Bool} (ok : RerunOk job p drop s) :
    let t := s.modTwp p fun t => { t with rerun := t.rerun.filter fun (x : Nat × Bool) => x.1 ≠ job }
    let gens := tput 0 t.sch.tagGen (65536 * (s.job job).mbx + (s.job job).tag) (((s.job job).gen + 1) % 256)
    let dropped : State := { t with sch := { t.sch with tagGen := gens } }
    execTakeoverRerunDone job s = .next (if drop then dropped.modJob job fun _ => {} else t.closeJob job) := by
  obtain ⟨-, live, ended, found, entry⟩ := ok
  have ended : ¬ (s.job job).cause.isNone = true := by rw [Option.isNone_iff_eq_none]; exact Option.isSome_iff_ne_none.1 ended
  simp only [execTakeoverRerunDone, found, Option.getD_some, entry, live, ended]
  cases drop <;> rfl

end Takeover

/-- Settles O17: silence of both ports, a rerun that ended, the partner's signatures, and roots that differ. -/
theorem takeoverEvents : Obligations.TakeoverEvents := by
  refine ⟨fun mask s paired silent => execTakeover_of_silence paired silent, fun job p drop s ok => execTakeoverRerunDone_of_rerunOk ok,
    fun job sigs s live compare fresh => ?signatures, fun port frame mine roots diff s paired sent => ?roots⟩
  case signatures =>
    have awaited : (s.job job).live = true ∧ (s.job job).dual = 3 ∧ ¬ (s.job job).compared = true :=
      ⟨live, compare, Bool.eq_false_iff.1 fresh⟩
    exact ⟨congrArg _ (if_pos awaited), congrArg _ (if_pos awaited)⟩
  case roots =>
    simp only [exec, execTwinRootCompare, sent, paired, ne_eq, not_true_eq_false, if_false, decide_eq_true_eq]

end Sys2Proof.Machine
end

section
/-! What the host and an I3C controller write to the package's registers (12 R406 to R431; 14 R465, R476). -/

namespace Sys2Proof.Machine

open Sys2Proof.Certs

/-! ### Mailboxes (12 R412, R417, R418) -/

section Mailboxes
variable {s : State} {m : Nat}

theorem State.mbxState_of_move {next : Nat} (open_ : s.bs.lmpReady = true) (move : mbxMove (s.mbx m).st next = true) :
    s.mbxState m next = s.modMbx m fun b => { b with st := next } := by
  simp [State.mbxState, open_, move]

theorem State.mbxState_of_no_move {next : Nat} (open_ : s.bs.lmpReady = true) (noMove : mbxMove (s.mbx m).st next = false) :
    s.mbxState m next = s.ignoreMbx m := by
  simp [State.mbxState, open_, noMove]

theorem mbxMove_filling (now : Nat) : mbxMove now mbFilling = true ↔ now = mbFree ∨ now = mbDone := by
  simp [mbxMove, mbFilling, mbFree]

theorem mbxMove_free (now : Nat) : mbxMove now mbFree = true ↔ now = mbFilling ∨ now = mbDone := by
  simp [mbxMove, mbFilling, mbFree]

theorem State.mbxGo_of_filling {ep : Nat} (open_ : s.bs.lmpReady = true) (filling : (s.mbx m).st = mbFilling) :
    s.mbxGo m ep = (s.modMbx m fun b => { b with st := mbSubmitted, goEp := ep }).rejectHeaders 64 := by
  simp [State.mbxGo, open_, filling]

theorem State.mbxGo_of_not_filling {ep : Nat} (open_ : s.bs.lmpReady = true) (other : (s.mbx m).st ≠ mbFilling) :
    s.mbxGo m ep = s.ignoreMbx m := by
  simp [State.mbxGo, open_, other]

end Mailboxes

/-- Settles O18: a move the table has is made, any other is ignored with its record. -/
theorem mailboxWrites : Obligations.MailboxWrites := by
  refine ⟨fun m ep s open_ now => congrArg _ (State.mbxState_of_move open_ ((mbxMove_filling _).2 now)),
    fun m ep s open_ now => congrArg _ (State.mbxState_of_move open_ ((mbxMove_free _).2 now)),
    fun m ep s open_ filling => congrArg _ (State.mbxGo_of_filling open_ filling), fun m ep s open_ => ⟨?go, ?filling, ?free⟩,
    fun m ep s closed => ⟨congrArg _ (State.mbxState_of_closed closed _ _), congrArg _ (State.mbxState_of_closed closed _ _),
      congrArg _ (State.mbxGo_of_closed closed _ _)⟩⟩
  case go => exact fun other => congrArg _ (State.mbxGo_of_not_filling open_ other)
  case filling =>
    intro notFree notDone
    exact congrArg _ (State.mbxState_of_no_move open_ (Bool.eq_false_iff.2 (by simp [mbxMove_filling, notFree, notDone])))
  case free =>
    intro notFilling notDone
    exact congrArg _ (State.mbxState_of_no_move open_ (Bool.eq_false_iff.2 (by simp [mbxMove_free, notFilling, notDone])))

/-! ### Registers without a row of their own, windows (00 R9, R10; 12 R414, R416) -/

section Registers
variable {s : State}

theorem State.bar0Write_header {m : Fin 64} {ep : Nat} {v : W64} (open_ : s.bs.lmpReady = true) (filling : (s.mbx m.val).st = mbFilling) :
    s.bar0Write ep (0x10000 + 0x1000 * m.val + 8) true v = s.modMbx m.val fun b => { b with hdr := v } := by
  have range := m.isLt
  have mailbox : (0x10000 + 0x1000 * m.val + 8 - 0x10000) / 0x1000 = m.val := by omega
  have word : (0x10000 + 0x1000 * m.val + 8) % 0x1000 = 8 := by omega
  rw [State.bar0Write, if_neg (by omega), if_neg (by omega), if_neg (by omega), if_neg (by omega), if_pos (by omega), mailbox, word]
  simp [State.mbxWrite, open_, filling, halfWrite]

theorem State.winCtrl_of_disabled {ep w : Nat} {v : W64} (disabled : (tget 0 (s.ep ep).winCtrl w).getLsbD 63 = false) :
    let x := v &&& 0xE000FF0000000FFF#64
    s.winCtrl ep w v = s.modEp ep fun e =>
      if x.getLsbD 63 && !s.winOk (tget 0 (s.ep ep).winBase w) x then
        { e with winCtrl := tput 0 e.winCtrl w (x &&& ~~~ 0x8000000000000000#64), reject := e.reject ||| BitVec.ofNat 16 (2 ^ w) }
      else { e with winCtrl := tput 0 e.winCtrl w x } := by
  intro x
  have masked : v &&& winMask = x := rfl
  simp only [State.winCtrl, disabled, masked, Bool.false_eq_true, if_false, Bool.not_false, Bool.true_and]
  by_cases leaves : (x.getLsbD 63 && !s.winOk (tget 0 (s.ep ep).winBase w) x) = true
  · simp only [leaves, if_true]
  · simp only [leaves, Bool.false_eq_true, if_false]

theorem State.winCtrl_of_enabled {ep w : Nat} {v : W64} (enabled : (tget 0 (s.ep ep).winCtrl w).getLsbD 63 = true) :
    let old := tget 0 (s.ep ep).winCtrl w
    let x := (v &&& 0xE000FF0000000FFF#64 &&& ~~~ 0x0000FF0000000FFF#64) ||| (old &&& 0x0000FF0000000FFF#64)
    s.winCtrl ep w v = s.modEp ep fun e => { e with winCtrl := tput 0 e.winCtrl w x } := by
  simp only [State.winCtrl, enabled, winMask, if_true, Bool.not_true, Bool.false_and, Bool.false_eq_true, if_false]

end Registers

/-- Settles O19: each register takes what its fields allow. -/
theorem registerWrites : Obligations.RegisterWrites := by
  refine ⟨fun m ep v s open_ filling => congrArg _ (State.bar0Write_header open_ filling), fun _ _ _ => rfl,
    fun ep off v s within => ?msix, fun _ _ _ => rfl, fun _ _ _ => rfl,
    fun ep w v s disabled => congrArg _ (State.winCtrl_of_disabled disabled),
    fun ep w v s enabled => congrArg _ (State.winCtrl_of_enabled enabled), fun _ _ _ => rfl⟩
  exact if_pos (by omega)

/-! ### PCIe links (12 R406, R407) -/

/-- `u` differs from `s` in queues, endpoints, the Event Queue's interrupt and the read last answered only. -/
def OnlyHostLink (s u : State) : Prop :=
  ∃ qs eps irq rd, u = { s with queues := qs, host := { s.host with eps := eps, irq := irq, read := rd } }

section Links
variable {s t u : State}

theorem OnlyHostLink.refl (s : State) : OnlyHostLink s s := ⟨s.queues, s.host.eps, s.host.irq, s.host.read, rfl⟩

theorem OnlyHostLink.trans (h : OnlyHostLink s t) (k : OnlyHostLink t u) : OnlyHostLink s u := by
  obtain ⟨_, _, _, _, rfl⟩ := h
  obtain ⟨qs, eps, irq, rd, rfl⟩ := k
  exact ⟨qs, eps, irq, rd, rfl⟩

theorem OnlyHostLink.setQ (s : State) (k : Nat) (v : SpillQ) : OnlyHostLink s (s.setQ k v) := ⟨_, s.host.eps, s.host.irq, s.host.read, rfl⟩

theorem OnlyHostLink.modEp (s : State) (e : Nat) (f : Endpoint → Endpoint) : OnlyHostLink s (s.modEp e f) :=
  ⟨s.queues, _, s.host.irq, s.host.read, rfl⟩

theorem OnlyHostLink.popEmpty (s : State) (q : QueueId) : OnlyHostLink s (s.popEmpty q) := by
  cases q with
  | evq => exact ⟨s.queues, s.host.eps, _, _, rfl⟩
  | _ => exact ⟨s.queues, s.host.eps, s.host.irq, _, rfl⟩

theorem OnlyHostLink.ringLost (s : State) (q : QueueId) : OnlyHostLink s (s.ringLost q) := by
  unfold State.ringLost
  dsimp only
  split
  · split
    · exact .setQ s _ _
    · exact (OnlyHostLink.setQ s _ _).trans (.popEmpty _ q)
  · exact .refl s

theorem OnlyHostLink.loseRings (s : State) (e : Nat) : OnlyHostLink s (s.loseRings e) := by
  unfold State.loseRings
  induction s.queues generalizing s with
  | nil => exact .refl s
  | cons x rest ih =>
    refine OnlyHostLink.trans ?_ (ih _)
    dsimp only
    split
    · exact .ringLost s _
    · exact .refl s

theorem OnlyHostLink.regainRings (s : State) (e : Nat) : OnlyHostLink s (s.regainRings e) := by
  unfold State.regainRings
  split
  · exact ⟨_, s.host.eps, s.host.irq, s.host.read, rfl⟩
  · exact .refl s

theorem OnlyHostLink.setLink (s : State) (e : Nat) (f : Endpoint → Endpoint) : OnlyHostLink s (s.setLink e f) := by
  refine (OnlyHostLink.modEp s e f).trans ?_
  unfold State.setLink
  dsimp only
  split
  · exact .loseRings _ e
  · split
    · exact .regainRings _ e
    · exact .refl _

end Links

/-- Settles O21: each event sets its bits of the endpoint, and `setLink` touches the queues and the interrupt besides. -/
theorem pcieLinks : Obligations.PcieLinks := by
  refine ⟨fun _ _ => rfl, fun ep s whole released => ?up, fun _ _ _ => rfl, fun _ _ => rfl, fun _ _ => rfl, fun _ _ => rfl,
    fun ep f s => OnlyHostLink.setLink s ep f⟩
  simp only [exec, execPcieLinkUp, whole, released]
  exact (apply_ite Host.Outcome.next _ _ _).symm

/-! ### I3C targets (12 R430, R431; 14 R476) -/

section I3c
variable {s : State} {l : Nat}

theorem State.rcvData_of_open {b : Byte} (open_ : s.rcvOpen l = true) :
    s.rcvData l b = { s with bs := { s.bs with
      rcvBy := some l, stage := stRecoveryLoad, rcvState := 2, rcvErr := 0, rcvData := s.bs.rcvData ++ [b] } } :=
  if_pos open_

/-- A port whose package waits for a recovery image takes its first byte. -/
theorem State.rcvOpen_of_waiting (waits : s.bs.stage = stRecoveryWait) (free : s.bs.rcvBy = none) (noGo : s.bs.goEp = none) :
    s.rcvOpen l = true := by
  simp [State.rcvOpen, waits, free, noGo]

theorem execHotJoin_of_free {side : Fin 2} {i : Nat} (role : side.val = 1 → s.cam.role = 0)
    (free : findLow (fun i => decide (tget 0 s.host.ctlTargets (128 * side.val + i) = 0)) 128 0 = some i) :
    execHotJoin side s = .next { s with free := s.free + 1, host := { s.host with
      ctlTargets := tput 0 s.host.ctlTargets (128 * side.val + i) ((Config.freeValue s.free).toNat % 2 ^ 7 + 1) } } := by
  simp only [execHotJoin]
  rw [if_neg fun away => away.2 (role away.1),
    show findLow (fun i => decide (tget 0 (s.draw 7).2.host.ctlTargets (128 * side.val + i) = 0)) 128 0 = some i from free]
  rfl

end I3c

/-- Settles O23: the ports' byte transfers, the common command codes and the recovery port. -/
theorem i3cPorts : Obligations.I3cPorts := by
  refine ⟨fun _ _ _ _ _ => ⟨rfl, rfl⟩, fun _ _ => ⟨rfl, rfl⟩, fun l a s unassigned => ⟨?dynamic, ?static_⟩, fun _ _ => rfl,
    fun _ _ _ => rfl, fun _ _ _ => rfl, fun _ _ => ⟨rfl, rfl, rfl, rfl, rfl, rfl⟩,
    fun l b s open_ => congrArg _ (State.rcvData_of_open open_),
    fun l b s waits free noGo => congrArg _ (State.rcvData_of_open (State.rcvOpen_of_waiting waits free noGo)),
    fun l s by_ loading => congrArg _ (if_pos ⟨by_, loading⟩), fun side i s role free => execHotJoin_of_free role free⟩
  case dynamic => exact congrArg _ (if_pos (Option.isNone_iff_eq_none.2 unassigned))
  case static_ => exact congrArg _ (if_pos ⟨rfl, Option.isNone_iff_eq_none.2 unassigned⟩)

end Sys2Proof.Machine
end

section
/-! Spill Queues (07 R268 to R275) and the Event Queue's interrupt (12 R425). -/

namespace Sys2Proof.Machine

open Sys2Proof.Certs

/-! ### One queue -/

section Queue
variable {q : SpillQ}

theorem SpillQ.push_of_room (w : W64) (enable : q.enable = true) (room : 1 ≤ q.room) : q.push w = q.accept w :=
  if_pos ⟨enable, room⟩

/-- A queue without room takes no word: its policy decides what becomes of it (07 R271). -/
theorem SpillQ.push_of_no_room (w : W64) (room : q.room = 0) :
    q.push w = if q.drop then { q with dropped := satAdd 32 q.dropped 1, overflow := true }
      else { q with stalled := q.stalled ++ [w] } := by
  split
  · next policy => exact SpillQ.push_of_drop w room policy
  · next policy => exact SpillQ.push_of_stall w room (Bool.eq_false_iff.2 policy)

theorem SpillQ.empty_of_count_eq_zero (empty : q.count = 0) : q.head = [] ∧ q.mid = [] ∧ q.tail = [] := by
  simp only [← List.length_eq_zero_iff]
  unfold SpillQ.count at empty
  omega

/-- Nothing moves into the head of an empty queue. -/
theorem SpillQ.settle_of_count_eq_zero (empty : q.count = 0) : q.settle.head = [] ∧ q.settle.mid = [] := by
  obtain ⟨head, mid, tail⟩ := SpillQ.empty_of_count_eq_zero empty
  simp [SpillQ.settle, head, mid, tail]

/-- A tail that holds a run, over a ring with room for it, spills 8 words (07 R268). -/
theorem SpillQ.spillRun_of_run (run : 8 ≤ q.tail.length) (place : q.mid.length + 8 ≤ q.size) :
    q.spillRun = { q with mid := q.mid ++ q.tail.take 8, tail := q.tail.drop 8, spilled := q.spilled + 8 } := by
  have words : min (min 8 q.tail.length) (q.size - q.mid.length) = 8 := by omega
  rw [SpillQ.spillRun, words]

end Queue

/-! ### Pops (07 R270) -/

section Pops
variable {s : State} {q : QueueId}

/-- The word taken out of the head leaves it; without an error nothing else is noted. -/
theorem State.takeHead_of_good {w : W64} (parity : parityOf w.toNat 64 = false) :
    s.takeHead q w false = s.setQ q.key { s.q q.key with head := (s.q q.key).head.tail }.settle := by
  simp [State.takeHead, parity]

theorem execSqPop_of_word {w : W64} {rest : List (W64 × Bool)} (wf : tabWf ({} : SpillQ) s.queues = true)
    (oldest : (s.q q.key).settle.head = (w, false) :: rest) (parity : parityOf w.toNat 64 = false) :
    execSqPop q true 0 s = .next (((s.setQ q.key (s.q q.key).settle).setQ q.key
      { (s.q q.key).settle with head := rest }.settle).answer (leBytes 8 (deliver w false).toNat) false) := by
  simp [execSqPop, State.popHead, oldest, State.setQ_q _ _ _ wf, State.takeHead_of_good, parity]

theorem execSqPop_of_empty (plain : Plain q) (empty : (s.q q.key).count = 0) :
    execSqPop q true 0 s = .next ((s.setQ q.key (s.q q.key).settle).answer (leBytes 8 0) false) := by
  obtain ⟨head, mid⟩ := SpillQ.settle_of_count_eq_zero empty
  cases q with
  | evq => exact absurd rfl plain
  | ingress | plan | stream => simp [execSqPop, State.popEmpty, head, mid]

end Pops

/-! ### The Event Queue (12 R425) -/

/-- A group of one word that has room and is not urgent is a push of the word. -/
theorem State.sqPush_evq_of_room {s : State} (w : W64) (enable : (s.q 0).enable = true) (none : (s.q 0).lost = 0)
    (room : 1 ≤ (s.q 0).room) (calm : s.urgent w.toNat = false) :
    s.sqPush .evq w = (s.setQ 0 ((s.q 0).accept w)).pushedIrq := by
  simp [State.sqPush, State.pushGroup, enable, none, room, calm, SpillQ.acceptAll]

/-! ### The statement -/

/-- Settles O20: each row changes its own queue as the operation on that queue says. -/
theorem spillQueues : Obligations.SpillQueues := by
  refine ⟨fun q pl po s plain enable room => ?push, fun q pl po s plain room => ?noRoom, fun pl po s enable none room calm => ?group,
    fun q w rest s waits enable room => execSqStalledPushAccept_of_room waits enable room,
    fun q w rest s wf oldest parity => ?pop, fun q s plain wf empty => ?popEmpty, fun q poison s reach => ?refill,
    fun q s reach run place filled => ?spill, fun q s reach => ?toHead, fun q s => rfl,
    fun q v s plain off empty sound placed => ?ctrl, fun q v s off empty => ⟨?base, fun size => ?size⟩, fun t s armed at_ => ?holdoff⟩
  case push =>
    exact congrArg Host.Outcome.next ((State.sqPush_of_plain _ plain).trans (by rw [SpillQ.push_of_room _ enable room]))
  case noRoom =>
    exact congrArg Host.Outcome.next ((State.sqPush_of_plain _ plain).trans (by rw [SpillQ.push_of_no_room _ room]))
  case group => exact congrArg Host.Outcome.next (State.sqPush_evq_of_room _ enable none room calm)
  case pop =>
    refine ⟨_, execSqPop_of_word wf oldest parity, rfl, rfl, rfl, ?_⟩
    have taken : (((s.setQ q.key (s.q q.key).settle).setQ q.key { (s.q q.key).settle with head := rest }.settle).q q.key).count =
        ({ (s.q q.key).settle with head := rest } : SpillQ).count := by
      rw [State.setQ_q _ _ _ (tput_wf _ _ wf), SpillQ.settle_count]
    calc _ = ({ (s.q q.key).settle with head := rest } : SpillQ).count + 1 := congrArg (· + 1) taken
      _ = (s.q q.key).settle.count := by simp only [SpillQ.count, oldest, List.length_cons]; omega
      _ = (s.q q.key).count := SpillQ.settle_count _
  case popEmpty => exact ⟨_, execSqPop_of_empty plain empty, rfl, rfl⟩
  case refill => exact if_neg (by simp [reach])
  case spill =>
    have spills : execSqSpill q false .ok s = .next (s.setQ q.key (s.q q.key).spillRun) := by
      simp [execSqSpill, reach, run, place, filled]
    rw [SpillQ.spillRun_of_run run place] at spills
    exact spills
  case toHead => exact if_neg (by simp [reach])
  case ctrl =>
    have other : decide (q = .evq) = false := decide_eq_false plain
    refine congrArg Host.Outcome.next ?_
    simp [State.sqCtrl, off, empty, sound, placed, other]
  case base => exact congrArg Host.Outcome.next (by simp [State.sqConfig, off, empty])
  case size => exact congrArg Host.Outcome.next (by simp only [State.sqConfig, off, empty, size]; rfl)
  case holdoff =>
    exact (by simp [execEvqHoldoffExpiry, armed, at_] : execEvqHoldoffExpiry s = .next ((s.elapseTo t).fireIrq))

end Sys2Proof.Machine
end

section
/-! Tasks on Spires and the frame (06 R203 to R232; 02 R79 to R81; 09 R329, R330). -/

namespace Sys2Proof.Machine

open Sys2Proof.Certs

/-! ### Tasks that start (06 R213 to R218) -/

section Starts
variable {s : State}

@[simp] theorem State.wake_clk (s : State) (p c : Nat) : (s.wake p c).clk = s.clk := by
  simp only [State.wake]
  split <;> split <;> rfl

/-- Waking moves virtual times forward, the client's and its partition's (06 R217). -/
theorem State.wake_eq (s : State) (p c : Nat) :
    s.wake p c =
      let t := if s.clientActive p c then s else s.modMbx c fun x => { x with vt := max x.vt (s.vtMin p) }
      if s.partActive p ∨ (s.part p).priv then t else t.modPart p fun x => { x with vt := max x.vt s.lendMin } := rfl

/-- The conditions under which a waiting task is looked at. -/
theorem looked_at_of_waitingOk {job idx : Nat} (ok : WaitingOk job idx s) :
    (s.job job).live ∧ (s.job job).cause.isNone ∧ (s.job job).startAt.isNone ∧ idx < (s.job job).tasks.length ∧
      (s.task job idx).phase = .waiting ∧
      ((s.twp (s.job job).part).rerun.isEmpty ∨ (s.twp (s.job job).part).rerun.any fun (x : Nat × Bool) => x.1 = job) := by
  obtain ⟨live, going, started, within, waits, rerun⟩ := ok
  exact ⟨live, Option.isNone_iff_eq_none.2 going, Option.isNone_iff_eq_none.2 started, within, waits,
    rerun.imp_left List.isEmpty_iff.2⟩

theorem execTaskReady_of_readyOk {job idx : Nat} (ok : ReadyOk job idx s) :
    let b := s.job job
    let u := (s.wake b.part b.mbx).modTask job idx fun y => { y with phase := .ready, readyAt := s.clk.ctc }
    execTaskReady job idx s = .next
      ((u.modJob job fun b => { b with readyAt := some (b.readyAt.getD s.clk.ctc) }).reclaimLent b.part) := by
  obtain ⟨waiting, reached⟩ := ok
  simp only [execTaskReady, reached, if_true]
  rw [if_pos (looked_at_of_waitingOk waiting), State.wake_clk]
  have clk : ((s.wake (s.job job).part (s.job job).mbx).modTask job idx fun y => { y with phase := .ready, readyAt := s.clk.ctc }).clk =
    s.clk := State.wake_clk s _ _
  rw [clk]

theorem execTaskReady_of_doomed {job idx : Nat} (waiting : WaitingOk job idx s)
    (unreached : (s.task job idx).decl.waits.all (s.reached none job) = false)
    (doomed : (s.task job idx).decl.waits.any (s.doomed none job) = true) :
    execTaskReady job idx s = .next (s.failTask job idx causeDependency 0 0) := by
  simp only [execTaskReady, unreached, doomed, Bool.false_eq_true, if_false, if_true]
  exact if_pos (looked_at_of_waitingOk waiting)

theorem execTaskDispatch_of_dispatchOk {sp : Fin 64} {p j i first : Nat} {borrowed : Bool} (ok : DispatchOk sp p j i first borrowed s) :
    execTaskDispatch sp s = .next (s.place j i first borrowed) := by
  obtain ⟨serves, next, to_, free, quiet⟩ := ok
  simp only [execTaskDispatch, serves, next, to_]
  exact if_pos ⟨free, Bool.eq_false_iff.1 quiet⟩

theorem execTaskFailover_of_failoverOk {sp : Fin 64} {j i to_ : Nat} (ok : FailoverOk sp j i to_ s) :
    let p := (s.job j).part
    let z := s.zeroStore to_ p
    let t := (z.modSpire to_ fun x => { x with job := some (j, i), preempt := none, retry := none }).modTask j i fun t => { t with
      phase := .running, spire := to_, since := z.clk.elapsed, arith := t.arith ||| 0x10#32, tiles := 0, band := 0 }
    execTaskFailover sp s = .next ((t.wantStep to_).post 7 (srcDome (sp.val / 4)) 4 p [] false) := by
  obtain ⟨found, free, runs⟩ := ok
  simp only [execTaskFailover, found, free]
  exact if_neg (not_not_intro runs)

end Starts

/-- Settles O24: a waiting task wakes or fails, a ready one is placed, a failed-over one restarts. -/
theorem taskStarts : Obligations.TaskStarts :=
  ⟨fun _ _ _ ok => execTaskReady_of_readyOk ok, fun _ _ _ waiting unreached doomed => execTaskReady_of_doomed waiting unreached doomed,
    fun _ _ _ _ _ _ _ ok => execTaskDispatch_of_dispatchOk ok, fun _ _ _ _ _ ok => execTaskFailover_of_failoverOk ok⟩

/-! ### Yield points and ends (06 R217 to R232) -/

section Running
variable {sp : Fin 64} {j i : Nat} {s : State}

theorem execYieldPoint_of_running {y : Nat} {ctx : List Byte} {w : List WaitRef} {dt : Nat} (running : s.running sp.val = some (j, i))
    (goes : (s.task j i).waitSince = none) :
    let t := (((s.elapse dt).settle sp.val).modTask j i fun t => { t with yield_ := y, ctx := ctx })
    let d := some (sp.val / 4)
    execYieldPoint sp y ctx w dt s = .next
      (if w.any (t.doomed d j) then t.failTask j i causeDependency 0 0
       else if (t.spire sp.val).preempt.isSome ∧ (t.spire sp.val).retry.isNone then t.modTask j i fun x => { x with phase := .saving, yWaits := w }
       else if w.all (t.reached d j) then t
       else t.modTask j i fun x => { x with waitSince := some t.clk.elapsed, yWaits := w }) := by
  simp only [execYieldPoint, running, goes, Option.isSome_none, Bool.false_eq_true, if_false, apply_ite Host.Outcome.next]

theorem execYieldWaitTimeout_of_waits {t0 : Nat} (running : s.running sp.val = some (j, i)) (waits : (s.task j i).waitSince = some t0)
    (other : (s.nextTask (s.job j).part sp.val).isSome = true)
    (noneFree : s.firstFree (s.job j).part (s.task j i).decl.shadow = none) (noRetry : (s.spire sp.val).retry = none) :
    execYieldWaitTimeout sp s = .next
      ((((s.elapse (t0 + 50001 - s.clk.elapsed)).settle sp.val).modSpire sp.val fun x => { x with preempt := some .yieldWait }).modTask
        j i fun t => { t with phase := .saving, waitSince := none }) := by
  simp only [execYieldWaitTimeout, running, waits]
  exact if_pos ⟨other, Option.isNone_iff_eq_none.2 noneFree, Option.isNone_iff_eq_none.2 noRetry⟩

theorem execSaveDone_of_savingOk {dt : Nat} (ok : SavingOk sp j i s) :
    let e := s.elapse dt
    let o := e.taskOrigin j i sp.val
    let base := spireStoreBase + sp.val * 0x400000
    let live := (e.task j i).live
    let t := live.foldl (fun t r => t.fetch o (base + 64 * r.1) (64 * r.2) []) e
    let v := t.store o (t.slotDa j i) (t.saveRecord j i sp.val) []
    let u := v.modTask j i fun x => { x with phase := .saved, readyAt := v.clk.ctc, waitSince := none }
    execSaveDone sp dt s = .next
      (if live.any fun r => t.anyBad (base + 64 * r.1) (64 * r.2) then t.quarantine sp.val
       else (u.modJobAcct j fun a => { a with preempts := satAdd 32 a.preempts 1 }).modSpire sp.val fun x =>
         { x with job := none, preempt := none, keep := false }) := by
  obtain ⟨job, saving⟩ := ok
  simp only [execSaveDone, job, saving, if_true, apply_ite Host.Outcome.next]

theorem State.taskEnd_of_running {dt : Nat} (running : s.running sp.val = some (j, i)) (goes : (s.task j i).waitSince = none)
    (noRetry : (s.spire sp.val).retry = none) :
    let t := (s.elapse dt).settle sp.val
    let b := t.job j
    let x := t.task j i
    let t1 := t.modMbx b.mbx fun y => { y with vt := vtCorrect y.vt (x.charge / 16000) x.decl.wcetUs y.weight }
    let t2 := if x.lentWcet then t1.modPart b.part fun y => { y with vt := vtCorrect y.vt (x.lent / 16000) x.decl.wcetUs y.share } else t1
    let t3 := if b.kind = .step then t2 else t2.modClient b.mbx fun a => { a with engine := satAdd 64 a.engine (engineUnits x.charge) }
    let t4 := (t3.leaveSpire j i).modTask j i fun y => { y with phase := .done }
    let t5 : State := { t4 with sch := { t4.sch with
      ctrs := x.decl.counters.foldl (fun y (c : Fin 16 × Fin 64) => tmod 0 y (64 * c.1.val + c.2.val) fun n => n + 1) t4.sch.ctrs } }
    let t6 := t5.modJob j fun y => { y with arith := arithMerge y.arith x.arith, engine := satAdd 64 y.engine (engineUnits x.charge) }
    s.taskEnd sp.val dt =
      if (t6.job j).allDone ∧ (t6.job j).cause.isNone then
        (t6.modJob j fun y => { y with cause := some causeOk, endAt := t6.clk.ctc }).closeJob j
      else t6 := by
  simp only [State.taskEnd, running, goes, noRetry, Option.isSome_none, Bool.false_eq_true, or_self, if_false]
  rfl

theorem execTaskOverrun_of_running (running : s.running sp.val = some (j, i)) (first : (s.task j i).overran = false) :
    execTaskOverrun sp s = .next ((s.chargeTo sp.val j i (s.task j i).decl.wcetUs).overrun sp.val j i) := by
  simp only [execTaskOverrun, running, first, Bool.false_eq_true, if_false]

theorem execOverrunAbort_of_running (running : s.running sp.val = some (j, i)) (overran : (s.task j i).overran = true)
    (report : (s.part (s.job j).part).report = true) :
    execOverrunAbort sp s = .next
      ((s.chargeTo sp.val j i (4 * (s.task j i).decl.wcetUs)).failTask j i causeOverrun (srcDome (sp.val / 4)) 20) := by
  simp only [execOverrunAbort, running]
  exact if_pos ⟨overran, report⟩

end Running

/-- Settles O25: each case of a yield point, of a wait's end and of a save. -/
theorem yieldPoints : Obligations.YieldPoints := by
  refine ⟨fun _ _ _ _ _ _ _ _ running goes => execYieldPoint_of_running running goes, fun sp j i s running waits reached => ?waitDone,
    fun _ _ _ _ _ running waits other noneFree noRetry => execYieldWaitTimeout_of_waits running waits other noneFree noRetry,
    fun _ _ _ _ _ ok => execSaveDone_of_savingOk ok⟩
  simp only [exec, execTokenWaitDone, running]
  exact if_pos ⟨waits, reached⟩

/-- Settles O26: the end of a task, its overrun and the change of a Spire's clock. -/
theorem taskEnds : Obligations.TaskEnds := by
  refine ⟨fun _ _ _ _ _ running goes noRetry => congrArg _ (State.taskEnd_of_running running goes noRetry),
    fun _ _ _ _ running first => execTaskOverrun_of_running running first,
    fun _ _ _ _ running overran report => execOverrunAbort_of_running running overran report, fun sp s noRetry free => ?relock⟩
  exact if_neg (by simp [noRetry, free])

/-! ### The frame (06 R207 to R213) -/

section Frame
variable {s : State}

theorem execWindowStart_of_laid {p : Fin 16} {q a b : Nat} (laid : (s.sch.frame.windows.find? fun w => w.1 = p.val) = some (q, a, b)) :
    let t := s.elapseTo (s.sch.frame.start + a)
    let u : State := { t with sch := { t.sch with frame := { t.sch.frame with owner := some p.val, slack := false } } }
    let v := if (s.part p.val).golden.isSome then u else (List.range 64).foldl (fun s sp =>
      if (s.spire sp).held = some p.val then s.modSpire sp fun x => { x with held := none } else s) u
    execWindowStart p s = .next (v.preemptShared (some p.val) .windowEnd) := by
  simp only [execWindowStart, laid]
  rfl

theorem execSlackStart_of_owner {o : Nat} (owner : s.sch.frame.owner = some o) :
    let t := s.elapseTo (s.sch.frame.start + s.sch.frame.windows.foldl (fun m w => max m w.2.2) 0)
    execSlackStart s = .next
      (({ t with sch := { t.sch with frame := { t.sch.frame with owner := none, slack := true } } } : State).preemptShared none .windowEnd) := by
  have owner (n : Nat) : (s.elapseTo n).sch.frame.owner = some o := owner
  simp only [execSlackStart, owner]

theorem execBudgetExhausted_of_running {sp : Fin 64} {j i : Nat} (running : s.running sp.val = some (j, i))
    (spatial : (s.part (s.job j).part).priv = true) (fresh : (s.spire sp.val).throttled = false) :
    let p := (s.job j).part
    let t := s.settle sp.val
    execBudgetExhausted sp s = .next
      (((t.elapse ((t.part p).budgetUs * 1000 - (t.spire sp.val).used)).settle sp.val).throttle p sp.val) := by
  simp only [execBudgetExhausted, fresh, running, spatial, Bool.false_eq_true, if_false, if_true]

end Frame

/-- Settles O27: the frame's start, its windows and slack, a budget's end and FRAME_MARK. -/
theorem frameAndWindows : Obligations.FrameAndWindows :=
  ⟨fun _ => rfl, fun _ _ _ _ _ laid => execWindowStart_of_laid laid, fun _ _ owner => execSlackStart_of_owner owner,
    fun _ _ _ _ running spatial fresh => execBudgetExhausted_of_running running spatial fresh, fun _ marked => if_pos marked⟩

/-! ### Golden Tiles (06 R210, R211; 09 R329, R330) -/

section Golden
variable {s : State}

theorem execGoldenTileSignature_of_run {sp : Fin 64} {sig : W64} {p : Nat} {g : Golden} (run : (s.spire sp.val).goldenRun = true)
    (held : (s.spire sp.val).held = some p) (golden : (s.part p).golden = some g) :
    let t := s.modSpire sp.val fun x => { x with goldenRun := false }
    execGoldenTileSignature sp sig s = .next (if g.sig = sig then t else t.goldenMismatch p sp.val) := by
  have golden : ((s.modSpire sp.val fun x => { x with goldenRun := false }).part p).golden = some g := golden
  simp only [execGoldenTileSignature, run, held, golden]
  exact (apply_ite Host.Outcome.next _ _ _).symm

theorem execGoldenTileSlotEnd_of_slot {p : Fin 16} {g : Golden} (golden : (s.part p.val).golden = some g)
    (slot : p.val ∈ s.sch.frame.golden) :
    let t := s.elapseTo (slotAt p.val s + g.gtUs * 1000)
    let t1 := (List.range 64).foldl (fun s sp =>
      if (s.spire sp).goldenRun && decide ((s.spire sp).held = some p.val) then
        (s.modSpire sp fun x => { x with goldenRun := false }).goldenMismatch p.val sp else s) t
    let t2 := (List.range 64).foldl (fun s sp =>
      if (s.spire sp).held = some p.val then
        (s.modPartAcct p.val fun a => { a with engine := satAdd 64 a.engine (engineUnits (g.gtUs * 1000 * (s.spire sp).clk)) }).modSpire
          sp fun x => { x with held := none, used := x.used + g.gtUs * 1000 }
      else s) t1
    execGoldenTileSlotEnd p s = .next
      { t2 with sch := { t2.sch with frame := { t2.sch.frame with golden := t2.sch.frame.golden.erase p.val } } } := by
  cases window : s.sch.frame.windows.find? fun w => w.1 = p.val with
  | none => simp only [execGoldenTileSlotEnd, golden, slot, if_true, slotAt, window]
  | some w => simp only [execGoldenTileSlotEnd, golden, slot, if_true, slotAt, window]

end Golden

/-- Settles O28: the lead, the slot, its signatures and its end. -/
theorem goldenTiles : Obligations.GoldenTiles := by
  refine ⟨fun p s live needs => ?lead, fun p s live golden => ?slot,
    fun _ _ _ _ _ run held golden => execGoldenTileSignature_of_run run held golden,
    fun _ _ _ golden slot => execGoldenTileSlotEnd_of_slot golden slot⟩
  case slot =>
    simp only [exec, execGoldenTileSlot, slotAt]
    exact if_pos ⟨live, golden⟩
  case lead => exact if_pos ⟨live, needs.imp_right fun ⟨strict, shared⟩ => ⟨strict, Bool.eq_false_iff.1 shared⟩⟩

end Sys2Proof.Machine
end

section
/-! Row tokens, their shadows and ring read tokens (03 R96 to R101). -/

namespace Sys2Proof.Machine

open Sys2Proof.Certs

/-- What a table reads after one entry is written. -/
theorem tget_tput {α : Type} [DecidableEq α] {d : α} {t : Tab α} (i k : Nat) (x : α) (w : tabWf d t) :
    tget d (tput d t i x) k = if k = i then x else tget d t k := by
  split
  · next same => rw [same, tget_tput_same i x w]
  · next other => exact tget_tput_other x other w

section Tokens
variable {s : State} {d src : Fin 16} {t : Fin 64}

theorem execRowTokenAdvance_of_bandDone {b1 sp j i : Nat} (ok : BandDone d t b1 sp j i s) :
    execRowTokenAdvance d t b1 s = .next { s.modTask j i fun x => { x with band := b1 } with sch := {
      (s.modTask j i fun x => { x with band := b1 }).sch with
        tokens := tput 0 s.sch.tokens (64 * d.val + t.val) (max (tget 0 s.sch.tokens (64 * d.val + t.val)) (b1 % 2 ^ 16)) } } := by
  obtain ⟨advances, noRetry, acked, later, stripe⟩ := ok
  simp only [execRowTokenAdvance, advances]
  rw [if_pos ⟨by rw [noRetry]; rfl, acked, later, stripe⟩]
  rfl

theorem execTokenShadowUpdate_of_reached {v : Nat} (fits : v < 2 ^ 16)
    (rises : tget 0 s.sch.shadows (shadowKey d.val src.val t.val) < v) (reached : v ≤ tget 0 s.sch.tokens (64 * src.val + t.val)) :
    execTokenShadowUpdate d src t v s =
      .next { s with sch := { s.sch with shadows := tput 0 s.sch.shadows (shadowKey d.val src.val t.val) v } } := by
  unfold execTokenShadowUpdate
  rw [Nat.mod_eq_of_lt fits]
  exact if_pos ⟨rises, reached⟩

theorem execTokenShadowUpdate_of_late {v : Nat} (fits : v < 2 ^ 16)
    (late : v ≤ tget 0 s.sch.shadows (shadowKey d.val src.val t.val) ∨ tget 0 s.sch.tokens (64 * src.val + t.val) < v) :
    execTokenShadowUpdate d src t v s = .next (s.stale (srcDome d.val)) := by
  unfold execTokenShadowUpdate
  rw [Nat.mod_eq_of_lt fits]
  exact if_neg (by omega)

theorem execRingReadTokenAdvance_of_readsDone {lo : Option Nat} {hi sp j i : Nat} (ok : RingReadsDone d t sp j i s) :
    execRingReadTokenAdvance d t lo hi s =
      .next { s with sch := { s.sch with reads := tput 0 s.sch.reads (64 * d.val + t.val) ((lo.getD (hi + 1)) % 2 ^ 16) } } := by
  obtain ⟨advances, done⟩ := ok
  simp only [execRingReadTokenAdvance, advances]
  exact if_pos done

end Tokens

/-- Settles O29: each row writes one entry of its table, and a table written reads back what was written and nothing else new. -/
theorem rowTokens : Obligations.RowTokens := by
  refine ⟨fun d t b1 sp j i s wf fits ok => ?token, fun d src t v s wf fits rises reached => ?shadow,
    fun d src t v s fits late => execTokenShadowUpdate_of_late fits late, fun d t lo hi sp j i s wf ok => ?read⟩
  case token =>
    refine ⟨_, execRowTokenAdvance_of_bandDone ok, rfl, fun k => ?_⟩
    rw [tget_tput _ _ _ wf, Nat.mod_eq_of_lt fits]
    split
    · next same => rw [same]
    · rfl
  case shadow => exact ⟨_, execTokenShadowUpdate_of_reached fits rises reached, rfl, fun k => tget_tput _ k v wf⟩
  case read => exact ⟨_, execRingReadTokenAdvance_of_readsDone ok, rfl, fun k => tget_tput _ k _ wf⟩

end Sys2Proof.Machine
end

section
/-! Tiles (02 R75 to R79), reductions and atomics (08 R278 to R282), the Score Sorter (03 R103 to R110). -/

namespace Sys2Proof.Machine

open Sys2Proof.Certs

/-! ### Tiles -/

section TileEvents
variable {sp : Fin 64} {j i dt : Nat} {s : State}

theorem execTileComplete_of_tileOk {op : TileOp} {f : TileFaults} (ok : TileOk sp j i s) :
    let t := (s.elapse dt).settle sp.val
    execTileComplete sp op f dt s = .next
      (if f.storeUe then (t.record sp.val 6 lvTask {}).quarantine sp.val
       else t.tileRead sp op fun t =>
         if tileMismatch op f || (t.spire sp.val).mismatch then
           t.modSpire sp.val fun x => { x with retry := some ⟨op, (t.task j i).charge⟩, mismatch := false }
         else t.tileDone sp j i op f false) := by
  obtain ⟨running, noRetry, goes, quiet⟩ := ok
  simp only [execTileComplete, running, noRetry, goes, quiet, Option.isSome_none, Bool.false_eq_true, or_self, if_false]
  exact (apply_ite Host.Outcome.next _ _ _).symm

theorem execTileRetryDone_of_pass {f : TileFaults} {h : HeldTile} (ok : RetryOk sp j i h s) (store : f.storeUe = false)
    (agrees : tileMismatch h.op f = false) (clean : (((s.elapse dt).settle sp.val).spire sp.val).mismatch = false) :
    let t := (s.elapse dt).settle sp.val
    let now := t.clk.elapsed
    let t1 := t.modTask j i fun x => { x with retry := x.retry + (x.charge - h.charge) / 16 }
    let t2 := t1.modSpire sp.val fun x => { x with retry := none, masked := now :: x.masked.filter fun y => decide (now < y + 1000000000) }
    let t3 := t2.record sp.val 21 lvMasked { part := some (t2.job j).part, source := some sp.val }
    let u := t3.tileRead sp h.op fun t => t.tileDone sp j i h.op f true
    execTileRetryDone sp f dt s = .next (if 16 < (u.spire sp.val).masked.length then u.quarantine sp.val else u) := by
  obtain ⟨running, retry, quiet⟩ := ok
  simp only [execTileRetryDone, running, retry, quiet, store, agrees, clean, Bool.false_eq_true, Bool.or_self, if_false]
  exact (apply_ite Host.Outcome.next _ _ _).symm

theorem execTileRetryDone_of_mismatch {f : TileFaults} {h : HeldTile} (ok : RetryOk sp j i h s) (store : f.storeUe = false)
    (differs : tileMismatch h.op f = true) :
    execTileRetryDone sp f dt s = .next (((s.elapse dt).settle sp.val).quarantine sp.val) := by
  obtain ⟨running, retry, quiet⟩ := ok
  simp only [execTileRetryDone, running, retry, quiet, store, differs, Bool.false_eq_true, Bool.true_or, if_false, if_true]

theorem execTileRetryDone_of_storeUe {f : TileFaults} {h : HeldTile} (ok : RetryOk sp j i h s) (store : f.storeUe = true) :
    execTileRetryDone sp f dt s = .next ((((s.elapse dt).settle sp.val).record sp.val 6 lvTask {}).quarantine sp.val) := by
  obtain ⟨running, retry, quiet⟩ := ok
  simp only [execTileRetryDone, running, retry, quiet, store, Bool.false_eq_true, if_false, if_true]

end TileEvents

/-- Settles O30: a tile that passes, one that is held, and the four ends of a recomputation. -/
theorem tiles : Obligations.Tiles :=
  ⟨fun _ _ _ _ _ _ _ ok => execTileComplete_of_tileOk ok,
    fun _ _ _ _ _ _ _ ok store agrees clean => execTileRetryDone_of_pass ok store agrees clean,
    fun _ _ _ _ _ _ _ ok store differs => execTileRetryDone_of_mismatch ok store differs,
    fun _ _ _ _ _ _ _ ok store => execTileRetryDone_of_storeUe ok store⟩

/-! ### Reductions and atomics -/

section Sums
variable {s t : State}

theorem State.taskReads_of_readsOk {sp : Fin 64} {rs : List (Nat × Nat)} {go : State → State} (ok : ReadsOk sp rs t s) :
    s.taskReads sp rs go = go t := by
  obtain ⟨acts, reads⟩ := ok
  simp [State.taskReads, acts, reads]

theorem execAtomicOp_of_atomicOk {req : Requester} {op : AtomicOp} {da : Nat} {v : W32} (ok : AtomicOk req op da s) :
    let a := reqDa req da
    let old : W32 := BitVec.ofNat 32 (s.rdNat a 4)
    let t := s.store (s.origin req) a (leBytes 4 (atomicApply op old v).toNat) []
    execAtomicOp req op da v s =
      .next (if (t.blocked a 4).isSome then t.poisoned req da else t.answer (leBytes 4 old.toNat) false) := by
  obtain ⟨acts, free, allowed, memory, reached⟩ := ok
  have ordered : ¬ (op = .addF32 ∧ s.saf.det = true) := fun both => Bool.eq_false_iff.1 (free both.1) both.2
  simp only [execAtomicOp, acts, ordered, allowed, memory, reached, Bool.not_true, Bool.false_eq_true, or_self, if_false]
  exact (apply_ite Host.Outcome.next _ _ _).symm

end Sums

/-- Settles O31: what is stored once the operands are read, and what an atomic operation answers. -/
theorem reductions : Obligations.Reductions := by
  refine ⟨fun src out n t s ok => congrArg _ (State.taskReads_of_readsOk ok), fun sp da v t s free ok => ?arrival,
    fun sp da v s ordered => if_pos ordered, fun req op da v s ok => execAtomicOp_of_atomicOk ok, fun _ _ => ⟨rfl, rfl, rfl⟩⟩
  simp only [exec, execArrivalOrderAdd, free, Bool.false_eq_true, if_false, State.taskReads_of_readsOk ok]

/-! ### The Score Sorter -/

section Sorts
variable {s : State}

theorem execSortRequest_of_running {sp : Fin 64} {da j i : Nat} (running : s.running sp.val = some (j, i))
    (goes : (s.task j i).waitSince = none) (serves : tget false s.saf.sorterOut (sp.val / 4) = false) :
    execSortRequest sp da s =
      .next (s.modSorter (sp.val / 4) fun x => x.enter { sp := sp.val, da := da, task := (j, i, (s.task j i).run) }) := by
  simp only [execSortRequest, running, goes, Option.isSome_none, Bool.false_eq_true, if_false]
  simp [State.sortRoute, serves, State.taskId]

theorem execSortStart_of_sortStartOk {d : Fin 16} {r : SortReq} {rest : List SortReq} {sp : Nat} {t : State}
    (ok : SortStartOk d r rest sp t s) :
    execSortStart d s = .next
      (if t.sortOk (s.job r.task.1).part sp (sortFields (sortWords t sp r.da)) then
        t.modSorter d.val fun x => { x with cur := some (r, sortWords t sp r.da) }
       else t.sorterFault d.val r) := by
  obtain ⟨idle, queue, quiet, goes, spire, aligned, reach, rfl, good⟩ := ok
  simp only [execSortStart, idle, queue, quiet, goes, spire, aligned, reach, good, Bool.not_true, Bool.false_eq_true, ne_eq,
    not_true_eq_false, or_self, if_false]
  exact (apply_ite Host.Outcome.next _ _ _).symm

theorem execSortDone_of_first {d : Fin 16} {r : SortReq} {ws : List W64} (cur : (s.sorter d.val).cur = some (r, ws))
    (first : (s.sorter d.val).again = false) (mismatch : Bool) :
    execSortDone d mismatch s = .next
      (if mismatch then s.modSorter d.val fun x => { x with again := true } else s.sortWrite d.val r ws) := by
  simp only [execSortDone, cur, first]
  exact (apply_ite Host.Outcome.next _ _ _).symm

theorem execSortRepeatDone_of_again {d : Fin 16} {r : SortReq} {ws : List W64} (cur : (s.sorter d.val).cur = some (r, ws))
    (again : (s.sorter d.val).again = true) (mismatch : Bool) :
    let t : State := { s with saf := { s.saf with sorterOut := tput false s.saf.sorterOut d.val true } }
    let u := ((t.modSorter d.val fun _ => {}).record (srcDome d.val) 22 lvUnit {}).sorterFault d.val r
    execSortRepeatDone d mismatch s = .next
      (if mismatch then ((s.sorter d.val).queue ++ (s.sorter d.val).stalled).foldl (fun s r => s.sortRoute d.val r) u
       else (s.record (srcDome d.val) 21 lvMasked { part := some (s.job r.task.1).part, source := some r.sp }).sortWrite d.val r ws) := by
  simp only [execSortRepeatDone, cur, again]
  exact (apply_ite Host.Outcome.next _ _ _).symm

end Sorts

/-- Settles O32: a request that enters, an operation that starts, and the ends of its first and second pass. -/
theorem scoreSorter : Obligations.ScoreSorter :=
  ⟨fun _ _ _ _ _ running goes serves => execSortRequest_of_running running goes serves,
    fun _ _ _ _ _ _ ok => execSortStart_of_sortStartOk ok,
    fun _ _ _ _ cur first => ⟨execSortDone_of_first cur first false, execSortDone_of_first cur first true⟩,
    fun _ _ _ _ cur again => ⟨execSortRepeatDone_of_again cur again false, execSortRepeatDone_of_again cur again true⟩⟩

end Sys2Proof.Machine
end

section
/-! The KV Gather Unit (04 R121 to R128, R525), and the steps and pages of sequences (04 R113, R133 to R150; 06 R229 to R232). -/

namespace Sys2Proof.Machine

open Sys2Proof.Certs

/-! ### Gathers, appends, walks -/

section GatherEvents
variable {s : State}

theorem execGatherRequest_of_gatherOk {sp : Fin 64} {desc : List W64} {wf : Fmt} {tensor j i : Nat}
    (running : s.running sp.val = some (j, i)) (goes : (s.task j i).waitSince = none)
    (ok : s.gatherOk (s.job j).part (sp.val / 4) (gatherFields desc) wf = true) :
    let d := sp.val / 4
    execGatherRequest sp desc wf tensor s = .next (s.setGathers d (s.gathers d ++
      [{ sp := sp.val, desc := desc, wf := wf, tensor := tensor, task := (j, i, (s.task j i).run)
         rel0 := ((tget 0 s.sch.ctrs (64 * d + (gatherFields desc).rel) : Nat) : Int) }])) := by
  simp only [execGatherRequest, running, goes, ok, Option.isSome_none, Bool.false_eq_true, if_false, if_true, State.taskId]

theorem execGatherTileWritten_of_gatherTileOk {d : Fin 16} {mismatch n : Nat} {g : Gather} {t u : State} {das : List Nat}
    (ok : GatherTileOk d n g t das u s) :
    let f := gatherFields g.desc
    let q := (s.pruneGathers d.val).sq (slotOf f.handle)
    let (j, i, _) := g.task
    let v := u.gatherChecks d.val j i f mismatch
    let w := v.gatherWrite d.val j i g (das.map fun a => v.rd a q.rowBytes)
    let x : State := { w with sch := { w.sch with ctrs := tmod 0 w.sch.ctrs (64 * d.val + f.deliv) fun c => c + 1 } }
    execGatherTileWritten d mismatch s = .next
      (if w.liveRun g.task then x.setGathers d.val ((x.gathers d.val).modify n fun g => { g with tile := g.tile + 1 })
       else w.dropGather d.val n) := by
  obtain ⟨quiet, found, gather, goes, rows, reads⟩ := ok
  have swap (p : Bool) (a b : State) : (if (!p) = true then .next a else .next b : Answer) = .next (if p = true then b else a) := by
    cases p <;> rfl
  simp only [execGatherTileWritten, quiet, found, gather, goes, rows, reads, Bool.not_true, Bool.false_eq_true, if_false]
  exact swap _ _ _

theorem execGatherTileRelease_of_read {sp : Fin 64} {j i n : Nat} {g : Gather} (running : s.running sp.val = some (j, i))
    (goes : (s.task j i).waitSince = none)
    (found : ((s.gathers (sp.val / 4)).findIdx? fun g => decide (g.task = (j, i, (s.task j i).run)) && decide (g.rel < g.tile)) = some n)
    (gather : (s.gathers (sp.val / 4))[n]? = some g) :
    let d := sp.val / 4
    let f := gatherFields g.desc
    let t : State := { s with sch := { s.sch with ctrs := tmod 0 s.sch.ctrs (64 * d + f.rel) fun c => c + 1 } }
    execGatherTileRelease sp s = .next
      (if g.rel + 1 = gatherTiles f then t.dropGather d n
       else t.setGathers d ((s.gathers d).modify n fun g => { g with rel := g.rel + 1 })) := by
  have found : ((s.gathers (sp.val / 4)).findIdx? fun g => decide (g.task = s.taskId j i) && decide (g.rel < g.tile)) = some n := found
  simp only [execGatherTileRelease, running, goes, Option.isSome_none, Bool.false_eq_true, if_false, found, gather]
  exact (apply_ite Host.Outcome.next _ _ _).symm

theorem execAppendWrite_of_appendOk {sp : Fin 64} {handle layer pos : Nat} {data : List Byte} {j i : Nat} {t : State} {ppn : Nat}
    (ok : AppendOk sp handle layer pos data j i t ppn s) :
    let slot := slotOf handle
    let q := s.sq slot
    let da := ppnDa ppn + pos % max 1 q.tpp * q.rowBytes
    let r := gatherOf sp.val
    let u := t.store (t.origin r) da data []
    execAppendWrite sp handle layer pos data s = .next
      (if (u.blocked da data.length).isSome then u.memFault r da
       else u.modSeq slot fun q => { q with
         layers := tmod [] q.layers pos fun (l : List Nat) => if layer ∈ l then l else layer :: l }) := by
  obtain ⟨running, goes, live, holds, forward, first, last, within, bytes, page⟩ := ok
  have row : s.liveHandle (s.job j).part handle = true ∧ s.stepHolds j handle = true ∧ (!(s.task j i).decl.backward) = true ∧
      (s.sq (slotOf handle)).l0 ≤ pos ∧ pos < (s.sq (slotOf handle)).l0 + (s.sq (slotOf handle)).a ∧
      layer < (s.sq (slotOf handle)).nl ∧ data.length = (s.sq (slotOf handle)).rowBytes :=
    ⟨live, holds, by rw [forward]; rfl, first, last, within, bytes⟩
  simp only [execAppendWrite, running, goes, Option.isSome_none, Bool.false_eq_true, if_false, page, if_pos row]
  exact (apply_ite Host.Outcome.next _ _ _).symm

theorem execPageWalkDone_of_page {d : Fin 16} {slot : Fin 4096} {vpn n : Nat} {g : Gather} {t : State} {ppn : Nat}
    (found : ((s.gathers d.val).findIdx? fun g => decide (slotOf (gatherFields g.desc).handle = slot.val) && s.liveRun g.task &&
      decide (s.running g.sp = some (g.task.1, g.task.2.1))) = some n) (gather : (s.gathers d.val)[n]? = some g)
    (page : s.translate g.sp slot.val vpn = (t, .page ppn)) : execPageWalkDone d slot vpn false s = .next t := by
  simp only [execPageWalkDone, Bool.false_eq_true, if_false, found, gather, page]

end GatherEvents

/-- Settles O33: a request that joins, tiles written and released, rows appended, and a walk that ends in a page. -/
theorem gathers : Obligations.Gathers :=
  ⟨fun _ _ _ _ _ _ _ running goes ok => execGatherRequest_of_gatherOk running goes ok,
    fun _ _ _ _ _ _ _ _ ok => execGatherTileWritten_of_gatherTileOk ok,
    fun _ _ _ _ _ _ running goes found gather => execGatherTileRelease_of_read running goes found gather,
    fun _ _ _ _ _ _ _ _ _ _ ok => execAppendWrite_of_appendOk ok, fun _ _ _ step whole layers => if_pos ⟨step, whole, layers⟩,
    fun _ _ _ _ _ _ _ _ found gather page => execPageWalkDone_of_page found gather page⟩

/-! ### Steps and pages -/

section Steps
variable {s : State}

theorem execStepBuild_of_stepBuildOk {p : Fin 16} {image : Nat} {phase : Fin 4} {c : Nat × Nat × Option Nat × Nat}
    {tl : List (Nat × Nat × Option Nat × Nat)} (ok : StepBuildOk p image phase c tl s) :
    let f := s.facts p.val image
    let kind := (c :: tl).filter fun x => decide (x.2.2 = c.2.2)
    let adm := admitAll phase.val f.prefillChunk f.tokenBudget (kind.map fun x => (x.1, x.2.1))
    let t := if c.2.2.1.isSome then s else s.modPart p.val fun x => { x with step := (x.step + 1) % 2 ^ 64 }
    let out := ((c :: tl).filter fun (x : Nat × Nat × Option Nat × Nat) => !(adm.any fun y => decide (y.1 = x.1))).map
      fun (x : Nat × Nat × Option Nat × Nat) => (p.val, image, phase.val, x.1)
    let keep := t.sch.leftOut.filter fun (x : Nat × Nat × Nat × Nat) =>
      !(decide (x.1 = p.val) && decide (x.2.1 = image) && decide (x.2.2.1 = phase.val))
    let u : State := { t with sch := { t.sch with leftOut := out ++ keep } }
    let b : Build := { part := p.val, image := image, phase := phase.val, step := c.2.2.1.getD (s.part p.val).step
                       explicit := c.2.2.1.isSome, entry := c.2.2.2, admits := adm
                       rest := u.liveSlots.filter fun i => !u.inStep i && !u.builtIn i }
    execStepBuild p image phase s =
      .next ((({ u with seq := { u.seq with builds := u.seq.builds ++ [b] } } : State).lowWater p.val).runBuilds) := by
  obtain ⟨free, runs, first, order⟩ := ok
  simp only [execStepBuild, order]
  exact if_neg (by simp [free, runs, first])

theorem execTlbInvalidationAck_of_awaited {unit : Fin 20} {slot : Fin 4096} (awaited : (s.sq slot.val).inval.getLsbD unit.val = true) :
    let left := (s.sq slot.val).inval &&& ~~~ BitVec.ofNat 20 (2 ^ unit.val)
    let t := (s.dropTlb unit.val slot.val).modSeq slot.val fun q => { q with inval := left }
    execTlbInvalidationAck unit slot s = .next (if left = 0 then (t.afterAck slot.val).runBuilds else t) := by
  simp only [execTlbInvalidationAck, awaited, if_true]
  exact (apply_ite Host.Outcome.next _ _ _).symm

end Steps

/-- Settles O34: a step is built, an invalidation acknowledged, copies end, a step completes. -/
theorem stepsAndPages : Obligations.StepsAndPages := by
  refine ⟨fun _ _ _ _ _ _ ok => execStepBuild_of_stepBuildOk ok, fun _ _ _ awaited => execTlbInvalidationAck_of_awaited awaited,
    fun slot s copies settled form => ?copyOnWrite, fun slot s copies form => ?swapOut, fun slot s copies form => ?swapIn,
    fun job s live kind ended => ?complete⟩
  case copyOnWrite => exact if_neg (by simp [copies, settled, form])
  case swapOut => exact if_neg (by simp [copies, form])
  case swapIn => exact if_neg (by simp [copies, form])
  case complete =>
    simp only [exec, execStepComplete, State.stepComplete, live, kind, ended, decide_true, Option.isSome_some, Bool.and_self, if_true]

end Sys2Proof.Machine
end

section
/-! The Planning Engines (05 R165 to R197). -/

namespace Sys2Proof.Machine

open Sys2Proof.Certs

/-! ### Search (05 R178 to R189) -/

section SearchEvents
variable {e : Fin 2} {s : State} {c : Search}

theorem State.modEng_congr {n : Nat} {f g : Engine → Engine} (same : f (s.eng n) = g (s.eng n)) : s.modEng n f = s.modEng n g := by
  unfold State.modEng tmod
  rw [show f (tget {} s.plan.eng n) = g (tget {} s.plan.eng n) from same]

theorem execPlanSearchStart_of_searchStartOk {d : Bool} {r : PlanReq} {rest : List PlanReq} (ok : SearchStartOk e r rest s) :
    let x := s.eng e.val
    let differs := s.dualNow e.val r && d
    let m := checkPath x.world x.world.now r.shape (s.poses r.mrtDa r.mrtPoses)
    let c : Search := { req := r, e0 := x.world.epoch, mrtFree := m.1 && !differs, heap := [(0, 0)]
                        nodes := [{ pose := s.words r.rootDa 4, st := s.words (r.rootDa + 32) 4 }] }
    let t := s.modEng e.val fun y => { y with cur := some { c.note m.2 with mrtFlags := s.dualFlags e.val c 0 }, queue := rest }
    execPlanSearchStart ⟨e, d⟩ s = .next (if differs then t.peDisagree e.val else t) := by
  obtain ⟨idle, queue, ready⟩ := ok
  simp only [execPlanSearchStart, idle, queue, ready, Bool.false_eq_true, if_false]

theorem execProposerBatchSend_of_batchOk {b : Nat} {end_ : PopEnd} (ok : BatchOk e b c end_ s) :
    execProposerBatchSend e s = match end_ with
      | .batch => if c.batch.isEmpty then .next s else .next (s.sendBatch e.val c b)
      | .goal _ => .next (s.modEng e.val fun x => { x with cur := some c.toRecheck })
      | .stop w => .next ((s.modEng e.val fun x => { x with cur := some c }).endSearch e.val w) := by
  obtain ⟨c0, cur, phase, buffer, pops⟩ := ok
  simp only [execProposerBatchSend, cur, phase, buffer, pops]
  cases end_ <;> rfl

theorem execProposerComplete_of_proposerOk {b : Batch} (ok : ProposerOk e c b s) :
    let t := (s.modJob b.job fun _ => {}).modSearch e.val fun x => { x with out := x.out.erase b }
    let ks := t.readKids c b
    let u := t.modSearch e.val fun x => { x with peFault := true }
    execProposerComplete e false s = .next
      (if (s.job b.job).proposerBad then
        if { c with out := c.out.erase b }.idle then u.endSearch e.val (if c.parity then 6 else 4) else u
       else t.modSearch e.val fun x => { x with
        kids := x.kids ++ ks.filter c.kidOk, invalid := satAdd 16 x.invalid (ks.length - (ks.filter c.kidOk).length) }) := by
  obtain ⟨cur, found⟩ := ok
  have ended : (s.job b.job).cause.isSome = true := by simpa using List.find?_some found
  have going : ¬ (s.job b.job).cause.isNone = true := by rw [Option.isNone_iff_eq_none]; exact Option.isSome_iff_ne_none.1 ended
  simp only [execProposerComplete, cur, Bool.or_false, found, Bool.false_or, if_neg going]
  exact (apply_ite Host.Outcome.next _ _ _).symm

theorem execCandidateCheckDone_of_det {d : Bool} (ok : CheckOk e c s) (det : c.req.isFree = false) :
    let w := (s.eng e.val).world
    let k := c.kids.getD 0 (0, [])
    let differs := s.dualNow e.val c.req && d
    let v := checkCand w (c.view w) c.req.shape ((c.nodes.getD k.1 {}).pose :: kidPoses k.2)
    let t := if differs then s.peDisagree e.val else s
    execCandidateCheckDone e d s = .next (t.modSearch e.val fun c =>
      ({ c with kids := c.kids.eraseIdx 0 }.note v.2).insert k (v.1.isNone && !differs)) := by
  obtain ⟨cur, some_, ready⟩ := ok
  obtain ⟨kid, rest, kids⟩ := List.exists_cons_of_ne_nil some_
  simp only [execCandidateCheckDone, cur, ready, det, Bool.false_eq_true, if_false, kids, Nat.zero_mod]

theorem execCandidateCheckDone_of_free {d : Bool} (ok : CheckOk e c s) (free : c.req.isFree = true) :
    let w := (s.eng e.val).world
    let i := (s.draw 64).1 % c.kids.length
    let k := c.kids.getD i (0, [])
    let differs := (s.draw 64).2.dualNow e.val c.req && d
    let v := checkCand w (c.view w) c.req.shape ((c.nodes.getD k.1 {}).pose :: kidPoses k.2)
    let t := if differs then (s.draw 64).2.peDisagree e.val else (s.draw 64).2
    execCandidateCheckDone e d s = .next (t.modSearch e.val fun c =>
      ({ c with kids := c.kids.eraseIdx i }.note v.2).insert k (v.1.isNone && !differs)) := by
  obtain ⟨cur, some_, ready⟩ := ok
  obtain ⟨kid, rest, kids⟩ := List.exists_cons_of_ne_nil some_
  simp only [execCandidateCheckDone, cur, ready, free, Bool.false_eq_true, if_false, if_true, kids]

theorem execPlanDeadline_of_deadlineOk (ok : DeadlineOk e c s) :
    let t := s.elapseTo (c.req.deadline + 1)
    execPlanDeadline e s = .next (match c.stop t.clk.ctc with
      | some w => t.endSearch e.val w
      | none => t) := by
  obtain ⟨cur, deadline, phase, noBatch, noKid⟩ := ok
  simp only [execPlanDeadline, cur, deadline, phase, noBatch, noKid, List.isEmpty_nil, and_self, if_false, if_true]
  cases c.stop (s.elapseTo (c.req.deadline + 1)).clk.ctc <;> rfl

theorem execPathRecheckDone_of_recheckOk {d : Bool} {ps : List (List W64)} (ok : RecheckOk e c ps s) :
    let x := s.eng e.val
    let differs := s.dualNow e.val c.req && d
    let t := if differs then s.peDisagree e.val else s
    let g := checkPath x.world (c.view x.world) c.req.shape ps
    execPathRecheckDone ⟨e, d⟩ s = .next (t.modSearch e.val fun c' =>
      if g.1 && !differs then startRounds c' g.2 ps (if c.req.smoothEn then 2 else 1)
        (if c.req.isFree then x.world.epoch else c'.e0) (s.dualFlags e.val c' 0)
      else (c'.note g.2).reject) := by
  obtain ⟨cur, phase, times, ready⟩ := ok
  simp only [execPathRecheckDone, cur, phase, times, ready, Bool.false_eq_true, if_false]
  split <;> rfl

theorem execPathRecheckDone_of_smoothOk {d : Bool} {ps : List (List W64)} (ok : SmoothOk e c ps s) :
    let x := s.eng e.val
    let differs := s.dualNow e.val c.req && d
    let t := if differs then s.peDisagree e.val else s
    let g := checkPath x.world (c.view x.world) c.req.shape ps
    execPathRecheckDone ⟨e, d⟩ s = .next (t.modSearch e.val fun c' =>
      if g.1 && !differs then startRounds c' g.2 ps 1 (if c.req.isFree then x.world.epoch else c'.e0) (s.dualFlags e.val c' 0)
      else { (c'.note g.2) with phase := .recheckPlain, smoothFlags := c'.smoothFlags ||| 64 }) := by
  obtain ⟨cur, phase, times, ready⟩ := ok
  simp only [execPathRecheckDone, cur, phase, times, ready, Bool.false_eq_true, if_false]
  split <;> rfl

end SearchEvents

/-- Settles O35: each event of a search under its conditions. -/
theorem searchSteps : Obligations.SearchSteps := by
  refine ⟨fun _ _ _ _ _ ok => execPlanSearchStart_of_searchStartOk ok,
    fun e b c s ok full => (execProposerBatchSend_of_batchOk ok).trans (if_neg (by simpa using full)),
    fun _ _ _ _ _ ok => execProposerBatchSend_of_batchOk ok, fun _ _ _ _ _ ok => execProposerBatchSend_of_batchOk ok,
    fun e c b s ok good => ?good, fun e c b s ok bad => ?bad, fun _ _ _ _ ok det => execCandidateCheckDone_of_det ok det,
    fun e d c s ok free => ⟨_, Nat.mod_lt _ (List.length_pos_iff.2 ok.2.1), execCandidateCheckDone_of_free ok free⟩,
    fun _ _ _ ok => execPlanDeadline_of_deadlineOk ok, fun _ _ _ _ _ ok => execPathRecheckDone_of_recheckOk ok,
    fun _ _ _ _ _ ok => execPathRecheckDone_of_smoothOk ok⟩
  case good => exact (execProposerComplete_of_proposerOk ok).trans (congrArg _ (if_neg (Bool.eq_false_iff.1 good)))
  case bad => exact (execProposerComplete_of_proposerOk ok).trans (congrArg _ (if_pos bad))

/-! ### Publication (05 R165 to R167, R190 to R197) -/

section PublicationEvents
variable {e : Fin 2} {s : State} {c : Search}

/-- A check that does not run notes nothing. -/
theorem Search.pubCheck_of_same_epoch {w : World} (same : w.epoch = c.v) : c.pubCheck w = ⟨true, false, false, false⟩ := if_pos same

@[simp] theorem Search.checked_of_idle (ok : Bool) (pub : Nat) : c.checked ⟨ok, false, false, false⟩ pub = c := by
  simp [Search.checked, PubCheck.bits, PubCheck.ran]

@[simp] theorem Search.note_path (overflow : Bool) : (c.note overflow).path = c.path := by
  cases overflow <;> rfl

theorem execPublishRound_of_same_epoch {d : Bool} (cur : (s.eng e.val).cur = some c) (phase : c.phase = .round)
    (same : (s.eng e.val).world.epoch = c.v) :
    execPublishRound ⟨e, d⟩ s = .next (s.modEng e.val fun y => { y with cur := some { c with phase := .locked } }) := by
  simp only [execPublishRound, cur, phase, if_true, Search.pubCheck_of_same_epoch same]
  simp only [PubCheck.ran, Bool.or_self, Bool.false_and, Bool.false_eq_true, if_false, Bool.not_true, Bool.not_false, if_true,
    Search.checked_of_idle]
  exact congrArg _ (State.modEng_congr (by simp only [cur, Option.map_some]))

theorem execPublishRound_of_roundOk {d : Bool} {k : PubCheck} (ok : RoundOk e c k s) (ran : k.ran = true) :
    let differs := s.dualNow e.val c.req && d
    let t := if differs then s.peDisagree e.val else s
    execPublishRound ⟨e, d⟩ s = .next (t.modSearch e.val fun c' =>
      let c' := c'.checked k (s.dualFlags e.val c c.pubFlags)
      if k.ok && !differs then
        { c' with v := (s.eng e.val).world.epoch, rounds := c'.rounds + 1, phase := if 3 ≤ c'.rounds + 1 then .locked else .round }
      else if c'.fallback then { c' with phase := .locked, mustFull := true } else c'.reject) := by
  obtain ⟨cur, phase, rfl, ready⟩ := ok
  have ready : s.checksWait e.val c.req = false := by simpa [ran] using ready
  simp only [execPublishRound, cur, phase, ran, ready, Bool.true_and, Bool.false_eq_true, if_true, if_false, Bool.not_true]
  refine congrArg Host.Outcome.next (congrArg (State.modSearch _ e.val) (funext fun c' => ?_))
  cases (c.pubCheck (s.eng e.val).world).ok <;> cases (s.dualNow e.val c.req && d) <;> rfl

theorem execPublishLocked_of_lockedOk {d : Bool} {k : PubCheck} (ok : LockedOk e c k s) :
    let differs := k.ran && s.dualNow e.val c.req && d
    let t := if differs then s.peDisagree e.val else s
    let c' := { c.checked k (s.dualFlags e.val c c.pubFlags) with flags := c.flags ||| k.bits ||| (if differs then 8 else 0) }
    let u := t.modEng e.val fun y => { y with cur := some c' }
    execPublishLocked ⟨e, d⟩ s = .next
      (if k.ok && !differs then u.writeResult e.val c' c.status 0 c.path
       else t.modEng e.val fun y => { y with cur := some c'.reject }) := by
  obtain ⟨cur, phase, plain, checked, rfl, ready⟩ := ok
  have plain (k : PubCheck) (pub : Nat) : (c.checked k pub).fallback = false := plain
  simp only [execPublishLocked, cur, phase, checked, ready, Bool.false_eq_true, Bool.false_or, if_true, if_false, plain, Bool.not_false]
  exact (apply_ite Host.Outcome.next _ _ _).symm

theorem execPublishLocked_of_fallbackOk {d : Bool} (ok : FallbackOk e c s) (agrees : (s.dualNow e.val c.req && d) = false) :
    let m := c.mrtPrefix (s.eng e.val).world
    let c' := { c.note m.2 with pubFlags := s.dualFlags e.val c c.pubFlags }
    let u := s.modEng e.val fun y => { y with cur := some c' }
    execPublishLocked ⟨e, d⟩ s = .next
      (if m.1 = c.path.length then u.writeResult e.val c' 3 0 c.path else u.writeResult e.val c' 4 m.1 (c.path.take m.1)) := by
  cases c
  obtain ⟨cur, rfl, rfl, rfl, ready⟩ := ok
  simp only [execPublishLocked, cur, ready, agrees, Bool.false_eq_true, Bool.true_or, Bool.true_and, Bool.and_false, Bool.false_and,
    if_true, if_false, Search.checked_of_idle, PubCheck.bits, Nat.add_zero, Nat.or_zero, Bool.not_true, not_false_eq_true, and_true,
    Search.note_path]
  exact (apply_ite Host.Outcome.next _ _ _).symm

theorem execWorldUpdateApply_of_update {es : List Edit} {rest : List (List Edit)} (updates : (s.eng e.val).updates = es :: rest)
    (serves : s.engOut e.val = false) (unlocked : ∀ c, (s.eng e.val).cur = some c → c.phase ≠ .locked) :
    let w := (s.eng e.val).world.update s.detSearches es
    let t := (s.modEng e.val fun y => { y with world := w.1, updates := rest }).modSearch e.val fun c =>
      { c with churn := c.churn || (c.isDet && decide (c.e0 ∈ w.2)) }
    execWorldUpdateApply e s = .next (if (t.eng e.val).cur.any Search.churned then t.endSearch e.val 5 else t).worldDone := by
  have churned (o : Option Search) (a b : State) : (if (match o with
      | some c => c.churned
      | none => false) = true then a else b) = if o.any Search.churned then a else b := by cases o <;> rfl
  simp only [execWorldUpdateApply, updates, serves, Bool.or_false]
  refine (if_neg ?free).trans (congrArg (fun u : State => Host.Outcome.next u.worldDone) (churned _ _ _))
  cases cur : (s.eng e.val).cur with
  | none => exact Bool.false_ne_true
  | some c => exact fun locked => unlocked c cur (of_decide_eq_true locked)

end PublicationEvents

/-- Settles O36: the rounds, the locked path and the fallback, results and world updates. -/
theorem publication : Obligations.Publication := by
  refine ⟨fun _ _ _ _ cur phase same => execPublishRound_of_same_epoch cur phase same,
    fun _ _ _ _ _ ok ran => execPublishRound_of_roundOk ok ran, fun _ _ _ _ _ ok => execPublishLocked_of_lockedOk ok,
    fun _ _ _ _ ok agrees => execPublishLocked_of_fallbackOk ok agrees, fun e c s ok => ?result,
    fun _ _ _ _ updates serves unlocked => execWorldUpdateApply_of_update updates serves unlocked⟩
  simp only [exec, execResultPublished, ok.1, ok.2, if_true]

end Sys2Proof.Machine
end

section
/-! A write of whole words or lines (07 R239, R255): it stores its bytes, which then read back, and no other byte changes. -/

namespace Sys2Proof.Machine

open Sys2Proof.Certs

/-! ### Bytes stored -/

theorem memStore_append (k : List Byte) : ∀ (l : List Byte) (a : Nat) (m : List Host.Cell),
    memStore m a (l ++ k) = memStore (memStore m a l) (a + l.length) k
  | [], _, _ => rfl
  | b :: l, a, m => by
    rw [List.cons_append, memStore, memStore, memStore_append k l (a + 1), List.length_cons, Nat.add_right_comm, Nat.add_assoc]

/-- A byte of a store reads back. -/
theorem memByte_memStore_getElem : ∀ (l : List Byte) {m : List Host.Cell} (a i : Nat) (h : i < l.length), Memory.wf m →
    memByte (memStore m a l) (a + i) = l[i]
  | b :: l, m, a, 0, _, w => by
    rw [memStore, memByte_memStore_other l (a + 1) (memSet_wf a b w) (by omega), Nat.add_zero, memByte_memSet_same a b w,
      List.getElem_cons_zero]
  | b :: l, m, a, i + 1, h, w => by
    rw [memStore, ← Nat.add_assoc, Nat.add_right_comm, memByte_memStore_getElem l (a + 1) i (Nat.lt_of_succ_lt_succ h) (memSet_wf a b w),
      List.getElem_cons_succ]

/-- What is stored reads back. -/
theorem memBytes_memStore (l : List Byte) {m : List Host.Cell} (a : Nat) (w : Memory.wf m) : memBytes (memStore m a l) a l.length = l := by
  refine List.ext_getElem (by simp [memBytes]) fun i h _ => ?_
  simp only [memBytes, List.getElem_map, List.getElem_range]
  exact memByte_memStore_getElem l a i _ w

/-! ### What a write leaves alone -/

section Frames
variable (s : State)

/-- The requests of an access change the egress ports and the channels' queues alone. -/
theorem State.enqueue_frame (o : Origin) (a n : Nat) (write : Bool) :
    ∃ e c, s.enqueue o a n write = { s with mem := { s.mem with egress := e, chans := c } } := by
  have draw (u : State) (f t : Die) (p cost : Nat) : ∃ e, u.drawEgress f t p cost = { u with mem := { u.mem with egress := e } } := by
    unfold State.drawEgress
    split <;> exact ⟨_, rfl⟩
  have drawn (f t : Die) (p cost : Nat) : ∃ e c, s.drawEgress f t p cost = { s with mem := { s.mem with egress := e, chans := c } } := by
    obtain ⟨e, eq⟩ := draw s f t p cost
    exact ⟨e, _, eq⟩
  unfold State.enqueue
  split
  · exact ⟨_, _, rfl⟩
  · split
    · refine List.foldlRecOn (motive := fun t : State => ∃ e c, t = { s with mem := { s.mem with egress := e, chans := c } }) _ _
        ⟨s.mem.egress, s.mem.chans, rfl⟩ ?_
      rintro _ ⟨e, c, rfl⟩ l -
      obtain ⟨e', eq⟩ := draw { s with mem := { s.mem with egress := e, chans := c } } o.die (.tower (l.1 / 16)) o.part
        (DramReq.cost { line := l.2.1, write := write, partial_ := write && !(decide (a ≤ l.2.2) && decide (l.2.2 + 64 ≤ a + n))
                        by_ := o, at_ := s.clk.elapsed, da := l.2.2 })
      exact ⟨e', _, congrArg (fun t : State => t.modChan l.1 _) eq⟩
    · exact drawn _ _ _ _
    · exact drawn _ _ _ _
    · exact ⟨_, _, rfl⟩

/-- Stores change memory's bytes and marks alone. -/
theorem State.writeCells_frame (u : Nat) : ∀ (fuel a : Nat) (bs : List Byte) (s : State),
    ∃ b d k, s.writeCells a bs u fuel = { s with mem := { s.mem with bytes := b, dirty := d, bad := k } }
  | 0, _, _, _ => ⟨_, _, _, rfl⟩
  | fuel + 1, a, bs, s => by
    have cell (l : List Byte) : ∃ b d k, s.writeCell a l u = { s with mem := { s.mem with bytes := b, dirty := d, bad := k } } := by
      unfold State.writeCell
      dsimp only
      split <;> exact ⟨_, _, _, rfl⟩
    rw [State.writeCells]
    dsimp only
    split
    · exact ⟨_, _, _, rfl⟩
    · obtain ⟨b, d, k, eq⟩ := cell (bs.take (min bs.length (u - a % u)))
      rw [eq]
      exact State.writeCells_frame u fuel _ _ _

/-- A whole word or line is stored whatever it held. -/
theorem State.writeCell_bytes {a u : Nat} {bs : List Byte} (aligned : a % u = 0) (whole : bs.length = u) :
    (s.writeCell a bs u).mem.bytes = memStore s.mem.bytes a bs := by
  rw [State.writeCell, if_neg (fun h => h.2 ⟨aligned, whole⟩)]
  rfl

/-- Whole words or lines are stored one after another. -/
theorem State.writeCells_bytes {u : Nat} (pos : 0 < u) : ∀ (fuel a : Nat) (bs : List Byte) (s : State), a % u = 0 → bs.length % u = 0 →
    bs.length ≤ fuel → (s.writeCells a bs u fuel).mem.bytes = memStore s.mem.bytes a bs
  | 0, a, bs, s, _, _, short => by
    rw [List.length_eq_zero_iff.1 (Nat.le_zero.1 short)]
    rfl
  | fuel + 1, a, bs, s, aligned, whole, short => by
    rw [State.writeCells, aligned, Nat.sub_zero]
    by_cases none : bs.length = 0
    · rw [none, Nat.zero_min, if_pos rfl, List.length_eq_zero_iff.1 none]
      rfl
    · have atLeast : u ≤ bs.length := Nat.le_of_dvd (Nat.pos_of_ne_zero none) (Nat.dvd_of_mod_eq_zero whole)
      have first : (bs.take u).length = u := by rw [List.length_take, Nat.min_eq_left atLeast]
      have next : (a + u) % u = 0 := by rw [Nat.add_mod_right, aligned]
      have left : (bs.drop u).length % u = 0 := by rw [List.length_drop, ← Nat.mod_eq_sub_mod atLeast, whole]
      have shorter : (bs.drop u).length ≤ fuel := by rw [List.length_drop]; omega
      rw [Nat.min_eq_right atLeast, if_neg pos.ne', State.writeCells_bytes pos fuel _ _ _ next left shorter,
        State.writeCell_bytes s aligned first]
      calc memStore (memStore s.mem.bytes a (bs.take u)) (a + u) (bs.drop u)
          = memStore (memStore s.mem.bytes a (bs.take u)) (a + (bs.take u).length) (bs.drop u) := by rw [first]
        _ = memStore s.mem.bytes a (bs.take u ++ bs.drop u) := (memStore_append _ _ _ _).symm
        _ = memStore s.mem.bytes a bs := by rw [List.take_append_drop]

end Frames

/-! ### Whole words and lines -/

section Whole
variable {s : State} {a n : Nat}

theorem State.unitAt_eq (s : State) (a : Nat) : s.unitAt a = 64 ∨ s.unitAt a = 8 := by
  unfold State.unitAt
  split
  · exact .inl rfl
  · exact .inr rfl

/-- A range of whole words or lines has none it meets in part. -/
theorem State.partCells_of_whole (aligned : a % s.unitAt a = 0) (whole : n % s.unitAt a = 0) : s.partCells a n = [] := by
  unfold State.partCells State.cellsOf
  dsimp only
  split
  · rfl
  · next some =>
    simp only [List.filter_eq_nil_iff, List.mem_map, List.mem_range]
    rintro _ ⟨i, inRange, rfl⟩
    rcases s.unitAt_eq a with unit | unit
    · rw [unit] at aligned whole inRange ⊢
      simp only [Bool.not_eq_true', Bool.and_eq_false_iff, decide_eq_false_iff_not]
      omega
    · rw [unit] at aligned whole inRange ⊢
      simp only [Bool.not_eq_true', Bool.and_eq_false_iff, decide_eq_false_iff_not]
      omega

/-- A store of whole words or lines meets no error, and keeps what it is given. -/
theorem State.store_of_whole (o : Origin) (bs : List Byte) (aligned : a % s.unitAt a = 0) (whole : bs.length % s.unitAt a = 0) :
    (s.store o a bs []).mem.bytes = memStore s.mem.bytes a bs ∧ (s.store o a bs []).blocked a bs.length = none := by
  have pos : 0 < s.unitAt a := by
    rcases s.unitAt_eq a with unit | unit <;> omega
  obtain ⟨e, c, frame⟩ := s.enqueue_frame o a bs.length true
  have cells := State.partCells_of_whole (s := s.enqueue o a bs.length true) (by rw [frame]; exact aligned) (by rw [frame]; exact whole)
  have stored : s.store o a bs [] = (s.enqueue o a bs.length true).put a bs := by
    unfold State.store
    rw [State.partCells_of_whole aligned whole]
    change State.put (List.foldl _ _ (List.filter _ ((s.enqueue o a bs.length true).partCells a bs.length))) a bs = _
    rw [cells]
    rfl
  have unit : (s.enqueue o a bs.length true).unitAt a = s.unitAt a := by rw [frame]; rfl
  have bytes : (s.enqueue o a bs.length true).mem.bytes = s.mem.bytes := by rw [frame]
  rw [stored, State.put, unit]
  refine ⟨by rw [State.writeCells_bytes pos _ _ _ _ aligned whole (Nat.le_succ _), bytes], ?_⟩
  obtain ⟨b, d, k, frame'⟩ := State.writeCells_frame (s.unitAt a) (bs.length + 1) a bs (s.enqueue o a bs.length true)
  have after : ((s.enqueue o a bs.length true).writeCells a bs (s.unitAt a) (bs.length + 1)).partCells a bs.length = [] := by
    rw [frame']
    exact cells
  rw [State.blocked, after, List.find?_nil]

end Whole

/-- Settles O38: nothing refuses the access, and its bytes are what memory then holds of it. -/
theorem writeThenRead : Obligations.WriteThenRead := by
  intro r a bs s wf ok
  obtain ⟨⟨acts, memory, allowed, up, -⟩, aligned, whole, -⟩ := ok
  obtain ⟨bytes, free⟩ := State.store_of_whole (s.origin r) bs aligned whole
  have runs : execMemoryWrite r a bs [] s = .next (s.store (s.origin r) (reqDa r a) bs []) := by
    simp [execMemoryWrite, State.writeOp, acts, memory, allowed, up, free]
  refine ⟨_, runs, ?_, fun x outside => ?_⟩
  · rw [State.rd, bytes, memBytes_memStore bs _ wf]
  · rw [State.byte, bytes, memByte_memStore_other bs _ wf outside]
    rfl

end Sys2Proof.Machine
end

section
/-! Memory accesses and DMA (07 R238 to R255; 01 R39, R41), the DRAM channels and the scrubbers (07 R237 to R267). -/

namespace Sys2Proof.Machine

open Sys2Proof.Certs

/-! ### Reads and writes -/

section Accesses
variable {r : Requester} {a n : Nat} {bs : List Byte} {conds : List EccCond} {s : State}

/-- Outside unit control space and an engine's own world store, a read is `readOp`'s. -/
theorem execMemoryRead_eq_readOp (memory : s.kindRange a n ≠ some .unit) (own : ∀ e, r = .engine e → a < ownBase) :
    execMemoryRead r a n conds s = .next (s.readOp r a n conds) := by
  cases r with
  | engine e => exact if_neg (own e rfl).not_ge
  | cupola _ => exact if_neg memory
  | lantern _ => exact if_neg memory
  | _ => rfl

theorem State.readOp_of_accessOk (ok : AccessOk r a n false s) :
    s.readOp r a n conds =
      if .ctrl ∈ conds then (s.answer [] false).transferFault r a
      else if (readOf r a n conds s).anyBad (reqDa r a) n then
        ((readOf r a n conds s).answer ((readOf r a n conds s).rd (reqDa r a) n) true).poisoned r a
      else (readOf r a n conds s).answer (s.viewBytes (reqDa r a) n) false := by
  obtain ⟨acts, memory, allowed, reached, -⟩ := ok
  simp only [State.readOp, acts, memory, allowed, reached, Bool.not_true, Bool.false_eq_true, if_false]

theorem State.writeOp_of_accessOk (ok : AccessOk r a bs.length true s) :
    s.writeOp r a bs conds =
      if .ctrl ∈ conds then s.transferFault r a
      else if ((s.store (s.origin r) (reqDa r a) bs conds).blocked (reqDa r a) bs.length).isSome then
        (s.store (s.origin r) (reqDa r a) bs conds).writeFault r a
      else s.store (s.origin r) (reqDa r a) bs conds := by
  obtain ⟨acts, memory, allowed, reached, -⟩ := ok
  simp only [State.writeOp, acts, memory, allowed, reached, Bool.not_true, Bool.false_eq_true, if_false]

theorem execMemoryRead_of_accessOk (ok : AccessOk r a n false s) :
    execMemoryRead r a n conds s = .next
      (if .ctrl ∈ conds then (s.answer [] false).transferFault r a
       else if (readOf r a n conds s).anyBad (reqDa r a) n then
         ((readOf r a n conds s).answer ((readOf r a n conds s).rd (reqDa r a) n) true).poisoned r a
       else (readOf r a n conds s).answer (s.viewBytes (reqDa r a) n) false) := by
  obtain ⟨-, memory, -, -, own⟩ := id ok
  rw [execMemoryRead_eq_readOp memory own, State.readOp_of_accessOk ok]

/-- Only a Spire and what works for one can be without work to do. -/
theorem execMemoryRead_of_idle (idle : s.acts r = false) : execMemoryRead r a n conds s = .next s := by
  have reads : s.readOp r a n conds = s := if_pos (by rw [idle]; rfl)
  cases r with
  | engine e => exact absurd idle (by simp [State.acts, reqSpire])
  | cupola c => exact absurd idle (by simp [State.acts, reqSpire])
  | lantern l => exact absurd idle (by simp [State.acts, reqSpire])
  | _ => exact congrArg _ reads

/-! ### Dome DMA channels (07 R245, R246) -/

theorem execDmaDescriptor_of_descOk {d : Fin 16} {ch : Fin 4} {ws : List W64} {sp : Fin 64} {j i : Nat} (ok : DescOk d sp j i s) :
    let x : DmaJob := { ws := ws, sp := sp.val, part := (s.job j).part, task := some (s.taskId j i) }
    execDmaDescriptor d ch ws sp s = .next
      (if s.dmaOk ws (dmaFields ws) (s.job j).part sp.val then
        ({ s with mem := { s.mem with
          dma := tmod {} s.mem.dma (4 * d.val + ch.val) fun c => { c with queue := c.queue ++ [x] } } } : State).grantDma d.val ch.val
       else (s.record (srcDome d.val) 18 lvTask
        { addr := (dmaFields ws).dst, part := some (s.job j).part, source := some sp.val }).failTask j i causeFault (srcDome d.val) 18) := by
  obtain ⟨running, dome, goes, forward⟩ := ok
  simp only [execDmaDescriptor, running, dome, goes, forward, ne_eq, not_true_eq_false, Option.isSome_none, Bool.false_eq_true, or_self,
    if_false, Bool.false_and, Bool.not_false, Bool.and_true]
  exact (apply_ite Host.Outcome.next _ _ _).symm

theorem execDmaComplete_of_dmaOk {d : Fin 16} {ch : Fin 4} {x : DmaJob} {t : State} (ok : DmaOk d ch x t s) :
    execDmaComplete d ch s = .next (({ t with
      sch := { t.sch with ctrs := tmod 0 t.sch.ctrs (64 * d.val + (dmaFields x.ws).counter) fun n => n + 1 } } : State).endDma d.val ch.val) := by
  obtain ⟨run, ⟨k, task, goes⟩, rows⟩ := ok
  simp only [execDmaComplete, run, task, goes, rows, Option.map_some, Option.getD_some, Bool.not_true, Bool.false_eq_true, if_false]

end Accesses

/-- Settles O37: each way an access ends, and a descriptor's way through its channel. -/
theorem memoryAccesses : Obligations.MemoryAccesses := by
  refine ⟨fun r a n conds s ⟨ok, parity⟩ good => ?read, fun r a n conds s ⟨ok, parity⟩ bad => ?poison,
    fun r a n conds s acts memory refused own => ?decode, fun r a n conds s ok ctrl => ?readParity,
    fun r a bs conds s ok ctrl => ?writeParity, fun r a bs conds s ⟨ok, parity⟩ free => ?write,
    fun r a bs conds c s ⟨ok, parity⟩ blocked => ?writeFault, fun r a bs conds s acts memory refused => ?writeDecode,
    fun r a n bs conds s idle => ⟨execMemoryRead_of_idle idle, congrArg _ (if_pos (by rw [idle]; rfl))⟩,
    fun d ch ws sp j i s ok good => ?queued, fun d ch ws sp j i s ok bad => ?refused, fun d ch x t s ok => execDmaComplete_of_dmaOk ok⟩
  case read =>
    exact (execMemoryRead_of_accessOk ok).trans (congrArg _ ((if_neg parity).trans (if_neg (Bool.eq_false_iff.1 good))))
  case poison => exact (execMemoryRead_of_accessOk ok).trans (congrArg _ ((if_neg parity).trans (if_pos bad)))
  case decode =>
    refine (execMemoryRead_eq_readOp memory own).trans (congrArg _ ?_)
    simp only [State.readOp, acts, memory, refused, Bool.not_true, Bool.not_false, Bool.false_eq_true, if_false, if_true]
  case readParity => exact (execMemoryRead_of_accessOk ok).trans (congrArg _ (if_pos ctrl))
  case writeParity => exact congrArg _ ((State.writeOp_of_accessOk ok).trans (if_pos ctrl))
  case write =>
    exact congrArg _ ((State.writeOp_of_accessOk ok).trans ((if_neg parity).trans (if_neg (by rw [free]; decide))))
  case writeFault =>
    exact congrArg _ ((State.writeOp_of_accessOk ok).trans ((if_neg parity).trans (if_pos (by rw [blocked]; rfl))))
  case writeDecode =>
    refine congrArg Host.Outcome.next ?_
    simp only [State.writeOp, acts, memory, refused, Bool.not_true, Bool.not_false, Bool.false_eq_true, if_false, if_true]
  case queued => exact (execDmaDescriptor_of_descOk ok).trans (congrArg _ (if_pos good))
  case refused => exact (execDmaDescriptor_of_descOk ok).trans (congrArg _ (if_neg (Bool.eq_false_iff.1 bad)))

/-! ### DRAM channels and scrubbers -/

section Channels
variable {ch : Fin 64} {s : State}

theorem execDramRequestIssue_of_request {q : DramReq} {cond : EccCond} {link : LinkErr} (ok : IssueOk ch (some q) s) :
    execDramRequestIssue ch cond link s = .next
      ((if q.write then issued ch q s else (issued ch q s).linkError ch.val q cond link).modChan ch.val fun c => c.takeIn.refpb 1) := by
  obtain ⟨up, debt, next⟩ := ok
  simp only [execDramRequestIssue, up, decide_eq_false debt.not_ge, next, Bool.not_true, Bool.or_self, Bool.false_eq_true, if_false]

theorem execDramRequestIssue_of_idle {cond : EccCond} {link : LinkErr} (ok : IssueOk ch none s) :
    execDramRequestIssue ch cond link s = .next (s.modChan ch.val fun c => c.refpb 1) := by
  obtain ⟨up, debt, next⟩ := ok
  simp only [execDramRequestIssue, up, decide_eq_false debt.not_ge, next, Bool.not_true, Bool.or_self, Bool.false_eq_true, if_false]

/-- A record changes no word or line. -/
@[simp] theorem State.record_isBad (s : State) (src bit level : Nat) (n : Note) (a : Nat) :
    (s.record src bit level n).isBad a = s.isBad a := by
  simp only [State.isBad, State.cellOf, State.kind, State.record_mem, State.record_heat]

theorem State.scrubLine_of_good {n a da : Nat} (good : s.isBad da = false) :
    s.scrubLine n a (some da) .clean = s ∧
      s.scrubLine n a (some da) .single =
        s.record (s.memUnit da) 5 lvMasked ((scrubOrigin (srcChan n)).note (s.memAddr da)) := by
  simp only [State.scrubLine, State.strike, good, State.record_isBad, Bool.false_eq_true, if_false, and_self]

theorem State.patrol_of_place {n a da : Nat} (cond : EccCond) (place : s.chanDa n a = some da) :
    s.patrol n a cond = (s.lineAccess n a (scrubOrigin (srcChan n))).scrubLine n a (some da) cond := by
  rw [State.patrol, place]

end Channels

/-- Settles O39: what each event of a channel, and each scrub, does. -/
theorem dramChannels : Obligations.DramChannels := by
  refine ⟨fun ch q cond link s ok write => ?write, fun ch q cond link s ok read => ?read,
    fun ch cond l s ok => execDramRequestIssue_of_idle ok, fun ch s up => ?interval, fun ch s up debt => ?forced,
    fun ch rate s up => ?rate, fun ch n s some_ up => ?count, fun _ => rfl, fun _ => rfl, fun ch da s up => ?patrol,
    fun bank conds s within => if_pos within, fun b s off => if_pos off⟩
  case write => exact (execDramRequestIssue_of_request ok).trans (by rw [if_pos write])
  case read => exact (execDramRequestIssue_of_request ok).trans (by rw [if_neg (Bool.eq_false_iff.1 read)])
  case interval => exact if_neg (by simp [up])
  case forced => exact if_pos (by simp [up, debt])
  case rate => exact if_neg (by simp [up])
  case count => exact if_neg (by simp [up, some_])
  case patrol =>
    intro a o u place good
    have runs (cond : EccCond) : execDramPatrolScrub ch cond s = .next ((s.modChan ch.val Chan.nextScrub).patrol ch.val a cond) :=
      if_neg (by simp [up])
    obtain ⟨clean, single⟩ := State.scrubLine_of_good (n := ch.val) (a := a) good
    exact ⟨(runs .clean).trans (congrArg _ ((State.patrol_of_place .clean place).trans clean)),
      (runs .single).trans (congrArg _ ((State.patrol_of_place .single place).trans single))⟩

end Sys2Proof.Machine
end

section
/-! Redundancy: lockstep pairs, the standby Cupola, DUAL execution, self-tests and audits (09 R308 to R342; 10 R376). -/

namespace Sys2Proof.Machine

open Sys2Proof.Certs

section Redundancy
variable {s : State}

/-! ### Lockstep pairs (09 R308) -/

theorem State.lockstep_spire (sp : Fin 64) (bit : Nat) :
    s.lockstep sp.val bit = s.modSpire sp.val fun x => { x with mismatch := true } := if_pos sp.isLt

theorem State.lockstep_dome (d : Fin 16) :
    s.lockstep (srcDome d.val) 35 = (s.record (srcDome d.val) 35 lvUnit {}).domeOutOfService d.val := by
  have dome : ¬ srcDome d.val < 0x40 ∧ srcDome d.val < 0x50 ∧ srcDome d.val - 0x40 = d.val := by
    unfold srcDome
    omega
  obtain ⟨notSpire, isDome, number⟩ := dome
  rw [State.lockstep, if_neg notSpire, if_pos isDome, State.loseDome, number]

theorem execLockstepMismatch_of_cfgParity {src : Nat} (used : srcUsed src = true) (heard : s.silentUnit src = false)
    (other : 64 ≤ src) : execLockstepMismatch (.other src) true s = .next (s.lockstep src 35) := by
  simp [execLockstepMismatch, used, heard, other.not_gt]

/-! ### The standby Cupola (09 R321) -/

/-- The lost Cupola did not build the batches: the standby takes its mailboxes alone. -/
theorem execCupolaTakeover_of_builder_elsewhere (ok : TakeoverOk s) (elsewhere : s.saf.bbActive ≠ s.saf.active) :
    execCupolaTakeover s = .next (tookOver s) := by
  obtain ⟨due, standby⟩ := ok
  simp [execCupolaTakeover, due, standby, elsewhere]

/-- The lost Cupola built the batches: the standby's Batch Builder reissues the steps. -/
theorem execCupolaTakeover_of_builder_lost (ok : TakeoverOk s) (here : s.saf.bbActive = s.saf.active)
    (builder : tget false s.saf.bbOut (1 - s.saf.active) = false) :
    execCupolaTakeover s =
      .next ({ tookOver s with saf := { (tookOver s).saf with bbActive := 1 - s.saf.active } } : State).reissueSteps := by
  obtain ⟨due, standby⟩ := ok
  simp only [execCupolaTakeover, due, standby, Bool.not_true, Bool.false_eq_true, if_false, State.record_saf]
  exact if_pos ⟨here, Bool.eq_false_iff.1 builder⟩

theorem execCupolaTakeover_of_none_left (due : s.saf.takeover = true) (none : tget false s.saf.cupolaOut (1 - s.saf.active) = true) :
    execCupolaTakeover s = .next ((({ s with saf := { s.saf with takeover := false } } : State).record (srcIo s.saf.active 1) 35
      lvPackage {}).packageAll) := by
  simp [execCupolaTakeover, due, none]

/-! ### DUAL execution (09 R333 to R337) -/

/-- The signatures of a run within the package are kept, and the pair compared. -/
theorem execDualSignature_of_local {job : Nat} (shadow : Bool) (sigs : List Nat) (live : (s.job job).live = true)
    (mode : (s.job job).dual = 1 ∨ (s.job job).dual = 2) (open_ : (s.job job).compared = false) :
    execDualSignature job shadow sigs s = .next ((s.modJob job fun b =>
      if shadow then { b with sigsS := some (if b.shadowFailed then [] else sigs) } else { b with sigsP := some sigs }).compareDual
        job) := by
  have here : (s.job job).dual ≠ 0 ∧ (s.job job).dual ≠ 3 := by omega
  simp [execDualSignature, live, here, open_]

theorem execDualArbitration_of_good {p : Fin 16} (live : (s.part p.val).live = true) (due : (s.part p.val).dual.arb = true) :
    execDualArbitration p [] s = .next (s.modPart p.val fun x => { x with dual := { x.dual with arb := false } }) := by
  simp [execDualArbitration, live, due]

/-! ### Self-tests and audits (09 R338 to R342; 10 R376) -/

theorem execSelftestSlot_of_good (enabled : s.saf.test.enabled = true) (notLast : s.saf.test.slot < 199) :
    let x := s.saf.test
    let t := s.elapse ((x.rotation * 200 + x.slot + 1) * 1000000 - s.clk.elapsed)
    let res := if ((slotUnits x.slot).filter fun u => !t.skipped u) = [] then 3 else 1
    execSelftestSlot [] s = .next { t with saf := { t.saf with test := { x with
      slot := x.slot + 1, now := tput 0 x.now x.slot res } } } := by
  simp [execSelftestSlot, enabled, notLast.ne]

theorem execConfigAudit_of_good {l : Fin 2} (inService : LanternIn l s)
    (notLast : tget 0 s.saf.audit l.val + 1 < (sourcesFrom 0).length) :
    execConfigAudit l true true s = .next { s with saf := { s.saf with
      audit := tput 0 s.saf.audit l.val (tget 0 s.saf.audit l.val + 1) } } := by
  have sources : (if l = 0 then sourcesFrom 0 else (sourcesFrom 0).reverse).length = (sourcesFrom 0).length := by
    split
    · rfl
    · exact List.length_reverse
  have more : ¬ (if l = 0 then sourcesFrom 0 else (sourcesFrom 0).reverse).length ≤ tget 0 s.saf.audit l.val + 1 := by
    rw [sources]
    exact notLast.not_ge
  have served : (s.lantern l.val).out = false := inService
  simp only [execConfigAudit, served, more]
  simp

/-! ### Tower Link edges and test windows (01 R22; 09 R339) -/

theorem execLaneFailure_of_repaired {e : Edge} {m : Fin 4} (lane : m.val < edgeModules e) (kept : (s.lostMask e).testBit m.val = false) :
    execLaneFailure e m true s =
      .next (({ s with saf := { s.saf with lanesBad := tmod 0 s.saf.lanesBad (4 * edgeKey e + m.val) fun n => n + 1 } } : State).record
        (edgeSource e) 27 lvMasked {}) := by
  simp [execLaneFailure, lane.not_ge, kept]

theorem execTestWindow_opens {e : Fin 2} (shut : TestUnit.engine e ∉ s.saf.test.windows) (due : s.windowDue (.engine e) = true) :
    execTestWindow (.engine e) true s = .next { s with saf := { s.saf with test := { s.saf.test with
      windows := .engine e :: s.saf.test.windows } } } := by
  simp [execTestWindow, shut, due]

theorem execTestWindow_closes {e : Fin 2} (isOpen : TestUnit.engine e ∈ s.saf.test.windows) :
    execTestWindow (.engine e) false s = .next { s with saf := { s.saf with test := { s.saf.test with
      windows := s.saf.test.windows.filter fun u => u ≠ .engine e } } } := by
  simp [execTestWindow, isOpen]

end Redundancy

/-- Settles O43: what each row does where nothing fails, and the reactions of the failures the rows bring. -/
theorem redundancy : Obligations.Redundancy :=
  ⟨fun sp _ running => congrArg Host.Outcome.next ((if_neg (Bool.eq_false_iff.1 running)).trans (State.lockstep_spire sp 35)),
    fun d _ _ serves => congrArg Host.Outcome.next ((if_neg (Bool.eq_false_iff.1 serves)).trans (State.lockstep_dome d)),
    fun _ _ used heard other => execLockstepMismatch_of_cfgParity used heard other,
    fun _ ok elsewhere => execCupolaTakeover_of_builder_elsewhere ok elsewhere,
    fun _ ok here builder => execCupolaTakeover_of_builder_lost ok here builder,
    fun _ due none => execCupolaTakeover_of_none_left due none,
    fun _ sigs _ live mode open_ =>
      ⟨execDualSignature_of_local false sigs live mode open_, execDualSignature_of_local true sigs live mode open_⟩,
    fun _ _ live due => execDualArbitration_of_good live due,
    fun _ enabled notLast => execSelftestSlot_of_good enabled notLast,
    fun _ _ inService notLast => execConfigAudit_of_good inService notLast,
    fun _ _ => rfl,
    fun _ _ _ lane kept => execLaneFailure_of_repaired lane kept,
    fun _ _ shut due => execTestWindow_opens shut due,
    fun _ _ isOpen => execTestWindow_closes isOpen⟩

end Sys2Proof.Machine
end

section
/-! Cameras: frames, packets, silence and trust (11 R379 to R395). -/

namespace Sys2Proof.Machine

open Sys2Proof.Certs

section Cameras
variable {port vc : Fin 16} {b : Binding} {r : RxFrame} {s : State}

/-! ### Frames (11 R381 to R388) -/

/-- Without a frame in progress there is none to end. -/
theorem State.endFrame_of_idle {k : Nat} (complete : Bool) (idle : (s.stream k).frame = none) : s.endFrame k complete = s := by
  unfold State.endFrame
  cases bind : (s.stream k).bind <;> simp [idle]

theorem State.applyRebind_of_none {k : Nat} (noRebind : (s.stream k).next = none) : s.applyRebind k = s := by
  unfold State.applyRebind
  cases bind : (s.stream k).bind <;> simp [noRebind]

theorem execCsiFrameStart_of_bound (n : Nat) (ok : BoundOk port vc b s) (stays : (s.stream (slotOfVc port vc)).unbind = false)
    (noRebind : (s.stream (slotOfVc port vc)).next = none) (idle : (s.stream (slotOfVc port vc)).frame = none) :
    execCsiFrameStart port vc n s = .next (s.beginFrame (slotOfVc port vc) b n) := by
  obtain ⟨serves, bound⟩ := ok
  simp [execCsiFrameStart, serves, stays, State.endFrame_of_idle false idle, State.applyRebind_of_none noRebind, bound]

theorem execCsiFrameStart_of_unbind (n : Nat) (serves : tget false s.saf.portOut port.val = false)
    (leaves : (s.stream (slotOfVc port vc)).unbind = true) :
    execCsiFrameStart port vc n s = .next (s.applyUnbind (slotOfVc port vc)) := by
  simp [execCsiFrameStart, serves, leaves]

/-! ### Packets (11 R379, R384) -/

/-- A packet of a frame in progress whose header is clean and that is neither a line start nor a line end. -/
theorem execCsiPacket_of_clean {p : CsiPkt} (nonce : Nat) (ok : FrameOk port vc b r s) (clean : p.header = .clean) (start : p.dt ≠ 2)
    (stop : p.dt ≠ 3) : execCsiPacket port vc p nonce s = .next
      (if !p.crcOk then s.csiFail (slotOfVc port vc)
       else if p.dt = 0x12 then s.embArrives (slotOfVc port vc) b r p nonce
       else if p.dt = b.f 3 1 then s.lineArrives (slotOfVc port vc) b r p
       else s.modStream (slotOfVc port vc) fun x => { x with discarded := x.discarded + 1 }) := by
  obtain ⟨⟨serves, bound⟩, frame⟩ := ok
  simp only [execCsiPacket, serves, bound, frame, clean, start, stop]
  simp only [Bool.false_eq_true, if_false, reduceCtorEq, apply_ite Host.Outcome.next]

theorem execCsiPacket_of_badHeader {p : CsiPkt} (nonce : Nat) (ok : FrameOk port vc b r s) (bad : p.header = .bad) :
    execCsiPacket port vc p nonce s = .next (s.csiFail (slotOfVc port vc)) := by
  obtain ⟨⟨serves, bound⟩, -⟩ := ok
  simp [execCsiPacket, serves, bound, bad]

/-! ### The release of a frame (11 R385, R386) -/

/-- A complete frame of the size bound, without identity or test lines to check, passes. -/
theorem State.endChecks_of_good {k : Nat} (whole : r.failed = false) (shut : r.openLine = false) (lines : r.lines = b.f 8 2)
    (noTest : b.flag 0 = false) (noIdent : b.flag 1 = false) : s.endChecks k b r true = s := by
  simp [State.endChecks, whole, shut, lines, noTest, noIdent]

theorem execCsiFrameEnd_of_released {i : Nat} (ok : FrameReleaseOk port vc b r i s) :
    let k := slotOfVc port vc
    let a := b.f 0x10 8 + i * b.f 0x18 4
    let t := (s.writeCells a ((s.stream k).header b r) (s.unitAt a) 65).modStream k fun x => { x with frame := none, first := false }
    let u := t.modStream k fun x => { x with dropped := 0 }
    execCsiFrameEnd port vc s = .next (u.postStream k 1 (r.fc.getD 0)
      [r.start % 2 ^ 32, r.start / 2 ^ 32, u.clk.ctc % 2 ^ 32, u.clk.ctc / 2 ^ 32]) := by
  obtain ⟨⟨⟨serves, bound⟩, frame⟩, buffer, whole, shut, lines, noTest, noIdent, noLaunch, quiet, qm⟩ := ok
  intro k a t u
  have bound : (s.stream k).bind = some b := bound
  have frame : (s.stream k).frame = some r := frame
  obtain ⟨bytes, dirty, bad, written⟩ := State.writeCells_frame (s.unitAt a) 65 a ((s.stream k).header b r) s
  have stillQm : (t.part b.part).cls = 0 := by
    unfold t
    rw [written]
    exact qm
  have ends : s.endFrame k true = u.postStream k 1 (r.fc.getD 0)
      [r.start % 2 ^ 32, r.start / 2 ^ 32, u.clk.ctc % 2 ^ 32, u.clk.ctc / 2 ^ 32] := by
    simp only [State.endFrame, bound, frame, State.endChecks_of_good whole shut lines noTest noIdent, quiet, buffer, whole, noLaunch,
      Option.getD_some, Bool.false_and, Bool.false_eq_true, if_false, if_true]
    exact if_neg fun h => h.1 stillQm
  rw [execCsiFrameEnd, serves, if_neg Bool.false_ne_true]
  exact congrArg Host.Outcome.next ends

/-! ### Silence and trust (11 R387, R389 to R395) -/

theorem execStreamSilent_of_silentOk (ok : SilentOk port vc b s) :
    let k := slotOfVc port vc
    let t := s.elapse ((s.stream k).lastStart + b.timeoutNs - s.clk.elapsed)
    execStreamSilent port vc s = .next (((t.modStream k fun x => { x with silent := true }).postStream k 4
      ((s.stream k).prevFc.getD 0) []).record (rxSource k) 4 lvTask { part := some b.part }) := by
  obtain ⟨bound, heard, noRebind⟩ := ok
  simp [execStreamSilent, bound, heard, noRebind]

theorem execResponseVerified_of_response {d : List Byte} {fc : Nat} (bound : (s.stream (slotOfVc port vc)).bind = some b)
    (response : (s.stream (slotOfVc port vc)).verify = some (d, fc)) :
    let k := slotOfVc port vc
    let due := if b.f 0x28 2 = 0 then none else some (s.clk.elapsed + 1000000000 * b.f 0x28 2)
    execResponseVerified port vc s = .next (if s.responseOk d fc then
      (s.modStream k fun x => { x with
        snap := some (slice d 4 16, slice d 24 57, four d 256), nonce := none, verify := none, left := 0, reauthAt := due }).setTrust k 2
      else s.untrust k) := by
  simp only [execResponseVerified, bound, response]
  exact (apply_ite Host.Outcome.next _ _ _).symm

theorem execReauthChallenge_of_reauthOk {t : Nat} (nonce : Nat) (ok : ReauthOk port vc b t s) :
    let k := slotOfVc port vc
    let u := s.elapse (t - s.clk.elapsed)
    execReauthChallenge port vc nonce s = .next ((u.modStream k fun x => { x with
      reauthAt := some (u.clk.elapsed + 1000000000 * b.f 0x28 2) }).challenge k nonce) := by
  obtain ⟨bound, due, trusted⟩ := ok
  simp only [execReauthChallenge, bound, due]
  exact if_pos trusted

end Cameras

/-- Settles O44: frames, packets and trust, one lemma for each outcome. -/
theorem cameras : Obligations.Cameras := by
  refine ⟨fun port vc b n s ok stays noRebind idle => execCsiFrameStart_of_bound n ok stays noRebind idle,
    fun port vc n s serves leaves => execCsiFrameStart_of_unbind n serves leaves, fun port vc b r p nonce s ok bad => ?bad,
    fun port vc b r p nonce s ok good line emb => ?line, fun port vc b r p nonce s ok good other emb => ?other,
    fun port vc b r i s ok => execCsiFrameEnd_of_released ok, fun port vc b s ok => execStreamSilent_of_silentOk ok,
    fun port vc b d fc s bound response => execResponseVerified_of_response bound response,
    fun port vc b t nonce s ok => execReauthChallenge_of_reauthOk nonce ok,
    fun port vc nonce s paired => congrArg Host.Outcome.next (if_pos paired)⟩
  case bad =>
    rcases bad with header | ⟨clean, start, stop, checksum⟩
    · exact execCsiPacket_of_badHeader nonce ok header
    · refine (execCsiPacket_of_clean nonce ok clean start stop).trans (congrArg Host.Outcome.next (if_pos ?_))
      rw [checksum]
      rfl
  case line =>
    obtain ⟨clean, start, stop, checksum⟩ := good
    refine (execCsiPacket_of_clean nonce ok clean start stop).trans (congrArg Host.Outcome.next ?_)
    exact (if_neg (by rw [checksum]; decide)).trans ((if_neg emb).trans (if_pos line))
  case other =>
    obtain ⟨clean, start, stop, checksum⟩ := good
    refine (execCsiPacket_of_clean nonce ok clean start stop).trans (congrArg Host.Outcome.next ?_)
    exact (if_neg (by rw [checksum]; decide)).trans ((if_neg emb).trans (if_neg other))

end Sys2Proof.Machine
end

section
/-! SYNC_IN and the twin exchange (08 R294 to R297), monitors and Lanterns (09 R310 to R322). -/

namespace Sys2Proof.Machine

open Sys2Proof.Certs

/-! ### Time -/

section Time
variable {s : State}

@[simp] theorem Clock.elapse_periodMs (c : Clock) (dt : Nat) : (c.elapse dt).periodMs = c.periodMs := by
  unfold Clock.elapse
  split
  · rfl
  · split <;> rfl

theorem execSyncInEdge_of_claimed {dt : Nat} (claimed : s.claimed 1 = true) (period : s.clk.periodMs ≠ 0) :
    let t := s.elapse dt
    let p := t.clk.periodMs * 1000000
    let e := edgeError t.clk.ctc p t.clk.offsetNs
    let good := if e.natAbs ≤ 20 then t.clk.goodEdges + 1 else 0
    let u : State := { t with clk := { t.clk with
      syncLatch := t.clk.ctc, lastEdge := some t.clk.elapsed, holdover := false, syncErr := sat32 e, goodEdges := good
      syncLocked := decide (e.natAbs ≤ 100) && (t.clk.syncLocked || decide (4 ≤ good)) } }
    execSyncInEdge dt s = .next
      (if e.natAbs ≤ 1000000 ∧ 2 * e.natAbs < p then (if s.isSecondary then u else u.steer e)
       else { u with clk := { u.clk with syncFar := true } }) := by
  have claimed : (s.elapse dt).claimed 1 = true := claimed
  have period : (s.elapse dt).clk.periodMs ≠ 0 := by rwa [State.elapse, Clock.elapse_periodMs]
  simp only [execSyncInEdge, claimed, period, Bool.not_true, Bool.false_eq_true, if_false]
  exact (apply_ite Host.Outcome.next _ _ _).symm

/-- An exchange of a paired pair takes the offset in, then aligns or steers. -/
theorem execTwinTimeExchange_of_offset {ps : Int} (paired : s.tw.st = 1) :
    let good := if ps.natAbs ≤ 8000 then s.clk.goodExch + 1 else 0
    let t : State := { s with clk := { s.clk with
      twinOffset := sat32 ps, missExch := 0, goodExch := good
      twinValid := decide (ps.natAbs ≤ 8000) && (s.clk.twinValid || decide (16 ≤ good)) } }
    execTwinTimeExchange ps false s = .next (if s.clk.align then t.alignCtc ps else if t.isSecondary then t.steer (-ps) else t) := by
  simp only [execTwinTimeExchange, paired, ne_eq, not_true_eq_false, Bool.false_eq_true, if_false, decide_eq_true_eq]

theorem State.isSecondary_of_paired (paired : s.tw.st = 1) : s.isSecondary = true ↔ s.tw.role = 1 := by
  simp [State.isSecondary, paired]

end Time

/-- Settles O40: edges and exchanges that come, and those that do not. -/
theorem syncAndExchange : Obligations.SyncAndExchange := by
  refine ⟨fun dt s claimed period => execSyncInEdge_of_claimed claimed period, fun dt s free => ?unclaimed,
    fun t0 s ⟨claimed, period, edge⟩ => ?missed, fun t0 s ⟨claimed, period, edge⟩ => ?holdover,
    fun ps s paired steers => ⟨?offset, ?missing⟩, fun ps s paired align => ?aligned, fun s many => if_pos many⟩
  case unclaimed => exact if_pos (by rw [show (s.elapse dt).claimed 1 = false from free]; rfl)
  case missed =>
    simp only [exec, execSyncMissed, edge]
    exact if_pos ⟨claimed, period⟩
  case holdover =>
    simp only [exec, execHoldover, edge]
    exact if_pos ⟨claimed, period⟩
  case offset =>
    refine (execTwinTimeExchange_of_offset paired).trans (congrArg _ ((if_neg (Bool.eq_false_iff.1 steers)).trans ?_))
    exact if_congr (State.isSecondary_of_paired paired) rfl rfl
  case missing => exact (if_neg (not_not_intro paired)).trans (if_pos rfl)
  case aligned => exact (execTwinTimeExchange_of_offset paired).trans (congrArg _ (if_pos align))

/-! ### Monitors -/

section Clocks
variable {isl : Island} {count : Nat} {s : State}

theorem execClockMonitorWindow_of_near (near : ((2 * count : Nat) - (s.setCount isl : Int)).natAbs * 50 ≤ s.setCount isl) :
    execClockMonitorWindow isl count s = .next s := if_pos near

/-- A clock that is off reacts as its island does. -/
theorem execClockMonitorWindow_of_off (off : s.setCount isl < ((2 * count : Nat) - (s.setCount isl : Int)).natAbs * 50) :
    execClockMonitorWindow isl count s = match isl with
    | .spire sp =>
      if (s.spire sp.val).quarantined ∨ (s.spire sp.val).stopped then .next s
      else .next ((s.record (srcTower (sp.val / 16) 0x18) 38 lvUnit { source := some sp.val }).quarantine sp.val)
    | .dome d => .next ((s.record (srcTower (d.val / 4) 0x18) 38 lvTower { source := some (srcDome d.val) }).towerQuarantine (d.val / 4))
    | .towerBase t => .next ((s.record (srcTower t.val 0x18) 38 lvPackage {}).packageFrom (srcTower t.val 0x18))
    | isl => execClockMonitorWindow isl count s := by
  cases isl with
  | spire sp => exact if_neg off.not_ge
  | dome d => exact if_neg off.not_ge
  | towerBase t => exact if_neg off.not_ge
  | _ => rfl

end Clocks

/-- Settles O41: each supply's and each clock's reaction. -/
theorem monitors : Obligations.Monitors := by
  refine ⟨fun _ _ => rfl, fun sp s serves => if_neg (Bool.eq_false_iff.1 serves), fun _ => rfl, fun _ => rfl, fun _ _ => rfl,
    fun rail s which => ?undecided, fun _ => rfl, fun sp count s ⟨off, whole, runs⟩ => ?spire,
    fun d count s off => execClockMonitorWindow_of_off (isl := .dome d) off,
    fun t count s off => execClockMonitorWindow_of_off (isl := .towerBase t) off,
    fun isl count s near => execClockMonitorWindow_of_near near, fun _ => rfl⟩
  case undecided =>
    rcases which with rfl | rfl
    · rfl
    · rfl
  case spire => exact (execClockMonitorWindow_of_off (isl := .spire sp) off).trans (if_neg (by simp [whole, runs]))

/-! ### Lanterns -/

section Lantern
variable {l : Fin 2} {s : State}

theorem State.heartbeat_of_in {k : Nat} {ok : Bool} (serves : LanternIn l s) :
    s.heartbeat l.val k ok = s.modLantern l.val fun x => { x with
      miss := tmod 0 x.miss k fun n => if ok then 0 else n + 1
      heard := if ok ∧ k ∉ x.heard then k :: x.heard else x.heard } := by
  simp [State.heartbeat, serves]

theorem execHbLost_of_towerMonitor {t : Fin 4} (serves : LanternIn l s) (missing : 3 ≤ tget 0 (s.lantern l.val).miss t.val) :
    let u := (s.modLantern l.val fun x => { x with miss := tput 0 x.miss t.val 0 }).record (srcIo l.val 2) 36 lvPackage {}
    execHbLost (.towerMonitor t) l s = .next (u.packageDecision l.val u.recs.seq) := by
  simp only [execHbLost]
  exact if_neg (by simp [serves, missing.not_gt])

theorem execHbLost_of_cupola {c : Fin 2} (serves : LanternIn l s) (missing : 3 ≤ tget 0 (s.lantern l.val).miss (4 + c.val))
    (present : tget false s.saf.cupolaOut c.val = false) (other : s.saf.takeover = true → c.val ≠ s.saf.active) :
    execHbLost (.cupola c) l s = .next ((s.modLantern l.val fun x => { x with miss := tput 0 x.miss (4 + c.val) 0 }).loseCupola c.val 36
      (srcIo l.val 2)) := by
  simp only [execHbLost]
  refine (if_neg (by simp [serves, missing.not_gt])).trans (if_neg ?_)
  rintro (lost | ⟨takeover, active⟩)
  · exact Bool.eq_false_iff.1 present lost
  · exact other takeover active

theorem execPeerSilent_of_missing (serves : LanternIn l s) (present : (s.lantern l.val).peerLost = false)
    (missing : 3 ≤ (s.lantern l.val).cwMiss) :
    let t := (s.modLantern l.val fun x => { x with peerLost := true }).record (srcIo l.val 2) 36 lvPackage { detail := 7 }
    execPeerSilent l s = .next (t.packageDecision l.val t.recs.seq) := by
  exact if_neg (by simp [serves, present, missing.not_gt])

theorem execLanternDecision_of_in {rep : Report} (serves : LanternIn l s) :
    execLanternDecision l rep s =
      let raise (n : Nat) (s : State) : State := s.modLantern l.val fun x => { x with level := max x.level n }
      match rep with
      | .masked => .next s
      | .task => .next (raise 1 s)
      | .unitLoss src => .next ((raise 2 s).unitOut src)
      | .partition p => .next (if (s.part p.val).live then (raise 3 s).degrade p.val else s)
      | .tower t => .next (if tget false s.saf.towerQ t.val then s else (raise 4 s).towerQuarantine t.val)
      | .package => .next (s.packageDecision l.val s.recs.seq) :=
  if_neg (Bool.eq_false_iff.1 serves)

end Lantern

/-- Settles O42: what a Lantern in service does with each thing it hears, misses or decides. -/
theorem lanterns : Obligations.Lanterns := by
  refine ⟨fun _ _ _ _ serves => congrArg _ (State.heartbeat_of_in serves), fun _ _ _ _ serves => congrArg _ (State.heartbeat_of_in serves),
    fun _ _ _ serves missing => execHbLost_of_towerMonitor serves missing,
    fun _ _ _ serves missing present other => execHbLost_of_cupola serves missing present other,
    fun l s serves => if_neg (Bool.eq_false_iff.1 serves),
    fun l level s serves => ⟨if_neg (Bool.eq_false_iff.1 serves), if_neg (Bool.eq_false_iff.1 serves)⟩,
    fun _ _ serves present missing => execPeerSilent_of_missing serves present missing,
    fun _ _ serves => ⟨execLanternDecision_of_in (rep := .masked) serves, execLanternDecision_of_in (rep := .task) serves⟩,
    fun _ src _ serves => execLanternDecision_of_in (rep := .unitLoss src) serves,
    fun _ _ serves => execLanternDecision_of_in (rep := .package) serves,
    fun l p s serves live => (execLanternDecision_of_in (rep := .partition p) serves).trans (congrArg _ (if_pos live)),
    fun l t s serves present => (execLanternDecision_of_in (rep := .tower t) serves).trans (congrArg _ (if_neg (Bool.eq_false_iff.1 present))),
    fun l s toggles => congrArg _ (if_pos toggles)⟩

end Sys2Proof.Machine
end

section
/-! Displays (11 R396 to R401) and the East I3C role (11 R404). -/

namespace Sys2Proof.Machine

open Sys2Proof.Certs

/-! ### Displays -/

section DisplayEvents
variable {port : Fin 4} {b : Binding} {s : State}

theorem execDisplayFrameStart_of_first (works : tget false s.cam.portOff port.val = false) (unbound : (s.display port.val).bind = none)
    (next : (s.display port.val).next = some b) :
    let k := b.frameFrom (s.display port.val).nextAt
    execDisplayFrameStart port s = .next (((s.elapseTo (b.frameAt k)).modDisplay port.val fun _ =>
      ({ bind := some b, k := k + 1 } : Display).begin_ b false).finishAll (.displayBind port.val) stOk 0 []) := by
  simp only [execDisplayFrameStart, works, unbound, next, Bool.false_eq_true, if_false]

theorem execDisplayFrameStart_of_displayOk (ok : DisplayOk port b s) :
    execDisplayFrameStart port s = .next ((s.elapseTo (b.frameAt (s.display port.val).k)).modDisplay port.val fun d =>
      ({ d with k := d.k + 1 }).begin_ b false) := by
  obtain ⟨works, bound, noChange⟩ := ok
  simp only [execDisplayFrameStart, works, bound, noChange, Bool.false_eq_true, if_false]

theorem execDisplayLineSend_of_lineOk {late : List (Nat × Nat)} (ok : LineOk port b s) :
    let d := s.display port.val
    let ls := b.stack d.disabled d.line
    let w := b.f 6 2
    let hit := ls.any fun (l : Nat × Layer) => late.any fun t =>
      decide (t.1 = l.1) && decide (t.2 < min w (l.2.x + l.2.w)) && decide (l.2.x < w)
    let bytes := packLine (decide (b.f 3 1 = 0x24)) ((List.range w).map fun x => s.composePixel b ls late x d.line)
    execDisplayLineSend port late s = .next (s.modDisplay port.val fun d' => { d' with
      line := d.line + 1, under := d'.under || hit, sent := bytes, crc := bytes.foldl (crcByte 64 0x42F0E1EBA9EA3693) d'.crc }) := by
  obtain ⟨⟨works, bound, -⟩, within, started, readable⟩ := ok
  have goes : ¬ (b.f 8 2 ≤ (s.display port.val).line ∨ (s.display port.val).frames = 0 ∨ tget false s.cam.portOff port.val = true) := by
    simp [within, started, works]
  simp only [execDisplayLineSend, bound, if_neg goes, readable, List.foldl_nil]

theorem State.disableLayer_of_layerOk {layer : Fin 4} (ok : LayerOk port layer b s) :
    let y := b.layer layer.val
    let bit := if (s.kindRange y.da (max 1 y.span)).isSome then 17 else 11
    let t := (s.record (txSource port.val) bit lvTask { addr := y.da, part := some b.part, source := some (txSource port.val) }).modDisplay
      port.val fun d => { d with disabled := d.disabled ||| BitVec.ofNat 4 (2 ^ layer.val) }
    s.disableLayer port.val layer.val = t.post 6 (txSource port.val) 1 (port.val * 16 + layer.val) [] false := by
  obtain ⟨bound, enabled, fresh⟩ := ok
  simp only [State.disableLayer, bound, enabled, fresh]
  rfl

theorem execLoopbackTestDone_of_claimed {fails : List Nat} (claimed : (s.claimOf 3 0).isSome = true) :
    let bad := (List.range 4).filter fun p => decide (p ∈ fails)
    let t := bad.foldl (fun s p =>
      let u := s.record (srcIo (p / 2) (0x18 + p % 2)) 33 lvUnit {}
      { u with cam := { u.cam with portOff := tput false u.cam.portOff p true } }) s
    let v : State := { t with saf := { t.saf with test := { t.saf.test with loopback := if bad.isEmpty then 1 else 2 } } }
    execLoopbackTestDone fails s = .next ((v.dropClaims fun c => decide (c.res = 3)).bump) := by
  obtain ⟨claim, claimed⟩ := Option.isSome_iff_exists.1 claimed
  simp only [execLoopbackTestDone, claimed]

end DisplayEvents

/-- Settles O45: frames, lines, layers and the loopback test. -/
theorem displays : Obligations.Displays :=
  ⟨fun _ _ _ works unbound next => execDisplayFrameStart_of_first works unbound next,
    fun _ _ _ ok => execDisplayFrameStart_of_displayOk ok, fun _ _ _ _ ok => execDisplayLineSend_of_lineOk ok,
    fun _ _ _ _ ok => congrArg _ (State.disableLayer_of_layerOk ok), fun _ _ claimed => execLoopbackTestDone_of_claimed claimed⟩

/-- Settles O46: the role's handoff, its bulk claim's end, its return and its retry. -/
theorem i3cRole : Obligations.I3cRole := by
  refine ⟨fun c s role claim waits => ?accepted, fun c s role claim => ?refused, fun c s claim => ?expiry,
    fun nonces s role => if_neg (not_not_intro role), fun s role => if_neg (not_not_intro role)⟩
  case accepted =>
    simp only [exec, execI3cHandoffAccepted, role, claim]
    exact if_pos waits
  case refused => simp only [exec, execI3cHandoffAccepted, role, claim, Bool.not_false, if_true]
  case expiry => simp only [exec, execCamSbBulkExpiry, claim]

end Sys2Proof.Machine
end

section
/-! Resets and the package identity check (14 R462 to R464; 01 R29 to R32), and boot (14 R465 to R479). -/

namespace Sys2Proof.Machine

open Sys2Proof.Certs

/-! ### Resets -/

section ResetEvents
variable {s : State}

theorem execDelayedWarmReset_of_delayed {cause t : Nat} (delayed : s.bs.delayed = some (cause, t)) :
    execDelayedWarmReset s = match s.bs.lcTo with
      | some lc => .next (((s.elapse (t - s.clk.elapsed)).transition lc).warmReset cause)
      | none => .next ((s.elapse (t - s.clk.elapsed)).warmReset cause) := by
  have target : (s.elapse (t - s.clk.elapsed)).bs.lcTo = s.bs.lcTo := rfl
  simp only [execDelayedWarmReset, delayed, target]
  cases s.bs.lcTo <;> rfl

theorem execPkgIdentCheck_of_clean {ws : List Nat} {hears : LanternsHear} (due : IdentDue s) (good : LanternsGood s)
    (clean : s.identFound s.saf.prevStraps ws hears = []) :
    let t := (sampled (ws.take 6) s).lanternsUp true
    let u : State := { t with saf := { t.saf with identOk := true } }
    execPkgIdentCheck ws hears s = .next
      (if s.otp.lc = 5 then ({ u with bs := { u.bs with stage := stHalted } } : State).bootErr 3 0x0C
       else { u with bs := { u.bs with stage := stReleased } }) := by
  obtain ⟨unchecked, powered⟩ := due
  obtain ⟨firstHolds, secondHolds, firstIn, secondIn⟩ := good
  simp only [execPkgIdentCheck]
  refine (if_neg ?due).trans ((if_neg ?clean).trans ((if_neg ?good).trans (apply_ite Host.Outcome.next _ _ _).symm))
  case due => simp [unchecked, powered]
  case clean => simp [clean]
  case good => simp [firstHolds, secondHolds, firstIn, secondIn]

theorem execPkgIdentCheck_of_found {ws : List Nat} {hears : LanternsHear} (due : IdentDue s)
    (found : s.identFound s.saf.prevStraps ws hears ≠ []) :
    execPkgIdentCheck ws hears s = .next
      (((sampled (ws.take 6) s).identFailsAll (s.identFound s.saf.prevStraps ws hears)).lanternsUp false) := by
  obtain ⟨unchecked, powered⟩ := due
  exact (if_neg (by simp [unchecked, powered])).trans (if_pos (by simpa using found))

theorem execTowerResetDone_of_waits {t : Fin 4} {ws : List Nat} {hears : LanternsHear} {fails : List Nat}
    (waits : s.waits (.towerReset t.val) = true) :
    let found := s.identFound s.saf.prevStraps (towerStraps t ws s ++ ws.drop 6) hears
    let u := (fails.filter fun k => decide (srcTowerOf k = some t.val)).foldl (fun s k => s.selftestFail k 0)
      ((sampled (towerStraps t ws s) s).freshTower t.val)
    execTowerResetDone t ws hears fails s = .next
      (if (!found.isEmpty) = true ∨ s.pkgIdent 0 = true ∨ s.pkgIdent 1 = true then
        (((sampled (towerStraps t ws s) s).warmReset s.bs.cause).identFailsAll found).lanternsUp false
       else u.finishAll (.towerReset t.val) stOk 0 []) := by
  simp only [execTowerResetDone, waits, Bool.not_true, Bool.false_eq_true, if_false]
  exact (apply_ite Host.Outcome.next _ _ _).symm

end ResetEvents

/-- Settles O47: power, the reset pin, delayed resets, the identity check and a reset Tower. -/
theorem resets : Obligations.Resets := by
  refine ⟨fun _ => rfl, fun s off => ?powerOn, fun ns s long => if_pos long, fun ns s short => ?short,
    fun cause t s delayed none_ => ?plain, fun cause t lc s delayed target => ?transition,
    fun ws hears s due good clean usable => (execPkgIdentCheck_of_clean due good clean).trans (congrArg _ (if_neg usable)),
    fun ws hears s due good clean ended => (execPkgIdentCheck_of_clean due good clean).trans (congrArg _ (if_pos ended)),
    fun ws hears s due found => execPkgIdentCheck_of_found due found,
    fun t ws hears fails s waits firstGood secondGood clean => ?released, fun t ws hears fails s waits => ?inconsistent⟩
  case powerOn => exact congrArg _ (if_neg (Bool.eq_false_iff.1 off))
  case short => exact (if_neg (by omega)).trans (if_pos short)
  case plain => exact (execDelayedWarmReset_of_delayed delayed).trans (by rw [none_])
  case transition => exact (execDelayedWarmReset_of_delayed delayed).trans (by rw [target])
  case released =>
    refine (execTowerResetDone_of_waits waits).trans (congrArg _ (if_neg ?_))
    simp [clean, firstGood, secondGood]
  case inconsistent =>
    intro found bad
    refine (execTowerResetDone_of_waits waits).trans (congrArg _ (if_pos ?_))
    exact bad.imp_left fun some_ => by simpa using some_

/-! ### Boot -/

section BootEvents
variable {s : State}

theorem State.trySlot_of_offered (offered : s.slotLen s.firstSlot ≠ 0) (untried : s.bs.tried = []) :
    s.trySlot = { s with bs := { s.bs with
      stage := stFetch, slot := s.firstSlot, tried := [s.firstSlot], waitSince := s.clk.elapsed } } := by
  rw [State.trySlot, List.find?_cons_of_pos (by simp [offered, untried])]
  simp only [untried]

theorem State.bootGo_of_open {ep : Nat} (open_ : s.bootOpen = true) (offered : s.slotLen s.firstSlot ≠ 0) :
    s.bootGo ep = { s with bs := { s.bs with
      goEp := some ep, stage := stFetch, slot := s.firstSlot, tried := [s.firstSlot], waitSince := s.clk.elapsed } } := by
  rw [State.bootGo, if_pos open_]
  exact State.trySlot_of_offered offered rfl

theorem execImageFetchDone_of_fetch {ok : Bool} (fetch : s.bs.stage = stFetch) :
    let n := s.slotLen s.bs.slot
    execImageFetchDone ok s = .next
      (if !ok || !s.srcOk (s.bootDa s.bs.slot) n then (s.bootErr s.bs.slot 2).trySlot
       else match s.checkImage (s.rd (s.bootDa s.bs.slot) n) with
        | .inr code => (s.bootErr s.bs.slot code).trySlot
        | .inl f => if s.stagedDiffers s.bs.slot f then (s.bootErr s.bs.slot 10).trySlot else s.loadImage f s.bs.slot false) := by
  simp only [execImageFetchDone, fetch, ne_eq, not_true_eq_false, if_false]
  rw [apply_ite Host.Outcome.next]
  cases s.checkImage (s.rd (s.bootDa s.bs.slot) (s.slotLen s.bs.slot)) <;> rfl

theorem execRecoveryVerifyDone_of_loaded {l : Nat} (by_ : s.bs.rcvBy = some l) (loaded : s.bs.rcvState = 3) :
    execRecoveryVerifyDone s = .next (match s.checkImage (s.bs.rcvData.take (tget 0 s.bs.rcvLen l)) with
      | .inl f => let t := s.loadImage f 2 true
        { t with bs := { t.bs with rcvState := 4 } }
      | .inr code => let t := (s.bootErr 2 code).recoveryWait
        { t with bs := { t.bs with rcvErr := code } }) := by
  simp only [execRecoveryVerifyDone, by_, loaded, ne_eq, not_true_eq_false, if_false]
  cases s.checkImage (s.bs.rcvData.take (tget 0 s.bs.rcvLen l)) <;> rfl

theorem execLanternSectionCheck_of_sectionOk {l : Fin 2} {f : FwImage} (ok : SectionOk l f s) :
    let t : State := { s with bs := { s.bs with
      lanternsUp := tput false s.bs.lanternsUp l.val true, lantFw := tput none s.bs.lantFw l.val (some f.lantern) } }
    execLanternSectionCheck l true s = .next (if t.sectionsDone then { t with bs := { t.bs with stage := stUnitInit } } else t) := by
  obtain ⟨fw, load, serves, down, runs⟩ := ok
  simp only [execLanternSectionCheck, fw, load, serves, down, runs]
  simp

theorem execUnitInitDone_of_unitInit {fails : List Nat} (stage : s.bs.stage = stUnitInit) :
    let t := (fails.filter srcUsed).foldl (fun s u => s.selftestFail u 0) s
    let u := if (fails.filter srcUsed).isEmpty then t else t.bootErr s.bs.booted 0x0B
    execUnitInitDone fails s = .next { u with bs := { u.bs with stage := stConfig } } := by
  cases bad : fails.filter srcUsed with
  | nil => simp only [execUnitInitDone, stage, bad]; rfl
  | cons u rest => simp only [execUnitInitDone, stage, bad]; rfl

theorem execLmpReady_of_config {f : FwImage} (fw : s.bs.fw = some f) (config : s.bs.stage = stConfig) (wiped : s.bs.wiped = true) :
    let t := s.placeQueues
    let u := t.setQ 0 { t.q 0 with enable := true }
    execLmpReady s = .next { u with
      bs := { u.bs with stage := stReady, lmpReady := true, timeUs := u.clk.elapsed / 1000, staging := none }
      otp := { u.otp with rollback := max u.otp.rollback f.rollback } } := by
  simp only [execLmpReady, fw]
  exact if_neg (by simp [config, wiped])

end BootEvents

/-- Settles O48: each step of the boot under its conditions. -/
theorem boot : Obligations.Boot := by
  refine ⟨fun s whole => if_pos whole, fun ep s open_ offered => congrArg _ (State.bootGo_of_open open_ offered),
    fun ok s fetch => execImageFetchDone_of_fetch fetch, fun s waits noGo => if_pos ⟨waits, Option.isNone_iff_eq_none.2 noGo⟩,
    fun s fetch => if_pos fetch, fun l s by_ loaded => execRecoveryVerifyDone_of_loaded by_ loaded,
    fun l f s ok => execLanternSectionCheck_of_sectionOk ok, fun fails s stage good => ?good, fun fails s stage bad => ?bad,
    fun f s fw config wiped => execLmpReady_of_config fw config wiped, fun _ _ => rfl⟩
  case good =>
    refine (execUnitInitDone_of_unitInit stage).trans ?_
    rw [good]
    rfl
  case bad =>
    refine (execUnitInitDone_of_unitInit stage).trans ?_
    dsimp only
    rw [if_neg (by simpa using bad)]

end Sys2Proof.Machine
end

section
/-! Sensors and ceilings (15 R490 to R494); regulators, coolant and power domains (15 R484 to R505). -/

namespace Sys2Proof.Machine

open Sys2Proof.Certs

/-! ### Hot spots -/

section HotSpots
variable {s : State} {spot : Fin 36}

theorem govern_of_kept_of_kept (i : Nat) {x y : Int} (keptX : kept (some x) = some x) (keptY : kept (some y) = some y) :
    govern i (some x) (some y) =
      if (x - y).natAbs ≤ 24 then ((x + y + 1) / 2, false, false) else (max x y, true, true) := by
  simp only [govern, keptX, keptY]

theorem kept_none : kept none = none := rfl

theorem govern_of_kept_of_none (i : Nat) {x : Int} (keptX : kept (some x) = some x) :
    govern i (some x) none = (x, true, true) := by
  simp only [govern, keptX, kept_none]

theorem govern_of_none_of_kept (i : Nat) {y : Int} (keptY : kept (some y) = some y) :
    govern i none (some y) = (y, true, true) := by
  simp only [govern, keptY, kept_none]

theorem execSensorRead_of_agreeing {a b : Option Int} (agree : (govern spot.val a b).2.2 = false) :
    let g := govern spot.val a b
    let t := s.ageLife
    let x := t.spot spot.val
    let y : HotSpot := { gov := g.1, cond := g.2.1, since := if x.cond then x.since else t.clk.elapsed, reported := x.reported && g.2.1 }
    let u : State := { t with heat := { t.heat with spots := tput {} t.heat.spots spot.val y } }
    execSensorRead spot a b s = .next { u with heat := { u.heat with life := u.heat.life.cycle (u.hottest computeSpots) } } := by
  simp only [execSensorRead]
  exact if_neg (Bool.eq_false_iff.1 agree)

theorem execSensorFaultPersist_of_condition (cond : ConditionOk spot s) :
    let t := s.elapse ((s.spot spot.val).since + 1000000001 - s.clk.elapsed)
    let u : State := { t with heat := { t.heat with spots := tput {} t.heat.spots spot.val { s.spot spot.val with reported := true } } }
    let v := [0, 1].foldl (fun s l => if (s.lantern l).out then s else s.record (srcIo l 2) 39 lvUnit { detail := spot.val }) u
    let w := v.postHeat (spotUnit spot.val) 3 spot.val []
    execSensorFaultPersist spot s = .next
      (if spot.val < 32 then (w.modTower (spot.val / 8) fun t => { t with cap := 8 }).wantTower (spot.val / 8)
       else { w with heat := { w.heat with halfRate := tput false w.heat.halfRate ((spot.val - 32) / 2) true } }) := by
  obtain ⟨lasts, unreported⟩ := cond
  simp only [execSensorFaultPersist]
  exact (if_neg (by simp [lasts, unreported])).trans (apply_ite Host.Outcome.next _ _ _).symm

end HotSpots

/-! ### Ceilings and trips -/

section Ceilings
variable {s : State} {t : Fin 4}

theorem execThermalCeilingUpdate_of_near {x : TowerHeat} {base : Option Bool} (on : s.heat.towersOff = false) :
    let u := s.elapse ((s.tower t.val).at_ - s.clk.elapsed)
    (u.tower t.val).next (u.hottest (towerSpots t.val)) (u.hottest (baseSpots t.val)) u.clk.elapsed = (x, base) →
    x.ceil < x.told + 2 → x.told < x.ceil + 2 →
    execThermalCeilingUpdate t s = .next
      ((u.modTower t.val fun _ => { x with at_ := u.clk.elapsed + 1000000 }).wantTower t.val) := by
  intro u next risen fallen
  have near : (decide (x.ceil + 2 ≤ x.told) || decide (x.told + 2 ≤ x.ceil)) = false := by
    simp [fallen, risen]
  simp only [execThermalCeilingUpdate]
  refine (if_neg (Bool.eq_false_iff.1 on)).trans ?_
  simp only [u] at next
  simp only [next, near]
  rfl

theorem execThermalCeilingUpdate_of_far {x : TowerHeat} {base : Option Bool} (on : s.heat.towersOff = false) :
    let u := s.elapse ((s.tower t.val).at_ - s.clk.elapsed)
    (u.tower t.val).next (u.hottest (towerSpots t.val)) (u.hottest (baseSpots t.val)) u.clk.elapsed = (x, base) →
    x.ceil + 2 ≤ x.told ∨ x.told + 2 ≤ x.ceil →
    let v := (u.modTower t.val fun _ => { x with at_ := u.clk.elapsed + 1000000, told := x.ceil }).wantTower t.val
    let f := v.mhz x.ceil
    let d := f.2.draw 1
    let side := (base.map fun (b : Bool) => if b then 1 else 0).getD d.1
    execThermalCeilingUpdate t s = .next (d.2.postHeat (srcTower t.val 0x18) 2 (side * 2 ^ 24 + f.1) []) := by
  intro u next moved
  have far : (decide (x.ceil + 2 ≤ x.told) || decide (x.told + 2 ≤ x.ceil)) = true := by
    simpa using moved
  simp only [execThermalCeilingUpdate]
  refine (if_neg (Bool.eq_false_iff.1 on)).trans ?_
  simp only [u] at next
  simp only [next, far]
  cases base <;> rfl

theorem execBaseDieOverheat_of_hot {h : Nat} (hot : (s.tower t.val).hotSince = some h) :
    execBaseDieOverheat t s = .next
      (((s.elapse (h + 100000000 - s.clk.elapsed)).record (srcTower t.val 0x18) 40 lvPackage { detail := 2 }).packageFrom (srcTower t.val 0x18)) := by
  simp only [execBaseDieOverheat, hot]

end Ceilings

/-- Settles O49: two readings govern by the case of `govern` they fall in; a condition and a moved ceiling take the branch
that reports. -/
theorem sensors : Obligations.Sensors := by
  unfold Obligations.Sensors
  exact ⟨fun i _ _ keptX keptY => govern_of_kept_of_kept i keptX keptY,
    fun i _ keptX => ⟨govern_of_kept_of_none i keptX, govern_of_none_of_kept i keptX, rfl⟩,
    fun _ _ _ _ agree => execSensorRead_of_agreeing agree,
    fun _ _ cond => execSensorFaultPersist_of_condition cond,
    fun _ _ _ _ on => execThermalCeilingUpdate_of_near on,
    fun _ _ _ _ on => execThermalCeilingUpdate_of_far on,
    fun _ _ _ hot => execBaseDieOverheat_of_hot hot,
    fun _ _ _ compute => if_neg (Nat.not_le.2 compute)⟩

/-! ### Coolant -/

section CoolantEvents
variable {s : State}

theorem execHubSampleRead_of_sample {w : List Byte} {p : Nat} {t : State} {c : Coolant} (sample : SampleOk w t c s) :
    let u : State := { t with heat := { t.heat with cool := c } }
    execHubSampleRead true w p s = .next
      (if c.survival.isSome then
        (if (u.recent 1000000000).all (fun x => saysGood c.qNom x.2) then u.surviveEnd else u)
      else match u.flowLost with
        | some cause => u.survive cause
        | none => u.balancePower p) := by
  intro u
  obtain ⟨rfl, accepted, sampled, risen, fallen⟩ := sample
  have near : (decide (c.allow + 10 ≤ c.told) || decide (c.told + 10 ≤ c.allow)) = false := by
    simp [fallen, risen]
  simp only [execHubSampleRead]
  refine (if_neg (by simpa using accepted)).trans ?_
  simp only at sampled
  simp only [← sampled, near]
  change (if c.survival.isSome then
      if (u.recent 1000000000).all (fun x => saysGood c.qNom x.2) then Host.Outcome.next u.surviveEnd else .next u
    else match u.flowLost with
      | some cause => .next (u.survive cause)
      | none => .next (u.balancePower p)) = _
  refine (if_congr Iff.rfl (apply_ite Host.Outcome.next _ _ _).symm ?lost).trans (apply_ite Host.Outcome.next _ _ _).symm
  case lost => cases u.flowLost <;> rfl

theorem execHeatBalanceWindow_of_balanced {p : Nat} (window : WindowOk s) :
    let t := s.elapse (s.heat.cool.winAt - s.clk.elapsed)
    let c := s.heat.cool
    let den : Int := (384 * c.winN : Nat)
    (4 * ((c.winSum * 370 - (p : Int) * den).natAbs : Int) ≤ (p : Int) * den + 80000 * den) →
    execHeatBalanceWindow p s = .next { t with heat := { t.heat with cool := { c with
      winSum := 0, winN := 0, winOk := true, winAt := t.clk.elapsed + 5000000000, failing := 0, passing := c.passing + 1
      capped := c.capped && decide (c.passing + 1 < 3) } } } := by
  intro t c den balanced
  obtain ⟨good, counted⟩ := window
  have passes : decide ((p : Int) * den + 80000 * den < 4 * ((c.winSum * 370 - (p : Int) * den).natAbs : Int)) = false :=
    decide_eq_false (Int.not_lt.2 balanced)
  have cool : (s.elapse (s.heat.cool.winAt - s.clk.elapsed)).heat = s.heat := rfl
  simp only [execHeatBalanceWindow, cool]
  refine (if_neg (by simp [good, counted])).trans ?_
  simp only [c, den] at passes
  simp only [passes]
  simp [t, c]

theorem execTowersOff_of_noFlow {at_ cause : Nat} (lasts : SurvivalOk at_ cause s) (noFlow : s.heat.cool.flows = []) :
    let t := s.elapse (at_ + 5000000000 - s.clk.elapsed)
    let u := (({ t with heat := { t.heat with cool := { t.heat.cool with checked := true } } } : State).postHeat srcHub 9 0 []).packageAll
    let off : Tab Bool := (List.range 164).foldl (fun t k => if k < 144 ∨ 160 ≤ k then tput false t k true else t) u.heat.domainOff
    let v := (List.range 64).foldl (fun s sp => s.modSpire sp fun x => { x with stopped := true }) u
    let w : State := { v with
      heat := { v.heat with towersOff := true, domainOff := off }
      mem := { v.mem with bytes := v.mem.bytes.filter fun c => decide (hostBase ≤ c.1), bad := [] } }
    execTowersOff s = .next (w.users.foldl (fun s p => s.degrade p) w) := by
  obtain ⟨survival, unchecked, on⟩ := lasts
  have flows : (s.elapse (at_ + 5000000000 - s.clk.elapsed)).heat.cool.flows = [] := noFlow
  simp only [execTowersOff, survival]
  refine (if_neg (by simp [unchecked, on])).trans (if_neg ?_)
  simp only [flows, List.take_nil, List.length_nil]
  omega

theorem execPowerDomainSwitch_off {d : PowerDomain} (on : tget false s.heat.domainOff (domainKey d) = false)
    (mayOff : s.mayOff d = true) :
    execPowerDomainSwitch d false s = .next
      (({ s with heat := { s.heat with domainOff := tput false s.heat.domainOff (domainKey d) true } } : State).loseDomain d) :=
  if_pos (by simp [on, mayOff])

theorem execPowerDomainSwitch_on {d : PowerDomain} (off : tget false s.heat.domainOff (domainKey d) = true)
    (powered : s.heat.towersOff = false) :
    execPowerDomainSwitch d true s = .next
      (({ s with heat := { s.heat with domainOff := tput false s.heat.domainOff (domainKey d) false } } : State).gainDomain d) :=
  if_pos (by simp [off, powered])

end CoolantEvents

/-- Settles O50: under each clause's conditions the unit takes the one branch that the clause names; a sample near the
`P_allow` reported last leaves that report as it is. -/
theorem coolant : Obligations.Coolant := by
  unfold Obligations.Coolant
  exact ⟨fun _ _ _ below above => if_pos ⟨below, above⟩, fun _ _ _ => rfl, fun _ _ => rfl,
    fun _ _ _ _ _ sample => execHubSampleRead_of_sample sample, fun _ => rfl,
    fun _ _ window => execHeatBalanceWindow_of_balanced window,
    fun _ _ _ lasts noFlow => execTowersOff_of_noFlow lasts noFlow, fun _ => rfl,
    fun _ _ on mayOff => execPowerDomainSwitch_off on mayOff,
    fun _ _ off powered => execPowerDomainSwitch_on off powered⟩

end Sys2Proof.Machine

end
